-- ==== Sys2Proof/Word.lean ====
section
/-! DEFINITION. Word types of the HX7300 model and their plainest arithmetic. -/

namespace Sys2Proof

/-- One byte of a frame or of host memory. -/
abbrev Byte := BitVec 8
/-- A 16-bit field. -/
abbrev Half := BitVec 16
/-- One BAR0 register (R355). -/
abbrev Word := BitVec 32
/-- A 64-bit field. -/
abbrev Dword := BitVec 64
/-- One 64-byte record unit or descriptor (R357). -/
abbrev Unit512 := BitVec 512
/-- One 32-byte completion (R373). -/
abbrev Compl256 := BitVec 256

end Sys2Proof
end

