-- ==== Sys2Proof/Machine/Bits.lean ====
section
/-! DEFINITION. Bit fields, byte order, saturation and rounding: the helpers every block's rules use. -/

namespace Sys2Proof.Machine

/-- Bits [hi:lo] of a number, as a number (Scope and Conventions: bit 0 is the least significant). -/
def fld (x hi lo : Nat) : Nat := (x >>> lo) % 2 ^ (hi - lo + 1)

/-- Bit `k` of a word as a Bool. -/
def bitOf (w : Word) (k : Nat) : Bool := w.getLsbD k

/-- 1 for true, 0 for false. -/
def b2n (b : Bool) : Nat := if b then 1 else 0

/-- One field of a layout table: value `v` in `w` bits with least significant bit `lo`. -/
def place (lo w v : Nat) : Nat := (v % 2 ^ w) <<< lo

/-- A layout as the spec's tables write it: a list of (lowest bit, width, value). Bits no row names are 0 (R5). -/
def packFields : List (Nat × Nat × Nat) → Nat
  | [] => 0
  | (lo, w, v) :: r => place lo w v + packFields r

/-- A 64-byte unit from its layout. -/
def unitOf (l : List (Nat × Nat × Nat)) : Unit512 := BitVec.ofNat 512 (packFields l)

/-- A 32-bit register from its layout. -/
def wordOf (l : List (Nat × Nat × Nat)) : Word := BitVec.ofNat 32 (packFields l)

/-- Two's complement of an integer in `n` bits. -/
def ofInt (n : Nat) (i : Int) : BitVec n := BitVec.ofInt n i

/-- Two's complement field of an integer in a layout row. -/
def ifld (w : Nat) (i : Int) : Nat := (i % (2 ^ w : Int)).toNat

/-- The lesser of a count and the largest value `w` bits hold. -/
def satN (w v : Nat) : Nat := min v (2 ^ w - 1)

/-- A signed value held in `w` bits, saturating. -/
def satI (w : Nat) (i : Int) : Int := max (-(2 ^ (w - 1) : Int)) (min i (2 ^ (w - 1) - 1))

/-- A 32-bit counter plus `k`, saturating at 0xFFFF_FFFF (R394 and every counter rule). -/
def satAdd (c : Word) (k : Nat) : Word := BitVec.ofNat 32 (satN 32 (c.toNat + k))

/-- Clamp into a closed span. -/
def clampI (lo hi x : Int) : Int := max lo (min hi x)

/-- `a / b` rounded to the nearest integer, ties to even. -/
def rneDiv (a : Int) (b : Nat) : Int :=
  let q := a / (b : Int)
  let r := a % (b : Int)
  if 2 * r < b then q else if 2 * r > b then q + 1 else if q % 2 = 0 then q else q + 1

/-- `a / b` rounded to the nearest integer, ties away from zero (R9: rounded to the nearest). -/
def roundDiv (a : Int) (b : Nat) : Int := (2 * a + b) / (2 * (b : Int))

/-- A value with its low n bits, reserved ones, cleared. -/
def clearLow (n v : Nat) : Nat := v / 2 ^ n * 2 ^ n

/-- Ceiling of a quotient of naturals. -/
def ceilDiv (a b : Nat) : Nat := (a + b - 1) / b

/-- Absolute value as a natural. -/
def absN (i : Int) : Nat := i.natAbs

/-- The element at `k`, or the default. -/
def nth {α : Type} (l : List α) (k : Nat) (d : α) : α := (l[k]?).getD d

/-- The list with the element at `k` replaced by its image. -/
def modAt {α : Type} (l : List α) (k : Nat) (f : α → α) : List α :=
  match l, k with
  | [], _ => []
  | a :: r, 0 => f a :: r
  | a :: r, k + 1 => a :: modAt r k f

/-- The list with the element at `k` replaced. -/
def setAt {α : Type} (l : List α) (k : Nat) (a : α) : List α := modAt l k (fun _ => a)

/-- Look a key up in an association list. -/
def lookupK {β : Type} (l : List (Nat × β)) (k : Nat) : Option β :=
  match l with
  | [] => none
  | (a, b) :: r => if a = k then some b else lookupK r k

/-- Insert or replace a key, keys kept strictly rising. -/
def insertK {β : Type} (l : List (Nat × β)) (k : Nat) (b : β) : List (Nat × β) :=
  match l with
  | [] => [(k, b)]
  | (a, c) :: r => if k < a then (k, b) :: (a, c) :: r else if a = k then (k, b) :: r else (a, c) :: insertK r k b

/-- Remove a key. -/
def eraseK {β : Type} (l : List (Nat × β)) (k : Nat) : List (Nat × β) :=
  match l with
  | [] => []
  | (a, c) :: r => if a = k then eraseK r k else (a, c) :: eraseK r k

/-- Sum of a list of naturals. -/
def sumN (l : List Nat) : Nat := l.foldl (· + ·) 0

/-- Sum of a list of integers. -/
def sumI (l : List Int) : Int := l.foldl (· + ·) 0

/-- Largest of a list of naturals, 0 for the empty list. -/
def maxN (l : List Nat) : Nat := l.foldl max 0

/-- Indices 0 to n - 1 at which a predicate holds. -/
def idxWhere (n : Nat) (p : Nat → Bool) : List Nat := (List.range n).filter p

/-- A bitmap of the indices below `w` at which a predicate holds. -/
def bitmap (w : Nat) (p : Nat → Bool) : Nat :=
  (List.range w).foldl (fun a k => if p k then a + 2 ^ k else a) 0

/-- Big-endian number of a byte list (network order, R2). -/
def beNat (l : List Byte) : Nat := l.foldl (fun a b => a * 256 + b.toNat) 0

/-- Little-endian number of a byte list (R2). -/
def leNat (l : List Byte) : Nat := l.foldr (fun b a => a * 256 + b.toNat) 0

/-- `n` bytes of a list from offset `o`, fewer where the list ends. -/
def sub (l : List Byte) (o n : Nat) : List Byte := (l.drop o).take n

/-- Big-endian field at an offset. -/
def beAt (l : List Byte) (o n : Nat) : Nat := beNat (sub l o n)

/-- `n` bytes, big-endian, of a number. -/
def toBE : Nat → Nat → List Byte
  | 0, _ => []
  | n + 1, v => BitVec.ofNat 8 (v / 256 ^ n) :: toBE n v

/-- `n` bytes, little-endian, of a number. -/
def toLE : Nat → Nat → List Byte
  | 0, _ => []
  | n + 1, v => BitVec.ofNat 8 v :: toLE n (v / 256)

/-- A byte list padded with zeros to a length. -/
def padTo (n : Nat) (l : List Byte) : List Byte := l ++ List.replicate (n - l.length) 0#8

/-- Bytes as 64-byte units, byte 0 at the lowest address, unused bytes 0 (R371); `fuel` bounds the units. -/
def bytesToUnits : Nat → List Byte → List Unit512
  | 0, _ => []
  | k + 1, l => if l.isEmpty then [] else BitVec.ofNat 512 (leNat (l.take 64)) :: bytesToUnits k (l.drop 64)

/-- A list of (width, value) entries laid one after another from bit 0 of the first unit on, as units. -/
def streamUnits (l : List (Nat × Nat)) : List Unit512 :=
  let (v, n) := l.foldl (fun (a : Nat × Nat) e => (a.1 + place a.2 e.1 e.2, a.2 + e.1)) (0, 0)
  (List.range (ceilDiv n 512)).map fun k => BitVec.ofNat 512 (v >>> (512 * k))

theorem lookupK_insertK_same {β : Type} (l : List (Nat × β)) (k : Nat) (b : β) :
    lookupK (insertK l k b) k = some b := by
  induction l with
  | nil => simp [insertK, lookupK]
  | cons p r ih =>
    obtain ⟨a, c⟩ := p
    simp only [insertK]
    split
    · simp [lookupK]
    · split
      · simp [lookupK]
      · rename_i h1 h2; simp [lookupK, h2, ih]

/-- Insert into a rising list without repeats. -/
def insertN (n : Nat) : List Nat → List Nat
  | [] => [n]
  | a :: r => if n < a then n :: a :: r else if n = a then a :: r else a :: insertN n r

end Sys2Proof.Machine
end

