-- ==== Sys2Proof/Syntax/Operands.lean ====
section
/-! DEFINITION. Operand types of the commands that are not images, frames or engine data. -/

namespace Sys2Proof

/-- What the device finds where a command's descriptor should stand (R353, R375). -/
inductive DescRead where
  /-- The command's own OPCODE. -/
  | good
  /-- The read of the descriptor fails. -/
  | failed
  /-- An OPCODE that R374 does not list. -/
  | unknown (op : Nat)
  deriving DecidableEq, Repr

/-- A descriptor's header as the device reads it at the head of a ring (R372). OPCODE is the command itself where `read` is good. -/
structure Desc where
  read     : DescRead
  ring     : Nat
  tag      : Word
  irq      : Bool
  sched    : Bool
  schedSec : Nat
  schedNs  : Nat
  /-- PARAMS, bits [383:0] of the descriptor. -/
  params   : BitVec 384
  deriving DecidableEq, Repr

/-- The two PTP domains (R75). -/
inductive DomId where
  | a
  | b
  deriving DecidableEq, Repr

/-- A time in seconds and whole nanoseconds, as a PTP message carries it. -/
structure PtpTime where
  sec : Nat
  ns  : Nat
  deriving DecidableEq, Repr

/-- A clock's port: clockIdentity and portNumber (IEEE 1588). -/
structure PortId where
  clock : Dword
  port  : Half
  deriving DecidableEq, Repr

/-- The contents of an Announce message that the best master clock algorithm reads (R84). -/
structure Announce where
  source    : PortId
  logInt    : Int
  utcOffset : Int
  leap61    : Bool
  leap59    : Bool
  utcValid  : Bool
  prio1     : Nat
  clsAcc    : Nat
  prio2     : Nat
  gm        : Dword
  steps     : Nat
  deriving DecidableEq, Repr

/-- A host access to BAR0 or BAR2: offset and width in bits (R355, R356). -/
structure Access where
  off  : Nat
  bits : Nat
  deriving DecidableEq, Repr

/-- One of the accesses that BAR0 accepts: aligned, of 32 or 64 bits (R355). -/
def Access.aligned (a : Access) : Bool := (a.bits = 32 || a.bits = 64) && decide (a.off % (a.bits / 8) = 0)

/-- A host read, of BAR2 or of BAR0 (R355, R356). -/
structure BarRead where
  bar2 : Bool
  at_  : Access
  deriving DecidableEq, Repr

/-- A hardware lock as one of its users, the host (0) or a core (1 to 4), names it (R405 to R407). -/
structure LockUse where
  lock : Nat
  who  : Nat
  deriving DecidableEq, Repr

/-- The MSI-X capability's control as the host has now written it: enable and function mask (R387). -/
structure MsixCtl where
  en   : Bool
  mask : Bool
  deriving DecidableEq, Repr

/-- The other controls of configuration space as the host has now written them: Max_Payload_Size and Max_Read_Request_Size in bytes, and whether
the error status of AER is cleared (R351, R353, R398). -/
structure DevCtl where
  payload   : Nat
  readReq   : Nat
  clearAer  : Bool
  deriving DecidableEq, Repr

/-- Lanes and speed of a trained link (R352, R392). -/
inductive LinkWidth where
  | x1
  | x2
  | x4
  deriving DecidableEq, Repr

inductive LinkSpeed where
  | gt2_5
  | gt5
  | gt8
  | gt16
  deriving DecidableEq, Repr

def LinkWidth.lanes : LinkWidth → Nat
  | .x1 => 1
  | .x2 => 2
  | .x4 => 4

def LinkSpeed.code : LinkSpeed → Nat
  | .gt2_5 => 1
  | .gt5 => 2
  | .gt8 => 3
  | .gt16 => 4

/-- What a start-up meets that its environment decides (R519 to R524). -/
structure BootIn where
  /-- MODE1 and MODE0 as strapped (R520). -/
  mode       : Nat
  /-- The first step that fails for a cause outside the state, with its failure code (R524); code 0 where another reset source, which then follows, cuts the step short (R527). -/
  fail       : Option (Nat × Nat)
  /-- The PCIe link as trained (R352); none where it has not trained. -/
  link       : Option (LinkWidth × LinkSpeed)
  /-- Ports (bits 0 to 3) and Yoke lanes (bits 4 and 5) whose SerDes calibration failed (R524, code 4). -/
  laneBad    : Nat
  /-- Firmware banks that do not read back good: bit 0 A, bit 1 B (R522). -/
  bankBad    : Nat
  /-- Addresses of the ports from the provisioning data. -/
  macs       : List Nat
  /-- Milliseconds from the first step to READY, rounded up, or to the failure (R523). -/
  ms         : Nat
  /-- TBU_FREE at the end of the start-up, in 1/256 ns. -/
  free       : Nat
  deriving DecidableEq, Repr

/-- What a power loss cuts short (R461, R471, R517). -/
inductive PowerCut where
  | nothing
  /-- The update of a key slot, before the new buffer's valid mark. -/
  | key (slot : Nat)
  /-- A life-cycle transition after its valid mark: target, owner key, certificate. -/
  | lifecycle (target : Nat) (owner cert : List Byte)
  deriving DecidableEq, Repr

end Sys2Proof
end

