-- ==== Sys2Proof/Machine/StateParts/Core.lean ====
section
/-! DEFINITION. State of SYS, HIF, LOG, FLT, SWM and TBU, with the values after reset. -/

namespace Sys2Proof.Machine

/-- RUN_STATE (R31). -/
inductive RunState where
  | init
  | config
  | run
  | maintenance
  | safe
  deriving DecidableEq, Repr

/-- The code of a run state (R31). -/
def RunState.code : RunState → Nat
  | .init => 0
  | .config => 1
  | .run => 2
  | .maintenance => 3
  | .safe => 4

/-- A descriptor that was read: what its completion needs (R373). -/
structure Ctx where
  ring    : Nat
  index   : Nat
  opcode  : Nat
  tag     : Word
  irq     : Bool
  /-- It blocks its ring until it completes (R376). -/
  blocks  : Bool
  /-- Its completion is discarded: HIF was reset by PERST_N after it was read (R528). -/
  discard : Bool
  /-- The COMPL ring that holds its reservation (R370). -/
  compl   : Nat
  deriving DecidableEq, Repr

/-- SYS registers, run state and start-up state (R31, R36, R395, R515 to R533). -/
structure Sys where
  /-- VIN above the threshold and rails up (R515, R517). -/
  powered     : Bool
  runState    : RunState
  ready       : Bool
  locked      : Bool
  guarEff     : Nat
  guarantee   : Word
  resetCause  : Word
  boot        : Word
  vin         : Word
  temp        : Word
  /-- Halted for boundary scan (R520). -/
  halted      : Bool
  /-- Failure code of the start-up that ended without READY, for the next one to report (R524), kept in AON. -/
  prevFail    : Nat
  /-- AON time, 1/256 ns, and the instant at which VIN fell (R525). -/
  aon         : Nat
  vinFallAt   : Option Nat
  /-- Ports (bits 0 to 3) and Yoke lanes (bits 4 and 5) whose calibration failed and that stay down (R524). -/
  laneBad     : Nat
  /-- Pipeline span Dp in ns in force (R38); 0 before a START. -/
  dp          : Nat
  /-- REPLAY_BUDGET in force, microseconds (R37). -/
  replayUs    : Nat
  /-- MAINT_ENTER that waits for EMIT of the last committed tick (R32). -/
  maintPend   : Option (Option Ctx × Bool)
  /-- A CONFIG_LOAD, START, UNCONFIGURE or FW_LOAD is executing (R375). -/
  exclusive   : Bool
  /-- Reporting rate F of the latest START, 0 where none is in force (R366). -/
  rate        : Nat
  deriving DecidableEq, Repr

def Sys.reset : Sys :=
  { powered := false, runState := .init, ready := false, locked := false, guarEff := 0, guarantee := 0x0007D000#32,
    resetCause := 0#32, boot := 0#32, vin := 0#32, temp := 0#32, halted := false, prevFail := 0, aon := 0,
    vinFallAt := none, laneBad := 0, dp := 0, replayUs := 0, maintPend := none, exclusive := false, rate := 0 }

/-- A run of lost records of one ring (R367). -/
structure GapRun where
  records : Nat
  units   : Nat
  firstT  : Option Nat
  lastT   : Option Nat
  age     : Bool
  full    : Bool
  off     : Bool
  alarms  : Nat
  deriving DecidableEq, Repr

/-- A record handed to the ring engine (R363): its units with PHASE, RING and RING_SEQ still 0. -/
structure Rec where
  typ      : Nat
  units    : List Unit512
  /-- Its TICK_SEQ, where it carries one (R367). -/
  tick     : Option Nat
  /-- Instant on TBU_FREE after which it is lost with cause AGE (R366). -/
  deadline : Nat
  deriving DecidableEq, Repr

/-- One place of a staging queue: a record, or a run of lost records (R365, R367). -/
inductive QItem where
  | rcd (r : Rec)
  | lost (g : GapRun)
  deriving DecidableEq, Repr

/-- One ring (R357 to R370, R389, R391). -/
structure Ring where
  base     : Dword
  cfg      : Word
  head     : Nat
  tail     : Nat
  /-- PHASE of the device's present pass (R361). -/
  phase    : Bool
  /-- RING_SEQ of the next record (R363). -/
  seq      : Nat
  /-- What the device wrote from head to tail: completions in bits [255:0], or record units. -/
  mem      : List Unit512
  coal     : Word
  quota    : Word
  lostCnt  : Word
  staged   : List QItem
  /-- Completions that fell due and are not yet written, oldest first, with their IRQ bit (R358). -/
  held     : List (Compl256 × Bool)
  /-- Completion entries reserved for descriptors read (R370). -/
  reserved : Nat
  /-- A command of this ring blocks it (R376). -/
  blocked  : Bool
  /-- Entries written since the last message, and the instant of the first one not signalled (R389). -/
  coalCnt  : Nat
  coalAt   : Option Nat
  /-- Disciplined time, 2^-16 ns, of the latest reference record handed since enable (R369). -/
  refAt    : Option Int
  deriving DecidableEq, Repr

def Ring.reset : Ring :=
  { base := 0#64, cfg := 0x04000000#32, head := 0, tail := 0, phase := true, seq := 0, mem := [], coal := 1#32,
    quota := 0x40#32, lostCnt := 0#32, staged := [], held := [], reserved := 0, blocked := false, coalCnt := 0,
    coalAt := none, refAt := none }

/-- The two types of ring states by use: HIF_RING_CFG.TYPE (R357). -/
inductive RingType where
  | cmd
  | compl
  | stream
  | inject
  deriving DecidableEq, Repr

/-- IMAGE_STATE (R392). -/
inductive ImageState where
  | none
  | loading
  | loaded
  | refused
  deriving DecidableEq, Repr

def ImageState.code : ImageState → Nat
  | .none => 0
  | .loading => 1
  | .loaded => 2
  | .refused => 3

/-- What a scheduled command will do (R68, R374: the schedulable opcodes). -/
inductive SchedCmd where
  | maintEnter
  | dfcCoefLoad (chain filter n : Nat) (words : List Word)
  /-- With its parameters and what was read of the blob (R468). -/
  | keyRoll (slot : Nat) (params : BitVec 384) (blob : Option (List Byte))
  | pairSwitchover
  deriving DecidableEq, Repr

/-- A scheduled command accepted and waiting (R68). -/
structure Sched where
  ctx   : Ctx
  atNs  : Nat
  /-- Judged late: it executes at the next commit and its completion carries LATE (R68). -/
  late  : Bool
  cmd   : SchedCmd
  deriving DecidableEq, Repr

/-- HIF registers and ring engines (R391). -/
structure Hif where
  event     : Word
  eventEn   : Word
  horizon   : Word
  vec       : List Word
  cnt       : List Word
  rings     : List Ring
  /-- MSI-X table: 256 words, four for each vector (R387). -/
  msix      : List Word
  pba       : Dword
  bme       : Bool
  msixEn    : Bool
  msixMask  : Bool
  d3hot     : Bool
  linkWidth : Nat
  linkSpeed : Nat
  /-- Max_Payload_Size and Max_Read_Request_Size in bytes, and the advisory non-fatal error status of AER (R351, R353). -/
  payload   : Nat
  readReq   : Nat
  advisory  : Bool
  /-- Completer Abort: the BAR0 offset in the logged header of the write that was rejected (R398). -/
  abort     : Option Nat
  open_     : Bool
  imgState  : ImageState
  digest    : Dword
  imgSeq    : Word
  sched     : List Sched
  deriving DecidableEq, Repr

/-- The MSI-X table after reset: every vector masked (PRESUMED, PCI Express; log 4). -/
def msixReset : List Word := (List.range 256).map fun k => if k % 4 = 3 then 1#32 else 0#32

def Hif.reset : Hif :=
  { event := 0#32, eventEn := 0#32, horizon := 0x40#32, vec := List.replicate 16 0#32, cnt := List.replicate 16 0#32,
    rings := List.replicate 64 Ring.reset, msix := msixReset, pba := 0#64, bme := false, msixEn := false,
    msixMask := false, d3hot := false, linkWidth := 0, linkSpeed := 0, payload := 128, readReq := 512, advisory := false, abort := none, open_ := false, imgState := .none,
    digest := 0#64, imgSeq := 0#32, sched := [] }

/-- An event in the Logbook's intake queue, stamped at entry (R411, R415). -/
structure LogEv where
  sec     : Nat
  ns      : Nat
  epoch   : Nat
  tickSeq : Nat
  event   : Nat
  source  : Nat
  cls     : Nat
  runSt   : Nat
  suspect : Bool
  timeSet : Bool
  arg     : Nat
  /-- Cycle of its entry, on AON time. -/
  cyc     : Nat
  deriving DecidableEq, Repr

/-- The Logbook (R410 to R425). -/
structure Log where
  event    : Word
  eventEn  : Word
  cursor   : Word
  stream   : Word
  cnt      : List Word
  active   : Bool
  wrapped  : Bool
  seqNext  : Nat
  oldest   : Nat
  /-- Records present, by index (R410). -/
  recs     : List (Nat × Unit512)
  queue    : List LogEv
  queueMax : Nat
  dropPend : Nat
  dropFirst : Nat
  dropLast : Nat
  dropSrc  : Nat
  dropCls  : Nat
  deriving DecidableEq, Repr

def Log.reset : Log :=
  { event := 0#32, eventEn := 0#32, cursor := 0#32, stream := 0#32, cnt := List.replicate 4 0#32, active := false,
    wrapped := false, seqNext := 0, oldest := 0, recs := [], queue := [], queueMax := 0, dropPend := 0,
    dropFirst := 0, dropLast := 0, dropSrc := 0, dropCls := 0 }

/-- The record of one fault (R433); `id` tells faults apart inside the model. -/
structure FaultRec where
  id        : Nat
  detail    : Nat
  code      : Nat
  domain    : Nat
  cls       : Nat
  escalated : Bool
  cleared   : Bool
  conseq    : Bool
  reaction  : Nat
  result    : Nat
  mode      : Nat
  mergeCnt  : Nat
  mergeSrc  : Nat
  epoch     : Nat
  tickSeq   : Nat
  ts32      : Nat
  /-- Detection on TBU_FREE. -/
  at_       : Nat
  deriving DecidableEq, Repr

/-- An open reaction window (R429, R430): its fault, its domain, the unit restarted, the end of the reset on TBU_FREE; `waits` once
the restore is done and the engine's first task is awaited. -/
structure Win where
  id     : Nat
  domain : Nat
  unit   : Nat
  resetEnd : Nat
  waits  : Bool
  deriving DecidableEq, Repr

/-- The Fault Collector (R426 to R445, R454). -/
structure Flt where
  occurred  : Word
  ctrl      : Word
  event     : Word
  eventEn   : Word
  cnt       : List Word
  histWr    : Nat
  /-- The first-error latch and the 16 history entries. -/
  first     : Option FaultRec
  hist      : List (Option FaultRec)
  /-- Faults with CLEARED = 0 (R435). -/
  live      : List FaultRec
  wins      : List Win
  nextId    : Nat
  /-- FAULT_N driven low, its 1.0 ms minimum done, the instant at which the minimum ends, a RELEASE kept (R432). -/
  low       : Bool
  minDone   : Bool
  minEnd    : Nat
  release   : Bool
  fatal     : Bool
  /-- Domains masked during their reset, until an instant on TBU_FREE (R437). -/
  masked    : List (Nat × Nat)
  deriving DecidableEq, Repr

def Flt.reset : Flt :=
  { occurred := 0#32, ctrl := 2#32, event := 0#32, eventEn := 0#32, cnt := List.replicate 8 0#32, histWr := 0,
    first := none, hist := List.replicate 16 none, live := [], wins := [], nextId := 0, low := true, minDone := false, minEnd := 0,
    release := false, fatal := false, masked := [] }

/-- The Safety Watch (R447, R448, R454). -/
structure Swm where
  cnt      : List Word
  selfPass : Bool
  lockOk   : Bool
  /-- TS32 of the latest passed self-test. -/
  selfTs   : Nat
  /-- Heartbeats of the Helm, the Churn and the Bell present. -/
  hb       : List Bool
  /-- WAIT_MAX in ns as copied at START. -/
  waitMax  : Nat
  /-- The 50 ms window in progress started at this value of TBU_FREE. -/
  winAt    : Nat
  /-- Disciplined time before and after each forward step in RUN that some uncommitted tick's boundary is not behind. -/
  jumps    : List (Int × Int)
  deriving DecidableEq, Repr

def Swm.reset : Swm :=
  { cnt := List.replicate 4 0#32, selfPass := false, lockOk := false, selfTs := 0, hb := [false, false, false], waitMax := 0, winAt := 0, jumps := [] }

/-- States of a PTP domain (R82). -/
inductive DomState where
  | disabled
  | freerun
  | acquire
  | locked
  | deadReckoning
  | requalify
  deriving DecidableEq, Repr

def DomState.code : DomState → Nat
  | .disabled => 0
  | .freerun => 1
  | .acquire => 2
  | .locked => 3
  | .deadReckoning => 4
  | .requalify => 5

/-- What a dwell in DEAD_RECKONING waits for (R84). -/
inductive Dwell where
  | samples (left : Nat)
  | firstSync
  deriving DecidableEq, Repr

/-- A clock heard in Announce messages on a port (R84). -/
structure Foreign where
  port   : Nat
  ann    : Announce
  /-- Instants of its last two Announce messages on TBU_FREE, newest first. -/
  times  : List Nat
  deriving DecidableEq, Repr

/-- A two-step Sync that waits for its Follow_Up (R79). -/
structure SyncPend where
  port   : Nat
  source : PortId
  seq    : Nat
  corr   : Int
  t2     : Int
  freeAt : Nat
  logInt : Int
  deriving DecidableEq, Repr

/-- One PTP domain of the Sextant (R75 to R92, R111). Times are in 2^-16 ns. -/
structure Dom where
  dcfg      : Word
  st        : DomState
  offset    : Int
  anchor    : Nat
  rate      : Int
  /-- Frequency term in 2^-16 ppb (R80). -/
  freq      : Int
  kp        : Word
  ki        : Word
  theta     : Int
  pathD     : Int
  syncCnt   : Word
  drCnt     : Word
  pathStepCnt : Word
  /-- An accepted sample stands since the domain last entered ACQUIRE (R98). -/
  thetaOk   : Bool
  /-- The last 16 absolute offsets of accepted samples (R106). -/
  lastAbs   : List Nat
  /-- The last accepted path delays, at most 8 (R89). -/
  dRef      : List Int
  good      : Nat
  bad       : Nat
  dwell     : Option Dwell
  /-- Samples measured in REQUALIFY with their instants, newest first (R84). -/
  requal    : List (Int × Nat)
  lastAt    : Option Nat
  /-- Instant on TBU_FREE since which it has been outside LOCKED; `none` in LOCKED (R91, R106). -/
  leftLocked : Option Nat
  /-- The selected grandmaster as its best Announce named it, with the port. -/
  gm        : Option Foreign
  foreign   : List Foreign
  syncLog   : Int
  lastSync  : Option Nat
  twoStep   : Option SyncPend
  /-- The first sample in ACQUIRE is still to come (R83). -/
  firstAcq  : Bool
  /-- ENABLE was cleared: it is DISABLED for HOLDOVER too (R88, R113). -/
  removed   : Bool
  deriving DecidableEq, Repr

def Dom.reset : Dom :=
  { dcfg := 0#32, st := .disabled, offset := 0, anchor := 0, rate := 0, freq := 0, kp := 0x8000#32, ki := 0x1000#32,
    theta := 0, pathD := 0, syncCnt := 0#32, drCnt := 0#32, pathStepCnt := 0#32, thetaOk := false, lastAbs := [],
    dRef := [], good := 0, bad := 0, dwell := none, requal := [], lastAt := none, leftLocked := some 0, gm := none,
    foreign := [], syncLog := 0, lastSync := none, twoStep := none, firstAcq := false, removed := false }

/-- PPS in and out (R95 to R97). -/
structure Pps where
  cfg      : Word
  inDelay  : Word
  inDev    : Word
  inCnt    : Word
  valid    : Bool
  /-- Last accepted edge on TBU_FREE and the number of consecutive accepted ones. -/
  lastAcc  : Option Nat
  run      : Nat
  out      : Bool
  /-- Instant of the fall of PPS_OUT on TBU_FREE. -/
  fallAt   : Option Nat
  /-- After a STEP: no edge before this disciplined time, 2^-16 ns. -/
  holdTo   : Option Int
  /-- The last TAI second at which an edge was made, since the last step. -/
  lastSec  : Option Int
  /-- PPS differences of the domains at the last accepted edge, 2^-16 ns (R90). -/
  diffA    : Int
  diffB    : Int
  /-- The last rising edge of PPS_IN on TBU_FREE, whether R95 saw it or not (R546). -/
  rise     : Option Nat
  deriving DecidableEq, Repr

def Pps.reset : Pps :=
  { cfg := 0x186A0003#32, inDelay := 0#32, inDev := 0#32, inCnt := 0#32, valid := false, lastAcc := none, run := 0,
    out := false, fallAt := none, holdTo := none, lastSec := none, diffA := 0, diffB := 0, rise := none }

/-- A Sync in the table of the transparent clock (R109). -/
structure TcEntry where
  dir    : Nat
  source : PortId
  seq    : Nat
  add    : Int
  at_    : Nat
  deriving DecidableEq, Repr

/-- A Pdelay exchange of a port (R84, R79). -/
structure Pdelay where
  mean    : Int
  seq     : Nat
  t1      : Option Nat
  /-- A response that waits for its follow-up: t2 and t4, correction. -/
  resp    : Option (Int × Nat × Int)
  deriving DecidableEq, Repr

def Pdelay.reset : Pdelay := { mean := 0, seq := 0, t1 := none, resp := none }

/-- The Sextant (R74 to R113). -/
structure Tbu where
  /-- TBU_FREE in 2^-16 ns (R74). -/
  free      : Nat
  running   : Bool
  ctrl      : Word
  epoch     : Nat
  stepCnt   : Word
  event     : Word
  eventEn   : Word
  pathStepTh : Word
  agreeTh   : Word
  lockTh    : Word
  holdLimit : Word
  cross     : List Int
  asym      : List Word
  domA      : Dom
  domB      : Dom
  pps       : Pps
  timeSet   : Bool
  suspect   : Bool
  /-- The last instant on TBU_FREE at which a condition of R91 held; `none`: none since the last clear. -/
  lastBad   : Option Nat
  /-- The last write of SEL: its instant on TBU_FREE and the domain it named (R87: a switch in the same cycle comes before it). -/
  selWrite  : Option (Nat × DomId)
  clockFault : Bool
  snapEpoch : Nat
  snapFree  : Nat
  snapTime  : Int
  snapA     : Int
  snapB     : Int
  tcCfg     : Word
  tcFwd     : Word
  tcSat     : Word
  tcUnm     : Word
  tc        : List TcEntry
  pdelay    : List Pdelay
  deriving DecidableEq, Repr

def Tbu.reset : Tbu :=
  { free := 0, running := false, ctrl := 2#32, epoch := 0, stepCnt := 0#32, event := 0#32, eventEn := 0#32,
    pathStepTh := 0x3E8#32, agreeTh := 0x3E8#32, lockTh := 0xC8#32, holdLimit := 0x3C#32, cross := [0, 0, 0],
    asym := List.replicate 4 0#32, domA := Dom.reset, domB := Dom.reset, pps := Pps.reset, timeSet := false,
    suspect := true, lastBad := some 0, selWrite := none, clockFault := false, snapEpoch := 0, snapFree := 0, snapTime := 0, snapA := 0,
    snapB := 0, tcCfg := 0#32, tcFwd := 0#32, tcSat := 0#32, tcUnm := 0#32, tc := [],
    pdelay := List.replicate 4 Pdelay.reset }

end Sys2Proof.Machine
end

