-- ==== Sys2Proof/Syntax/LseImage.lean ====
section
/-! DEFINITION. The estimator section of an image (R247 to R252, R264, R315, R558). -/

namespace Sys2Proof

/-- An LSE bus: its zone and system, and its ANCHOR bit (R315). -/
structure LseBus where
  zone   : Nat
  system : Nat
  anchor : Bool
  deriving DecidableEq, Repr

/-- A branch-table entry: its ends and the status points that make it switchable (R253). -/
structure LseBranch where
  fromBus : Nat
  toBus   : Nat
  points  : List Nat
  deriving DecidableEq, Repr

/-- A watched branch: AF and BF, binary32 (R264). -/
structure LseWatch where
  branch : Nat
  afRe   : Word
  afIm   : Word
  bfRe   : Word
  bfIm   : Word
  deriving DecidableEq, Repr

/-- An entry of L below the diagonal: row, column, value (R558). -/
structure LEntry where
  row : Nat
  col : Nat
  re  : Word
  im  : Word
  deriving DecidableEq, Repr

/-- One factor in full form: its topology over the branches, L, D, Ω (R252). -/
structure LseFactor where
  inService : List Bool
  l         : List LEntry
  d         : List Word
  omega     : List Word
  deriving DecidableEq, Repr

/-- The estimator section. -/
structure LseImage where
  buses    : List LseBus
  branches : List LseBranch
  meas     : List (BitVec 256)
  watched  : List LseWatch
  factors  : List LseFactor
  invTol   : Word
  sbase    : Word
  outRing  : Nat
  deriving DecidableEq, Repr

end Sys2Proof
end

