-- ==== Sys2Proof/Machine/StateParts/Lse.lean ====
section
/-! DEFINITION. State of the Linear State Estimator (R247 to R278). -/

namespace Sys2Proof.Machine

/-- A complex binary32 value: real and imaginary bits. -/
abbrev C32 := Nat × Nat

/-- What a tick is bound to at its commit (R253, R254). -/
structure Bind where
  /-- In-service state of every branch. -/
  inService : List Bool
  variant   : Nat
  approx    : Bool
  uncertain : Bool
  hold      : List C32
  holdSeq   : Option Nat
  deriving DecidableEq, Repr

def Bind.reset : Bind :=
  { inService := [], variant := 0, approx := false, uncertain := false, hold := [], holdSeq := none }

/-- Class of a measurement in a tick (R256, R261). -/
inductive MCls where
  | live
  | held
  | unused
  | removed
  deriving DecidableEq, Repr

/-- A measurement in a solve. -/
structure MRun where
  cls  : MCls
  z    : C32
  r    : C32
  test : Bool
  deriving DecidableEq, Repr

/-- A removal (R262): measurement, r_N at removal, d, u. -/
structure Removal where
  meas : Nat
  rn   : Nat
  d    : Nat
  u    : List C32
  deriving DecidableEq, Repr

/-- The results of steps 1 to 6 (R258). -/
structure Solve where
  g        : Nat
  x        : List C32
  ms       : List MRun
  removals : List Removal
  maxNr    : Nat
  limit    : Bool
  critical : Nat
  /-- AMEND_COVER (R270). -/
  cover    : Nat
  deriving DecidableEq, Repr

/-- A flow of a watched branch (R264). -/
structure Flow32 where
  p    : Nat
  q    : Nat
  i    : Nat
  out  : Bool
  unob : Bool
  deriving DecidableEq, Repr

/-- The results of a whole solve, as handed to the Bell (R269) and written (R273, R274). -/
structure LseRes where
  x        : List C32
  obs      : List Bool
  islands  : List (List Nat)
  flows    : List Flow32
  unobZones : List Nat
  j        : Nat
  chiLim   : Nat
  nu       : Int
  chi      : Nat
  maxNr    : Nat
  nLive    : Nat
  nHeld    : Nat
  nUnused  : Nat
  nObs     : Nat
  removals : List (Nat × Nat)
  limit    : Bool
  critical : Nat
  cover    : Nat
  deriving DecidableEq, Repr

/-- The estimator. -/
structure Lse where
  nrTh    : Word
  chiK    : Word
  maxRem  : Word
  event   : Word
  eventEn : Word
  cnt     : List Word
  sec     : Option LseImage
  hold    : List C32
  holdSeq : Option Nat
  /-- Factor of the previous committed tick (R254). -/
  lastVar : Option Nat
  /-- LSE_SOLVE's results that wait for LSE_ANALYZE; a failed invariant of the tick in progress. -/
  work    : Option Solve
  invFail : Bool
  /-- Results of RESOLVE_A that wait for their RESOLVE_B. -/
  rework  : List Solve
  /-- Latest primary result (R276, R277). -/
  variant : Nat
  approx  : Bool
  unobs   : Bool
  chi     : Nat
  last    : List Word
  unobZones : List Nat
  measRt  : List (MCls × Bool)
  measSel : Word
  deriving DecidableEq, Repr

def Lse.reset : Lse :=
  { nrTh := 0x40800000#32, chiK := 0x4045C28F#32, maxRem := 8#32, event := 0#32, eventEn := 0#32,
    cnt := List.replicate 16 0#32, sec := none, hold := [], holdSeq := none, lastVar := none, work := none,
    invFail := false, rework := [], variant := 0, approx := false, unobs := false, chi := 0, last := List.replicate 4 0#32,
    unobZones := [], measRt := [], measSel := 0#32 }

end Sys2Proof.Machine
end

