-- ==== Sys2Proof/Machine/StateParts/Aln.lean ====
section
/-! DEFINITION. State of the Churn (R186 to R220) and of a tick between commit and EMIT. -/

namespace Sys2Proof.Machine

/-- A packet of an ingest FIFO (R181): one endpoint's values of one measurement time. -/
structure Pkt where
  /-- Entry number of the fast endpoint table. -/
  ep       : Nat
  /-- Measurement time, TAI ns, before snapping. -/
  tm       : Nat
  vals     : List Dword
  flags    : Byte
  arrTs    : Nat
  arrEpoch : Nat
  /-- TBU_FREE at the arrival stamp. -/
  arrFree  : Nat
  lan      : Nat
  port     : Nat
  injected : Bool
  /-- It waits at the head of its FIFO and was counted in SLOT_WAIT (R195). -/
  waited   : Bool
  deriving DecidableEq, Repr

/-- What an endpoint has in a tick (R192, R212). -/
structure EpVal where
  vals    : List Dword
  quality : Byte
  flags   : Byte
  arrTs   : Nat
  arrEpoch : Nat
  arrFree : Nat
  snap    : Int
  dup     : Nat
  deriving DecidableEq, Repr

/-- Open, SPECULATIVE or FINAL (R194, R202). -/
inductive TickSt where
  | opn
  | spec
  | final
  deriving DecidableEq, Repr

/-- Quality fields of R106: FRACSEC code, STAT [13], STAT [8:6], STAT [5:4], SmpSynch, accuracy. -/
structure TimeQ where
  fracsec : Nat
  stat13  : Nat
  stat86  : Nat
  stat54  : Nat
  synch   : Nat
  acc     : Nat
  deriving DecidableEq, Repr

/-- A tick of the window (R193 to R216). -/
structure Tick where
  g         : Nat
  seq       : Nat
  st        : TickSt
  /-- Values placed, by endpoint index. -/
  eps       : List (Nat × EpVal)
  /-- The committed view (R201). -/
  view      : List (Nat × EpVal)
  commitTs  : Nat
  epoch     : Nat
  cause     : Nat
  suspect   : Bool
  holdover  : Bool
  incomplete : Bool
  /-- FINAL already at commit (R204). -/
  finalAtCommit : Bool
  amends    : Nat
  revision  : Nat
  resolveDropped : Bool
  /-- A result of the tick counted in REMOVE_LIMIT, in UNOBS_TICKS (R261, R264). -/
  limitSeen : Bool
  unobSeen  : Bool
  /-- Its topology, factor and hold state (R254). -/
  bind      : Bind
  /-- Zones that were out at its commit (R329), the active's in a pair (R495). -/
  outZones  : List Nat
  /-- What a re-solve read at its dispatch: values, and the number of amendments placed before (R208, R270). -/
  rsView    : List (Nat × EpVal)
  rsCover   : Nat
  /-- Its COMMIT phase has ended (R195). -/
  commitDone : Bool
  /-- Time quality at its commit (R106), and whether the selected domain was not LOCKED. -/
  tq        : TimeQ
  unlocked  : Bool
  /-- AMENDMENT and FINALIZED records as the pair digest takes them (R502). -/
  digF      : List (Nat × List Unit512)
  deriving DecidableEq, Repr

/-- How a packet of the journal was first judged. -/
inductive JKind where
  | rejected
  | placed
  | amended
  | duplicate
  deriving DecidableEq, Repr

/-- One packet of the journal, with TIME_SUSPECT at its placement (R443). -/
structure JPkt where
  pkt     : Pkt
  kind    : JKind
  suspect : Bool
  deriving DecidableEq, Repr

/-- What the journal holds: a packet, or a GOOSE write of a status point with its position and event time (R443). -/
inductive JItem where
  | pkt (j : JPkt)
  | status (point pos sec ns : Nat)
  deriving DecidableEq, Repr

/-- A group of SKIPPED ticks, first and last, with what its headers take from the step instant (R59). -/
structure SkipGroup where
  a       : Nat
  b       : Nat
  ts      : Nat
  epoch   : Nat
  suspect : Bool
  /-- The step instant on TBU_FREE. -/
  at_     : Nat
  deriving DecidableEq, Repr

/-- The Churn. -/
structure Aln where
  snapTol   : Word
  skewTol   : Word
  event     : Word
  eventEn   : Word
  cnt       : List Word
  waitMin   : Nat
  waitMax   : Nat
  horizon   : Nat
  resolve   : Bool
  commitLat : Nat
  quorum    : List Nat
  weightSum : List Nat
  lastWeight : List Nat
  sysAbsent : List Nat
  outRing   : List Nat
  /-- Ticks commit and values are placed (RUN). -/
  placing   : Bool
  /-- The front Φ (R193). -/
  front     : Nat
  /-- Grid index of the oldest tick not committed; lower indices that were never committed stay closed (R190). -/
  next      : Nat
  /-- Groups of SKIPPED ticks that wait for the ticks before them (R59). -/
  skips     : List SkipGroup
  /-- Ticks that hold storage, oldest first. -/
  ticks     : List Tick
  /-- TIME_SUSPECT and INCOMPLETE of ticks whose storage is gone while a deferred OSM update of theirs waits. -/
  past      : List (Nat × Bool × Bool)
  /-- FIFO last served (R186). -/
  rr        : Nat
  /-- Journal: packets placed since each of the last commits, newest interval first (R443). -/
  journal   : List (List JItem)
  overflow  : Bool
  /-- The checkpoint of the latest commit is complete (R442, R454). -/
  ckptDone  : Bool
  ckptLate  : Bool
  /-- The window as it stood at the latest commit (R442, R444). -/
  ckpt      : List Tick
  /-- Instant on TBU_FREE since which every quorum of the oldest uncommitted tick is met (R199, R200). -/
  quorumAt  : Option Nat
  /-- Steps of disciplined time since the latest commit: instant on TBU_FREE, amount in 2^-16 ns (R200). -/
  steps     : List (Nat × Int)
  /-- Packets of a replay still to place, with its start on TBU_FREE (R444, R445). -/
  replay    : Option (List JPkt × Nat)
  deriving DecidableEq, Repr

def Aln.reset : Aln :=
  { snapTol := 0x7D0#32, skewTol := 0xC350#32, event := 0#32, eventEn := 0#32, cnt := List.replicate 16 0#32, waitMin := 0,
    waitMax := 0, horizon := 0, resolve := false, commitLat := 0, quorum := List.replicate 16 0,
    weightSum := List.replicate 16 0, lastWeight := List.replicate 16 0, sysAbsent := List.replicate 16 0,
    outRing := List.replicate 16 0, placing := false, front := 0, next := 0, skips := [], ticks := [], past := [], rr := 15, journal := [],
    overflow := false, ckptDone := false, ckptLate := false, ckpt := [], quorumAt := none, steps := [],
    replay := none }

end Sys2Proof.Machine
end

