-- ==== Sys2Proof/Syntax/Tasks.lean ====
section
/-! DEFINITION. The Helm's task table as the TICK section of an image gives it (R61, R62). -/

namespace Sys2Proof

/-- The work a task does: the engine work the chapters name (R44, R62). -/
inductive Work where
  | dfc (group : Nat)
  | sep
  | lseSolve
  | lseAnalyze
  | osm (set : Nat)
  | emitRings
  | emitPort (port : Nat)
  | resolveA
  | resolveB
  | geAgg
  | osmDeferred (set : Nat)
  | osmLocation
  | house
  /-- Frames of a port that shedding level 4 moved to SLACK (R53, R62). -/
  | shedPort (port : Nat)
  deriving DecidableEq, Repr

/-- The priority of a work class, which the image may not move (R62). -/
def Work.prio : Work → Nat
  | .dfc _ => 1
  | .sep => 2
  | .lseSolve => 2
  | .lseAnalyze => 3
  | .osm _ => 3
  | .emitRings => 4
  | .emitPort _ => 4
  | .resolveA => 5
  | .resolveB => 5
  | .geAgg => 6
  | .osmDeferred _ => 6
  | .osmLocation => 3
  | .house => 7
  | .shedPort _ => 6

/-- The phase of a work class (R44). -/
def Work.phase : Work → Nat
  | .dfc _ => 1
  | .sep => 2
  | .lseSolve => 2
  | .lseAnalyze => 3
  | .osm _ => 3
  | .osmLocation => 3
  | .emitRings => 4
  | .emitPort _ => 4
  | _ => 5

/-- The domain of the engine that does some work (R427): DFC, LSE, OSM, SEP with grid-edge aggregation. -/
def Work.domain : Work → Option Nat
  | .dfc _ => some 6
  | .lseSolve => some 7
  | .lseAnalyze => some 7
  | .resolveA => some 7
  | .resolveB => some 7
  | .osm _ => some 8
  | .osmDeferred _ => some 8
  | .osmLocation => some 8
  | .sep => some 9
  | .geAgg => some 9
  | _ => none

/-- One task of the table (TKX_TASK_CFG, TKX_TASK_COST). -/
structure TaskCfg where
  num   : Nat
  prio  : Nat
  phase : Nat
  flow  : Option Nat
  unit  : Nat
  /-- Declared cost in microseconds. -/
  cost  : Nat
  work  : Work
  deriving DecidableEq, Repr

/-- The budgets of the TICK section in microseconds (R45). -/
structure Budgets where
  commit  : Nat
  solve   : Nat
  analyze : Nat
  emit    : Nat
  sep     : Nat
  deriving DecidableEq, Repr

end Sys2Proof
end

