-- ==== Sys2Proof/Syntax/Image.lean ====
section
/-! DEFINITION. A configuration image as CONFIG_LOAD reads it (R381 to R384). Entries whose layout the spec gives stand as raw bits;
what a section holds beside them stands as named fields, since the spec gives sections no byte layout. -/

namespace Sys2Proof

/-- A section table entry (R382): type, offset, length, and whether its CRC-32 matches its bytes. -/
structure SecEntry where
  typ    : Nat
  offset : Nat
  length : Nat
  crcOk  : Bool
  deriving DecidableEq, Repr

/-- HIERARCHY: rate F, systems with nominal frequency in mHz, zones with their systems, parentless or doubly parented elements
as a count of list entries (R18 to R21). -/
structure HierSec where
  rate    : Nat
  systems : List (Nat × Nat)
  zones   : List (Nat × Nat)
  deriving DecidableEq, Repr

/-- TICK: budgets and tasks (R45, R61). -/
structure TickSec where
  budgets : Budgets
  tasks   : List TaskCfg
  deriving DecidableEq, Repr

/-- FAST_EP: static entries by entry number, channel descriptors by index, whether every key has a bucket slot (R169 to R172). -/
structure FastSec where
  entries : List (Nat × BitVec 512)
  chans   : List (Nat × Dword)
  placed  : Bool
  deriving DecidableEq, Repr

/-- ALIGN (R196, R198, R202, R214). -/
structure AlignSec where
  waitMin : Option Nat
  waitMax : Option Nat
  quorum  : List Nat
  horizon : Nat
  resolve : Bool
  outRing : List Nat
  deriving DecidableEq, Repr

/-- DFC: chains, coefficients h[0] to h[M] of CUSTOM chains, pool in MiB, rings (R221, R234, R244). -/
structure DfcSec where
  chains  : List (Nat × BitVec 512)
  coefs   : List (Nat × List Int)
  pool    : Nat
  outRing : Nat
  thrRing : Nat
  deriving DecidableEq, Repr

/-- OSM: sets, input table, located branches, pool in MiB, ring (R279, R280, R296, R308). -/
structure OsmSec where
  sets    : List (Nat × BitVec 1024)
  inputs  : List Nat
  located : List (BitVec 128)
  pool    : Nat
  outRing : Nat
  deriving DecidableEq, Repr

/-- SEP: INVERT of status points, zone references by zone, rings (R312, R317, R349). -/
structure SepSec where
  points  : List (Nat × Bool)
  refs    : List (Nat × BitVec 128)
  outRing : Nat
  geRing  : Nat
  deriving DecidableEq, Repr

/-- A frame group (R344): its rules in order, names, destination, ports, AUTH (0 none, 1 HMAC-SHA-256, 2 AES-128-GMAC) and key slot; `len` is the
length of its SPDU up to the signature. -/
structure GroupSec where
  rules   : List Nat
  ports   : Nat
  gocbRef : List Byte
  datSet  : List Byte
  goId    : List Byte
  confRev : Nat
  /-- Destination IP address, an IPv4 one as IPv4-mapped, and the next-hop MAC address. -/
  dstIp   : Nat
  hopMac  : Nat
  len     : Nat
  auth    : Nat
  slot    : Nat
  deriving DecidableEq, Repr

/-- ALA: limits, rules, HOLD_RULE of each ball, frame groups, ring (R332 to R344). -/
structure AlaSec where
  limits  : List (Nat × BitVec 128)
  rules   : List (Nat × BitVec 256)
  holds   : List Nat
  groups  : List GroupSec
  outRing : Nat
  deriving DecidableEq, Repr

/-- How an output frame carries a channel: phasor or real as binary32 or as int16 over a factor or of a frequency deviation, or a digital word. -/
inductive ChanFmt where
  | phasor
  | phasorInt (scale : Word)
  | real
  | realInt (scale : Word)
  /-- int16 deviation from a nominal frequency in mHz. -/
  | freqInt (nominal : Nat)
  | digital
  deriving DecidableEq, Repr

/-- A PMU block of an output frame: an endpoint ID and its channels. -/
structure OutBlock where
  ep    : Nat
  chans : List (Nat × ChanFmt)
  deriving DecidableEq, Repr

/-- An output stream: a C37.118.2 data stream with its header from destination address to UDP checksum (lengths and checksums 0), or a
sampled-value stream with such a header, its svID and confRev, the length of its SPDU, and the endpoint ID and channel of each member. -/
inductive OutStream where
  | c37 (ports : Nat) (head : List Byte) (idcode timeBase version : Nat) (blocks : List OutBlock)
  | sv (ports : Nat) (head svId : List Byte) (confRev len : Nat) (chans : List (Nat × Nat))
  deriving DecidableEq, Repr

/-- OUTPUT: streams, and interface addresses of each port (R151, R211). -/
structure OutSec where
  streams : List OutStream
  ifaces  : List (List Nat)
  deriving DecidableEq, Repr

/-- PAIR: interface addresses by ROLE (R489). -/
structure PairSec where
  primary   : List (List Nat)
  secondary : List (List Nat)
  deriving DecidableEq, Repr

/-- A whole image. `bodyHash` is SHA-256 of every byte before the signature, `digest` the low 64 bits of SHA-256 of the whole. -/
structure Image where
  magic    : List Byte
  format   : Nat
  length   : Nat
  seq      : Word
  signer   : Word
  target   : Nat
  table    : List SecEntry
  bodyHash : Nat
  sigR     : Nat
  sigS     : Nat
  digest   : Dword
  hash     : BitVec 256
  hier     : HierSec
  tick     : TickSec
  fast     : FastSec
  slow     : List (Nat × BitVec 512)
  align    : AlignSec
  dfc      : Option DfcSec
  lse      : Option LseImage
  osm      : Option OsmSec
  sep      : Option SepSec
  ala      : Option AlaSec
  output   : Option OutSec
  pair     : Option PairSec
  deriving DecidableEq, Repr

end Sys2Proof
end

