-- ==== Sys2Proof/Machine/StateParts/Ala.lean ====
section
/-! DEFINITION. State of the Alarm Arbiter, the Bell (R331 to R350). -/

namespace Sys2Proof.Machine

/-- Condition values as last decided (R331): threshold conditions that are 1, OSM, SEPARATION, DIST_OUTAGE, the fixed ones in the bits of
ALA_COND_FIXED, and limits in state 1. -/
structure Conds where
  dfc   : List Nat
  osm   : Nat
  sep   : Nat
  out   : Nat
  fixed : Nat
  lims  : List Nat
  deriving DecidableEq, Repr

def Conds.reset : Conds := { dfc := [], osm := 0, sep := 0, out := 0, fixed := 0, lims := [] }

/-- An alarm instance (R335, R336). -/
structure Inst where
  id       : Nat
  rule     : Nat
  g        : Nat
  seq      : Nat
  dec2     : Bool
  ops      : Nat
  prior    : Nat
  conf     : Bool
  released : Bool
  info     : Nat
  /-- UtcTime of the origin's Tm (R345). -/
  utc      : Nat
  deriving DecidableEq, Repr

/-- The latest D2 taken (R337): tick, marks of the tick, conditions before and after. -/
structure D2Rec where
  g      : Nat
  seq    : Nat
  before : Conds
  after  : Conds
  deriving DecidableEq, Repr

/-- A frame group (R344 to R346). -/
structure Group where
  /-- Its settings in the image. -/
  sec    : GroupSec
  spdu   : Nat
  stNum  : Nat
  sqNum  : Nat
  /-- The dataset as last sent: BOOLEAN, validity, UtcTime of each rule. -/
  data   : List (Bool × Nat × Nat)
  /-- GOOSE t. -/
  t      : Nat
  /-- Interval to the next transmission in ms, and its instant on TBU_FREE. -/
  every  : Nat
  nextAt : Option Nat
  deriving DecidableEq, Repr

/-- An ALM ball (R340 to R343). -/
structure Pin where
  cfg      : Word
  asserted : Bool
  /-- Instant of its last assertion on TBU_FREE. -/
  at_      : Nat
  latched  : Bool
  /-- Level last read back. -/
  readback : Bool
  /-- The level driven, and the instant of its last change on TBU_FREE (R549). -/
  driven   : Bool
  changed  : Option Nat
  deriving DecidableEq, Repr

def Pin.reset : Pin := { cfg := 0x31#32, asserted := false, at_ := 0, latched := false, readback := false, driven := false, changed := none }

/-- The Bell. -/
structure Ala where
  event   : Word
  eventEn : Word
  cnt     : List Word
  retx    : Word
  outRing : Nat
  ruleSel : Word
  limSel  : Word
  /-- Rules and limits by number, as the image gives them. -/
  rules   : List (Nat × BitVec 256)
  limits  : List (Nat × BitVec 128)
  conds   : Conds
  /-- INFO of each threshold condition's chain as of the latest D1, by chain (R335). -/
  info    : List (Nat × Nat)
  /-- Rules whose value is 1. -/
  values  : List Nat
  active  : List Inst
  ended   : List Inst
  nextId  : Nat
  /-- Tick and UtcTime of the latest decision, and the tick's marks once its storage is released. -/
  lastG   : Nat
  lastSeq : Nat
  lastUtc : Nat
  lastMarks : Nat
  lastD2  : Option D2Rec
  groups  : List Group
  pins    : List Pin
  deriving DecidableEq, Repr

def Ala.reset : Ala :=
  { event := 0#32, eventEn := 0#32, cnt := List.replicate 16 0#32, retx := 0x3E8#32, outRing := 0, ruleSel := 0#32,
    limSel := 0#32, rules := [], limits := [],
    conds := Conds.reset, info := [], values := [], active := [], ended := [], nextId := 1, lastG := 0, lastSeq := 0, lastUtc := 0, lastMarks := 0,
    lastD2 := none, groups := [], pins := List.replicate 8 Pin.reset }

end Sys2Proof.Machine
end

