-- ==== Sys2Proof/Machine/StateParts/Dfc.lean ====
section
/-! DEFINITION. State of the Separator (R221 to R246). -/

namespace Sys2Proof.Machine

/-- One input sample of a chain (R224, R225). -/
structure Smp where
  x     : Int
  subst : Bool
  satIn : Bool
  /-- Quality bytes of its sources, joined. -/
  qual  : Byte
  deriving DecidableEq, Repr

/-- A pending coefficient swap (R235, R236). -/
structure Swap where
  /-- The descriptor that completes at the swap; none for a swap mirrored from the peer. -/
  ctx   : Option Ctx
  /-- A boundary at or below this grid index is too early: its task was dispatched before the load. -/
  after : Int
  late  : Bool
  /-- Instant on TBU_FREE at which it was accepted (R237). -/
  at_   : Nat
  deriving DecidableEq, Repr

/-- A comparator (R239). -/
structure Comp where
  st     : Bool
  setN   : Nat
  relN   : Nat
  deriving DecidableEq, Repr

def Comp.reset : Comp := { st := false, setN := 0, relN := 0 }

/-- A VALID chain. -/
structure Chain where
  entry   : Unit512
  bankA   : List Int
  bankB   : List Int
  nA      : Nat
  nB      : Nat
  actB    : Bool
  swap    : Option Swap
  /-- Delay line, newest first, at most 255 samples. -/
  line    : List Smp
  lastTrue : Int
  warm    : Nat
  upper   : Comp
  lower   : Comp
  lastG   : Int
  lastY   : Int
  flags   : Nat
  deriving DecidableEq, Repr

/-- One output sample of a tick (R231). -/
structure DfcOut where
  chain   : Nat
  value   : Word
  y       : Int
  m       : Nat
  decim   : Nat
  substN  : Nat
  flags   : Nat
  outEn   : Bool
  deriving DecidableEq, Repr

/-- One SET or RELEASE edge (R241). -/
structure ThrEdge where
  chain   : Nat
  lower   : Bool
  set     : Bool
  level   : Int
  out     : DfcOut
  deriving DecidableEq, Repr

/-- The Separator. -/
structure Dfc where
  event   : Word
  eventEn : Word
  cnt     : List Word
  outRing : Nat
  thrRing : Nat
  bankCap : Nat
  sel     : Word
  coefIdx : Word
  chains  : List (Nat × Chain)
  /-- Entries of the chains that are not VALID. -/
  unused  : List (Nat × BitVec 512)
  /-- Output samples and edges of the tick in progress (R233). -/
  outs    : List DfcOut
  edges   : List ThrEdge
  deriving DecidableEq, Repr

def Dfc.reset : Dfc :=
  { event := 0#32, eventEn := 0#32, cnt := List.replicate 8 0#32, outRing := 0, thrRing := 0, bankCap := 0xE00,
    sel := 0#32, coefIdx := 0#32, chains := [], unused := [], outs := [], edges := [] }

end Sys2Proof.Machine
end

