-- ==== Sys2Proof/Machine/StateParts/Grid.lean ====
section
/-! DEFINITION. State of the Separation Detector (R312 to R325) and of grid-edge aggregation (R326 to R330). -/

namespace Sys2Proof.Machine

/-- A VALID status point (R312). -/
structure Point where
  sec    : Nat
  ns     : Nat
  pos    : Nat
  last   : Nat
  stale  : Bool
  invert : Bool
  /-- A STATUS channel of an endpoint in use names it. -/
  valid  : Bool
  deriving DecidableEq, Repr

/-- A processed voltage of a zone's reference (R318): grid index, reference (false the primary), slot. -/
structure VHist where
  g   : Nat
  alt : Bool
  v   : Dword
  deriving DecidableEq, Repr

/-- A zone with its reference entry and runtime values (R317, R318, R349). -/
structure Zone where
  entry   : BitVec 128
  hist    : List VHist
  /-- Values of the latest tick, binary32; `none` where not valid. -/
  f       : Option Word
  d       : Option Word
  alt     : Bool
  topo    : Nat
  div     : Nat
  deriving DecidableEq, Repr

/-- One island of a record: source, number, merged, zones, measured, FREQ, DRIFT (R324). -/
structure Island where
  source   : Nat
  num      : Nat
  merged   : Bool
  zones    : List Nat
  measured : Nat
  freq     : Word
  drift    : Word
  deriving DecidableEq, Repr

/-- What the last SEP_DECLARE of a system said (R322) and its persistence state (R320). -/
structure SepSys where
  separation : Bool
  outage     : Bool
  topo       : Bool
  div        : Bool
  members    : List (Nat × List Nat)
  /-- Persistence counter and the declared state. -/
  count      : Nat
  declared   : Bool
  /-- Processed ticks since the last record of the system. -/
  sinceRec   : Nat
  deriving DecidableEq, Repr

def SepSys.reset : SepSys :=
  { separation := false, outage := false, topo := false, div := false, members := [], count := 0, declared := false,
    sinceRec := 0 }

/-- The Separation Detector. -/
structure Sep where
  dfTh    : Word
  drTh    : Word
  divCfg  : Word
  repTicks : Word
  outRing : Nat
  topoEn  : Bool
  event   : Word
  eventEn : Word
  cnt     : List Word
  zoneSel : Word
  pointSel : Word
  /-- VALID status points by number. -/
  points  : List (Nat × Point)
  /-- Zones with a VALID reference entry or of the image, by zone ID. -/
  zones   : List (Nat × Zone)
  systems : List SepSys
  /-- Conditions of the latest completed SEP task: SEPARATION and DIST_OUTAGE per system, and topology partitions. -/
  sepNow  : Nat
  outNow  : Nat
  topoNow : Nat
  /-- Zone-out states as sampled at the commit of the tick in progress (R329). -/
  outSample : List Nat
  /-- The state that a completed task last wrote back, as the latest checkpoint holds it (R325). -/
  ckpt    : List (Nat × Zone) × List SepSys
  deriving DecidableEq, Repr

def Sep.reset : Sep :=
  { dfTh := 0x3D4CCCCD#32, drTh := 0x3D4CCCCD#32, divCfg := 0x40202#32, repTicks := 0x3C#32, outRing := 0, topoEn := false,
    event := 0#32, eventEn := 0#32, cnt := List.replicate 8 0#32, zoneSel := 0#32, pointSel := 0#32,
    points := [], zones := [],
    systems := List.replicate 16 SepSys.reset, sepNow := 0, outNow := 0, topoNow := 0, outSample := [],
    ckpt := ([], List.replicate 16 SepSys.reset) }

/-- One report of a bucket (R326, R327). Kind: 1 VOLTAGE, 2 LAST_GASP, 3 RESTORE. -/
structure GeRep where
  meter : Nat
  kind  : Nat
  va    : Word
  vb    : Word
  vc    : Word
  vmin  : Word
  vmax  : Word
  deriving DecidableEq, Repr

/-- The bucket of a TAI second. -/
structure Bucket where
  sec  : Nat
  reps : List GeRep
  deriving DecidableEq, Repr

/-- Grid-edge aggregation. -/
structure Ge where
  cfg     : Word
  outMin  : Word
  outFrac : Word
  outRing : Nat
  lastSec : Nat
  cnt     : List Word
  /-- Zones that are out (R329). -/
  out     : List Nat
  buckets : List Bucket
  /-- Seconds at or below this one are closed or never aggregated. -/
  closed  : Nat
  /-- Closed seconds that wait for their aggregation, with their reports (R326). -/
  ready   : List Bucket
  /-- Disciplined ns at which the latest START or MAINT_EXIT completed (R328). -/
  since   : Int
  running : Bool
  deriving DecidableEq, Repr

def Ge.reset : Ge :=
  { cfg := 2#32, outMin := 0x32#32, outFrac := 0x3E4CCCCD#32, outRing := 0, lastSec := 0, cnt := List.replicate 8 0#32,
    out := [], buckets := [], closed := 0, ready := [], since := 0, running := false }

end Sys2Proof.Machine
end

