-- ==== Sys2Proof/Machine/StateParts/Kst.lean ====
section
/-! DEFINITION. State of the Key Store (R455 to R486). -/

namespace Sys2Proof.Machine

/-- STATE of a slot (R463). -/
inductive SlotSt where
  | empty
  | valid
  | orphaned
  | revoked
  deriving DecidableEq, Repr

def SlotSt.code : SlotSt → Nat
  | .empty => 0
  | .valid => 1
  | .orphaned => 2
  | .revoked => 3

/-- A key slot: the descriptor of R463, the value in use, the parent's generation (R465) and the higher generation of its two buffers (R471). -/
structure Slot where
  keyId   : Word
  gen     : Nat
  hi      : Nat
  parent  : Nat
  parRoot : Bool
  parGen  : Nat
  typ     : Nat
  usage   : Nat
  st      : SlotSt
  cause   : Nat
  level   : Nat
  inside  : Bool
  nonExp  : Bool
  pair    : Bool
  torn    : Bool
  root    : Nat
  /-- Key value; empty where zeroised. -/
  val     : List Byte
  deriving DecidableEq, Repr

def Slot.reset : Slot :=
  { keyId := 0#32, gen := 0, hi := 0, parent := 0, parRoot := false, parGen := 0, typ := 0, usage := 0, st := .empty,
    cause := 0, level := 0, inside := false, nonExp := false, pair := false, torn := false, root := 0, val := [] }

/-- A prepared update of a slot, as a mirrored command waits with it (R482, R499). -/
structure KeyUpd where
  slot : Nat
  new  : Slot
  /-- Public key to write to the host, with its address (R466, R468). -/
  out  : Option (Nat × List Byte)
  /-- It is a KEY_ROLL: children follow, replay windows restart (R468). -/
  roll : Bool
  deriving DecidableEq, Repr

/-- A key command's effect: an update, or a revocation (R499). -/
inductive KeyJob where
  | upd (u : KeyUpd)
  | revoke (slot : Nat)
  deriving DecidableEq, Repr

/-- The Key Store. -/
structure Kst where
  event   : Word
  eventEn : Word
  cnt     : List Word
  slotSel : Word
  slots   : List Slot
  /-- Master root in fuses (R456), destroyed in DECOMMISSIONED (R462), readable now (R473). -/
  root    : Option (BitVec 256)
  destroyed : Bool
  rootOk  : Bool
  /-- Life-cycle records: state code and owner key, oldest first; the first is BLANK (R459). -/
  lc      : List (Nat × List Byte)
  cert    : List Byte
  /-- A transition whose zeroisation the last power loss cut short (R461). -/
  lcTorn  : Bool
  nonce   : BitVec 256
  nonceLive : Bool
  fwMeas  : BitVec 256
  fwSvn   : Nat
  minSvn  : Nat
  /-- Firmware banks A and B: measurement and SVN of what they hold (R474, R522). -/
  banks   : List (Option (BitVec 256 × Nat))
  /-- The bank running, and the bank written last. -/
  bank    : Nat
  newBank : Nat
  attestSeq : Nat
  /-- AON domain (R479 to R481). -/
  share   : Option (BitVec 256)
  tamperArmed : Bool
  tamperActive : Bool
  tamperLatched : Bool
  tamperCnt : Nat
  tamperTime : Nat
  /-- A tamper event met without VIN, whose revocations wait for the next READY. -/
  tamperWait : Bool
  retLost : Bool
  /-- A loss of retention that no start-up has dealt with yet (R480). -/
  retPend : Bool
  rtc     : Nat
  /-- AON time at which `rtc` was last brought up to date, 1/256 ns. -/
  rtcAt   : Nat
  /-- Instant on TBU_FREE of the last write of the counter from disciplined time (R481). -/
  rtcWr   : Option Nat
  deriving DecidableEq, Repr

def Kst.reset : Kst :=
  { event := 0#32, eventEn := 0#32, cnt := List.replicate 8 0#32, slotSel := 0#32,
    slots := List.replicate 64 Slot.reset, root := none, destroyed := false, rootOk := false, lc := [(0, [])], cert := [],
    lcTorn := false, nonce := 0#256, nonceLive := false, fwMeas := 0#256, fwSvn := 0, minSvn := 0, banks := [some (0#256, 0), none], bank := 0, newBank := 0,
    attestSeq := 0, share := none, tamperArmed := false, tamperActive := false, tamperLatched := false, tamperCnt := 0,
    tamperTime := 0, tamperWait := false, retLost := false, retPend := false, rtc := 0, rtcAt := 0, rtcWr := none }

end Sys2Proof.Machine
end

