-- ==== Sys2Proof/Syntax/Frames.lean ====
section
/-! DEFINITION. Operands of the Ethernet commands: what reaches a port, link parameters, Pdelay messages, decoded 61850-90-5 payloads. -/

namespace Sys2Proof

/-- What a port's receiver meets (R116, R129, R130, R140). -/
inductive RxIn where
  /-- A frame from destination address to FCS. -/
  | frame (bytes : List Byte)
  /-- The first mPacket of a preemptable frame, to the end of its mCRC or FCS: frame count, and whether more follow (R130). -/
  | first (cnt : Nat) (bytes : List Byte) (more : Bool)
  /-- A continuation: frame count, fragment count, octets to the end of its mCRC or FCS, whether more follow. -/
  | cont (cnt frag : Nat) (bytes : List Byte) (more : Bool)
  /-- A verify or a response mPacket (R129). -/
  | verify
  | response
  /-- The link partner's transmit side enters or leaves low-power idle (R140). -/
  | lpi (on : Bool)
  deriving DecidableEq, Repr

/-- The link partner's abilities: FEC bits F0 to F3 of its base page, EEE (R114, R140). -/
structure LinkIn where
  f0  : Bool
  f1  : Bool
  f2  : Bool
  f3  : Bool
  eee : Bool
  deriving DecidableEq, Repr

/-- A Pdelay message on a port (IEEE 1588). Corrections are in 2^-16 ns. -/
inductive PdelayIn where
  | req (source : PortId) (seq : Nat) (domain : Nat)
  | resp (seq : Nat) (t2 : PtpTime) (corr : Int) (twoStep : Bool)
  | respFollowUp (seq : Nat) (t3 : PtpTime) (corr : Int)
  deriving DecidableEq, Repr

/-- A Sync as a port received it (R79): port, domainNumber, source, sequenceId, two-step flag, originTimestamp, correction, logMessageInterval. -/
structure SyncIn where
  port    : Nat
  num     : Nat
  source  : PortId
  seq     : Nat
  twoStep : Bool
  t1      : PtpTime
  corr    : Int
  logInt  : Int
  deriving DecidableEq, Repr

/-- A Follow_Up (R79). -/
structure FollowUpIn where
  port   : Nat
  num    : Nat
  source : PortId
  seq    : Nat
  t1     : PtpTime
  corr   : Int
  deriving DecidableEq, Repr

/-- A UtcTime of IEC 61850: seconds, 24-bit fraction, ClockFailure, ClockNotSynchronized. -/
structure UtcTime where
  sec     : Nat
  frac24  : Nat
  failure : Bool
  unsync  : Bool
  deriving DecidableEq, Repr

/-- A sampled-value ASDU (R159); `hash` is the 64-bit hash of its svID. -/
structure SvAsdu where
  hash     : Nat
  refrTm   : Option UtcTime
  smpSynch : Nat
  confRev  : Nat
  data     : List Byte
  deriving DecidableEq, Repr

/-- A GOOSE PDU (R160); `hash` is the 64-bit hash of its gocbRef. -/
structure GoosePdu where
  hash  : Nat
  ttlMs : Nat
  t     : UtcTime
  stNum : Nat
  data  : List Byte
  deriving DecidableEq, Repr

/-- What an SPDU carries. -/
inductive SpduBody where
  | sv (asdus : List SvAsdu)
  | goose (pdus : List GoosePdu)
  deriving DecidableEq, Repr

/-- A decoded session protocol data unit of IEC 61850-90-5 (R158): `sigAlg` 0 none, 1 to 5 as AUTH of R170, others 6;
`auth` and `iv` are the authenticated data and IV as the standard defines them. -/
structure Spdu where
  session : Nat
  enc     : Bool
  sigAlg  : Nat
  keyId   : Word
  num     : Nat
  auth    : List Byte
  iv      : List Byte
  tag     : List Byte
  body    : SpduBody
  deriving DecidableEq, Repr

/-- A sampled-value SPDU as it is sent (R106, R213): svID, confRev, refrTm as a UtcTime, smpSynch, validity and value of each member. -/
structure SvOut where
  svId    : List Byte
  confRev : Nat
  g       : Nat
  utc     : Nat
  smpSynch : Nat
  quality : List Nat
  vals    : List Dword
  deriving DecidableEq, Repr

/-- A GOOSE SPDU as it is sent (R344 to R346): the group's settings, SPDU number, AUTH and Key ID, and per listed rule BOOLEAN, validity, UtcTime. -/
structure GooseOut where
  group   : Nat
  gocbRef : List Byte
  datSet  : List Byte
  goId    : List Byte
  confRev : Nat
  auth    : Nat
  keyId   : Word
  spdu    : Nat
  stNum   : Nat
  sqNum   : Nat
  ttl     : Nat
  t       : Nat
  data    : List (Bool × Nat × Nat)
  deriving DecidableEq, Repr

/-- A session protocol data unit that the module sends. -/
inductive SpduOut where
  | sv (o : SvOut)
  | goose (o : GooseOut)
  deriving DecidableEq, Repr

/-- Session identifier: 0xA1 GOOSE, 0xA2 sampled values (R158, R344). -/
def SpduOut.session : SpduOut → Nat
  | .sv _ => 0xA2
  | .goose _ => 0xA1

end Sys2Proof
end

