-- ==== Sys2Proof/Machine/StateParts/Net.lean ====
section
/-! DEFINITION. State of the Ethernet ports (R114 to R145) and what leaves a port. -/

namespace Sys2Proof.Machine

/-- A frame's octets but for RCT and FCS. Of a 61850-90-5 frame also what its SPDU says. -/
inductive TxBody where
  | raw (bytes : List Byte)
  | spdu (o : SpduOut) (bytes : List Byte)
  deriving DecidableEq, Repr

def TxBody.bytes : TxBody → List Byte
  | .raw l => l
  | .spdu _ l => l

/-- What the egress stamp of a frame is used for (R79, R109). -/
inductive TxMark where
  | none
  /-- A forwarded Sync: ingress port, its free at ingress. -/
  | sync (port free : Nat)
  | delayReq (free : Nat)
  | followUp (port : Nat)
  | pdelayReq (seq : Nat)
  /-- A Pdelay_Resp, after which its Follow_Up carries the egress stamp. -/
  | pdelayResp (source : PortId) (seq domain : Nat)
  deriving DecidableEq, Repr

/-- A frame that waits on a port. -/
structure TxFrame where
  body  : TxBody
  /-- Bytes on the line as R117 counts them. -/
  len   : Nat
  rct   : Option Nat
  mark  : TxMark
  /-- Grid index of a non-alarm data frame, and whether its tick is held (R126). -/
  tick  : Option Nat
  held  : Bool
  deriving DecidableEq, Repr

/-- A frame on the line. -/
structure TxLine where
  frame   : TxFrame
  express : Bool
  /-- Start of the present fragment on TBU_FREE and bytes sent in earlier fragments. -/
  at_     : Nat
  sent    : Nat
  /-- It is a later fragment of a frame, or was interrupted. -/
  split   : Bool
  deriving DecidableEq, Repr

/-- VERIFY_STATE (R145). -/
inductive VerifySt where
  | disabled
  | verifying
  | succeeded
  | failed
  deriving DecidableEq, Repr

def VerifySt.code : VerifySt → Nat
  | .disabled => 0
  | .verifying => 1
  | .succeeded => 2
  | .failed => 3

/-- The receive status word of R123. -/
structure RxStat where
  ts32     : Nat
  epoch    : Nat
  vid      : Nat
  pcp      : Nat
  tagged   : Bool
  port     : Nat
  lan      : Nat
  rct      : Bool
  reasm    : Bool
  udpErr   : Bool
  ipErr    : Bool
  fcsErr   : Bool
  oversize : Bool
  runt     : Bool
  length   : Nat
  deriving DecidableEq, Repr

/-- An entry of a port receive FIFO; `arr` is the arrival stamp in full, 2^-16 ns. -/
structure RxFrame where
  bytes : List Byte
  st    : RxStat
  arr   : Int
  deriving DecidableEq, Repr

/-- A Clause 73 base page: technology by the code of its mode, FEC bits F0 to F3 (R114). -/
structure BasePage where
  tech : Nat
  f0   : Bool
  f1   : Bool
  f2   : Bool
  f3   : Bool
  deriving DecidableEq, Repr

/-- A preemptable frame in reassembly (R130): its frame count, the fragment count that must follow, its octets so far. -/
structure Assy where
  cnt   : Nat
  frag  : Nat
  bytes : List Byte
  deriving DecidableEq, Repr

/-- One port. -/
structure Port where
  cfg      : Word
  maxFrame : Word
  mac      : Nat
  preempt  : Word
  lpi      : Word
  ds       : Word
  alarmEgress : Bool
  cnt      : List Word
  rxOct    : Nat
  txOct    : Nat
  rxHi     : Word
  txHi     : Word
  linkUp   : Bool
  anDone   : Bool
  speed    : Nat
  fecAct   : Nat
  dsActive : Bool
  eee      : Bool
  lpiRx    : Bool
  lpiTx    : Bool
  /-- No frame starts before this instant on TBU_FREE (R140). -/
  wakeAt   : Nat
  verify   : VerifySt
  attempts : Nat
  verifyAt : Nat
  /-- Pause in force: its start and its end on TBU_FREE. -/
  pause    : Option (Nat × Nat)
  /-- Part of a microsecond already paused, 2^-16 ns. -/
  pauseRem : Nat
  rx       : List RxFrame
  assy     : Option Assy
  express  : List TxFrame
  /-- The preemptable transmit FIFO, 64 entries (R23). -/
  pre      : List TxFrame
  /-- Frames that wait for its room, in order (R176). -/
  todo     : List TxFrame
  /-- Frames that shedding level 4 moved to SLACK, by tick, until their task completes (R53, R126). -/
  shed     : List (Nat × List TxFrame)
  line     : Option TxLine
  suspended : Option TxLine
  idleAt   : Nat
  dsAt     : Nat
  dsRx     : Nat
  dsTx     : Nat
  dsLow    : Nat
  /-- A shift that waits for the end of the frame in transmission (R139): true to 10GBASE-KR. -/
  dsPend   : Option Bool
  deriving DecidableEq, Repr

def Port.reset : Port :=
  { cfg := 0x00020200#32, maxFrame := 0x5F2#32, mac := 0, preempt := 0xA00#32, lpi := 0x640#32, ds := 0x3C461400#32,
    alarmEgress := false, cnt := List.replicate 32 0#32, rxOct := 0, txOct := 0, rxHi := 0#32, txHi := 0#32,
    linkUp := false, anDone := false, speed := 0, fecAct := 0, dsActive := false, eee := false, lpiRx := false,
    lpiTx := false, wakeAt := 0, verify := .disabled, attempts := 0, verifyAt := 0, pause := none, pauseRem := 0,
    rx := [], assy := none, express := [], pre := [], todo := [], shed := [], line := none, suspended := none, idleAt := 0, dsAt := 0, dsRx := 0, dsTx := 0,
    dsLow := 0, dsPend := none }

/-- The NET block. -/
structure Net where
  event    : Word
  eventEn  : Word
  prpCfg   : Word
  prpForget : Word
  prpEvict : Word
  ports    : List Port
  /-- PRP duplicate tables of the two pairs, oldest first: source MAC, sequence number, instant on TBU_FREE (R134). -/
  prp      : List (List (Nat × Nat × Nat))
  /-- Next RCT sequence number of each pair. -/
  prpSeq   : List Nat
  deriving DecidableEq, Repr

def Net.reset : Net :=
  { event := 0#32, eventEn := 0#32, prpCfg := 0#32, prpForget := 0x190#32, prpEvict := 0#32,
    ports := List.replicate 4 Port.reset, prp := [[], []], prpSeq := [0, 0] }

end Sys2Proof.Machine
end

