-- ==== Sys2Proof/Machine/StateParts/Osm.lean ====
section
/-! DEFINITION. State of the Oscillation Monitor (R279 to R311). Binary64 values are held as their bits, as numbers. -/

namespace Sys2Proof.Machine

/-- A complex binary64 value. -/
abbrev C64 := Nat × Nat

/-- A damping band of a track (R292): state, grid index of FIRST_BELOW, release counter. -/
structure BandSt where
  st    : Bool
  below : Option Nat
  rel   : Nat
  deriving DecidableEq, Repr

def BandSt.reset : BandSt := { st := false, below := none, rel := 0 }

/-- A track (R290 to R294). -/
structure Track where
  id     : Nat
  f      : Nat
  z      : Nat
  e      : Nat
  share  : Nat
  shape  : List C64
  age    : Nat
  misses : Nat
  /-- Not reported yet. -/
  new    : Bool
  /-- Matched in the latest identification. -/
  hit    : Bool
  bands  : List BandSt
  forced : Bool
  /-- Consecutive identifications that meet, and that fail, the conditions of R294. -/
  forN   : Nat
  forMiss : Nat
  deriving DecidableEq, Repr

/-- A boundary's inputs as an update reads them (R283): `none` where missing. -/
structure OsmIn where
  g    : Nat
  seq  : Nat
  vals : List (Option Nat)
  deriving DecidableEq, Repr

/-- A mode set (R279, R284 to R286). -/
structure OsmSet where
  entry   : BitVec 1024
  samples : Nat
  mean    : List Nat
  /-- R_k, by k, input, reference. -/
  cov     : List (List (List Nat))
  /-- Deviation vectors of the references, newest first. -/
  hist    : List (List Nat)
  vf      : Nat
  tracks  : List Track
  nextId  : Nat
  idSeq   : Nat
  idTick  : Nat
  order   : Nat
  lastG   : Option Nat
  /-- Updates dropped and resets since the previous identification; an identification carried over (R300, R301). -/
  dropped : Nat
  didReset : Bool
  carry   : Bool
  queue   : List OsmIn
  deriving DecidableEq, Repr

/-- One located branch in a slot (R297). -/
structure LocAcc where
  p    : C64
  q    : C64
  w    : C64
  l    : C64
  frac : Nat
  deriving DecidableEq, Repr

/-- A location slot (R295). -/
structure LocSlot where
  set     : Nat
  track   : Nat
  f       : Nat
  gL      : Nat
  /-- Latest tick processed; the one before g_L until then (R285). -/
  last    : Nat
  count   : Nat
  acc     : List LocAcc
  deriving DecidableEq, Repr

/-- What location reads of a tick (R297): per located branch V and I, `none` where the endpoint or the slots do not serve. -/
structure LocIn where
  g    : Nat
  vals : List (Option (C64 × C64))
  deriving DecidableEq, Repr

/-- The Oscillation Monitor. -/
structure Osm where
  event   : Word
  eventEn : Word
  cnt     : List Word
  outRing : Nat
  space   : Word
  setSel  : Word
  brSel   : Word
  inputs  : List Nat
  sets    : List (Nat × OsmSet)
  located : List (BitVec 128)
  slots   : List (Option LocSlot)
  /-- Values of the tick that location last processed. -/
  prev    : Option LocIn
  locQueue : List LocIn
  /-- Sets with an identification completed in SLACK since the last D2 that took OSM conditions (R293). -/
  deferMark : List Nat
  deriving DecidableEq, Repr

def Osm.reset : Osm :=
  { event := 0#32, eventEn := 0#32, cnt := List.replicate 16 0#32, outRing := 0, space := 0x20#32, setSel := 0#32, brSel := 0#32,
    inputs := [], sets := [], located := [],
    slots := [none, none, none, none], prev := none, locQueue := [], deferMark := [] }

end Sys2Proof.Machine
end

