-- ==== Sys2Proof/Syntax/Yoke.lean ====
section
/-! DEFINITION. What the Yoke carries between the modules of a pair (R487 to R507). -/

namespace Sys2Proof

/-- A COMMIT_MARK (R495), with the SWITCH mark of R507. -/
structure CommitMark where
  seq      : Nat
  g        : Nat
  cause    : Nat
  suspect  : Bool
  /-- Endpoint entries placed before the commit. -/
  eps      : List Nat
  /-- In-service state of every branch of the image. -/
  inService : List Bool
  outZones : List Nat
  switch   : Bool
  deriving DecidableEq, Repr

/-- A digest (R500, R502): of a tick, with whether its sender leaves it out of comparison; of a FINAL tick; of an identification. -/
inductive DigestMsg where
  | tick (seq value : Nat) (skip suspect : Bool)
  | final (seq value : Nat)
  | ident (set idSeq value : Nat)
  deriving DecidableEq, Repr

/-- A state message (R491, R492): the sender's pair state and role, and the settings that R41 compares: F, MODE, horizon, re-solve,
image digest. `query` asks for an answer. -/
structure PairHello where
  st      : Nat
  role    : Nat
  query   : Bool
  rate    : Nat
  mode    : Nat
  horizon : Nat
  resolve : Bool
  digest  : Dword
  /-- Time from the sender's START to now, in 2^-16 ns; `none` before a START. -/
  since   : Option Nat
  /-- The sender is in a cold join (R494). -/
  cold    : Bool
  deriving DecidableEq, Repr

/-- What verification carries (R493): the sender's challenge, its ATTEST statement with signature, its ephemeral public key. -/
structure PeerAttest where
  challenge : Option (BitVec 256)
  statement : Option (List Byte)
  eph       : Nat × Nat
  deriving DecidableEq, Repr

end Sys2Proof
end

