-- ==== Sys2Proof/Machine/StateParts/Pair.lean ====
section
/-! DEFINITION. State of the Pair Controller (R487 to R514), mirrored commands and the snapshot. -/

namespace Sys2Proof.Machine

/-- Pair states (R490). -/
inductive PairSt where
  | unpaired
  | solo
  | syncing
  | standby
  | active
  deriving DecidableEq, Repr

def PairSt.code : PairSt → Nat
  | .unpaired => 0
  | .solo => 1
  | .syncing => 2
  | .standby => 3
  | .active => 4

/-- A mirrored command (R498). -/
inductive MirrorCmd where
  | maintEnter
  | maintExit
  | unconfigure
  | configLock
  | step (mode : Nat) (amount : Int)
  /-- A coefficient load with the grid index after which it swaps. -/
  | coefLoad (chain n : Nat) (h : List Int) (after : Int)
  | sched (c : Sched)
  | key (j : KeyJob)
  deriving DecidableEq, Repr

/-- Engine state as last written back, and the Bell's (R493). -/
structure Engines where
  chains  : List (Nat × Chain)
  hold    : List C32
  holdSeq : Option Nat
  lastVar : Option Nat
  osm     : Osm
  zones   : List (Nat × Zone)
  systems : List SepSys
  ala     : Ala
  deriving DecidableEq, Repr

/-- A snapshot (R493): engine states and slots with PAIR = 1. A cold join's snapshot holds the slots only (R494). -/
structure Snapshot where
  g       : Nat
  slots   : List (Nat × Slot)
  engines : Option Engines
  deriving DecidableEq, Repr

/-- A tick digest of this module that waits for the peer's (R500). -/
structure OwnDigest where
  seq     : Nat
  value   : Nat
  skip    : Bool
  suspect : Bool
  at_     : Nat
  deriving DecidableEq, Repr

/-- A mirrored key command that waits for its acknowledgement (R499): completion, update, the old slot, instant of sending. -/
structure MirrorPend where
  ctx : Ctx
  job : KeyJob
  at_ : Nat
  late : Bool
  tick : Option Nat
  deriving DecidableEq, Repr

/-- Port frames of a tick that a standby built and holds for takeover (R505). -/
structure HeldTick where
  seq    : Nat
  frames : List (Nat × TxFrame)
  deriving DecidableEq, Repr

/-- The Pair Controller. -/
structure Pair where
  cfg      : Word
  outRing  : Word
  eventMask : Word
  event    : Word
  timeDiff : Word
  lastMark : Nat
  peerId   : List Word
  peerSeen : List Word
  digOwn   : Nat
  digPeer  : Nat
  cnt      : List Word
  st       : PairSt
  peerSt   : Nat
  lane0    : Bool
  lane1    : Bool
  heard    : Bool
  /-- Instants of the last heartbeat of each lane on TBU_FREE, consecutive misses of each lane, the next own heartbeat. -/
  hbAt     : List Nat
  missed   : List Nat
  hbNext   : Nat
  catching : Bool
  /-- ROLE in force since START. -/
  role     : Nat
  /-- Instant on TBU_FREE at which the latest START completed. -/
  startAt  : Option Nat
  /-- A START that waits for the peer's answer, and the instant of its query (R491). -/
  startPend : Option Ctx
  askAt    : Nat
  /-- ROLE of the peer as it last said, 0 if unknown. -/
  peerRole : Nat
  /-- Cold join (R494), verification done, tick of the snapshot, instant of the next try (R493). -/
  cold     : Bool
  verified : Bool
  gs       : Option Nat
  retryAt  : Option Nat
  challenge : BitVec 256
  /-- This module's ephemeral private key of the join (R493 step 2). -/
  eph      : BitVec 256
  pairKey  : BitVec 256
  /-- TICK_SEQ of the last EMIT_MARK received (R505). -/
  lastEmit : Option Nat
  /-- Last stNum reported for each group (R497). -/
  frameSt  : List Nat
  own      : List OwnDigest
  peer     : List (Nat × Nat × Bool × Bool)
  finOwn   : List (Nat × Nat)
  finPeer  : List (Nat × Nat)
  idOwn    : List (Nat × Nat × Nat)
  idPeer   : List (Nat × Nat × Nat)
  mismatch : Nat
  idMismatch : List Nat
  /-- Marks that wait to be used (R508). -/
  marks    : List CommitMark
  /-- Mirrored commands to apply after the tick they follow, in order: each with the grid index of the last mark that came before it (R498). -/
  mirrored : List (Int × MirrorCmd)
  schedMir : List Sched
  keyPend  : List MirrorPend
  frames   : List HeldTick
  /-- Ticks whose EMIT_MARK is still to go: grid index, TICK_SEQ (R505). -/
  toMark   : List (Nat × Nat)
  /-- A PAIR_SWITCHOVER that waits for the next commit, with its LATE flag. -/
  switchAt : Option (Ctx × Bool)
  deriving DecidableEq, Repr

def Pair.reset : Pair :=
  { cfg := 0x310#32, outRing := 0#32, eventMask := 0#32, event := 0#32, timeDiff := 0#32, lastMark := 0,
    peerId := List.replicate 8 0#32, peerSeen := List.replicate 8 0#32, digOwn := 0, digPeer := 0, cnt := List.replicate 16 0#32,
    st := .unpaired, peerSt := 0, lane0 := false, lane1 := false, heard := false, hbAt := [0, 0], missed := [0, 0],
    hbNext := 0, catching := false, role := 0, startAt := none, startPend := none, askAt := 0, peerRole := 0, cold := false, verified := false, gs := none,
    retryAt := none, challenge := 0#256, eph := 0#256, pairKey := 0#256, lastEmit := none, frameSt := List.replicate 8 0, own := [], peer := [],
    finOwn := [], finPeer := [], idOwn := [], idPeer := [], mismatch := 0, idMismatch := List.replicate 8 0, marks := [],
    mirrored := [], schedMir := [], keyPend := [], frames := [], toMark := [], switchAt := none }

/-- A message on the Yoke (R487 to R507). -/
inductive YokeOut where
  | heartbeat (time : Int)
  | hello (h : PairHello)
  | attest (statement : List Byte) (ephemeral : Nat × Nat)
  | challenge (c : BitVec 256)
  | snapshot (x : Snapshot)
  | commitMark (m : CommitMark)
  | emitMark (seq : Nat)
  | frameMark (group stNum : Nat)
  | inject (id : Nat) (bytes : List Byte)
  | mirror (c : MirrorCmd)
  | mirrorAck
  | digest (d : DigestMsg)
  | peerFatal
  /-- A word of mailbox channel c (R488). -/
  | mbxWord (c : Nat) (w : Word)
  deriving DecidableEq, Repr

end Sys2Proof.Machine
end

