-- ==== Sys2Proof/Syntax/Faults.lean ====
section
/-! DEFINITION. What a detector reports to the Fault Collector (R428 to R439). -/

namespace Sys2Proof

/-- The unit of data that holds the failing word, where DISCARD depends on it (R428, R429). -/
inductive FaultRegion where
  | other
  /-- The Logbook record at an index. -/
  | logbook (index : Nat)
  /-- A record of a ring's staging queue, by its place. -/
  | staging (ring pos : Nat)
  /-- A packet of an ingest FIFO, by its place. -/
  | fifo (fifo pos : Nat)
  deriving DecidableEq, Repr

/-- A detection: code, DETAIL, domain where R428 leaves it to the detector, unit (engine, port or core), the domain whose
reaction raised it or whose data the detector checks (R438), and the placed endpoints with an uncorrectable word, as
grid index and entry (R430). -/
structure FaultIn where
  code    : Nat
  detail  : Nat
  domain  : Nat
  region  : FaultRegion
  unit    : Nat
  reactionOf : Option Nat
  inputOf : Option Nat
  hits    : List (Nat × Nat)
  deriving DecidableEq, Repr

/-- A detection that concerns no word. -/
def FaultIn.plain (code domain : Nat) : FaultIn :=
  { code := code, detail := 0, domain := domain, region := .other, unit := 0, reactionOf := none, inputOf := none, hits := [] }

end Sys2Proof
end

