-- ==== Sys2Proof/Syntax.lean ====
section
/-! DEFINITION. The commands of the block: one constructor for each row of spec/opcode_table.json. `dt` is the time since the command before, in
1/256 ns (R74). A command of a ring (R374) carries its descriptor and what it finds in host memory; `none` there is a failed access (R353). -/

namespace Sys2Proof

open Sys2Proof.Machine (Snapshot MirrorCmd)

inductive Instr where
  | nop (dt : Nat) (d : Desc)
  | configLoad (dt : Nat) (d : Desc) (list : Option (List (BitVec 128))) (image : Option Image)
  | start (dt : Nat) (d : Desc)
  | configLock (dt : Nat) (d : Desc)
  | maintEnter (dt : Nat) (d : Desc)
  | maintExit (dt : Nat) (d : Desc)
  | unconfigure (dt : Nat) (d : Desc)
  | fwLoad (dt : Nat) (d : Desc) (list : Option (List (BitVec 128))) (image : Option (List Byte))
  | step (dt : Nat) (d : Desc)
  | dfcCoefLoad (dt : Nat) (d : Desc) (words : Option (List Word))
  | logClear (dt : Nat) (d : Desc)
  | logExport (dt : Nat) (d : Desc)
  /-- `cellErr` here and in KEY_ROLL: the integrity code of the slot's buffer fails as the command reads it (R471, R473). -/
  | keyGenerate (dt : Nat) (d : Desc) (cellErr : Bool)
  | keyImport (dt : Nat) (d : Desc) (blob : Option (List Byte))
  | keyRoll (dt : Nat) (d : Desc) (blob : Option (List Byte)) (cellErr : Bool)
  | keyRevoke (dt : Nat) (d : Desc)
  | lifecycle (dt : Nat) (d : Desc) (sig aux : Option (List Byte))
  | attest (dt : Nat) (d : Desc) (challenge : Option (List Byte))
  | pairSwitchover (dt : Nat) (d : Desc)
  | inject (dt : Nat) (d : Desc) (frame : Option (List Byte))
  | tailDoorbell (dt : Nat) (a : Access) (v : Dword)
  | headDoorbell (dt : Nat) (a : Access) (v : Dword)
  /-- The whole word written to HIF_RING_CFG; ENABLE is 1 whatever the word's bit 31. -/
  | ringEnable (dt : Nat) (ring : Nat) (v : Word)
  /-- The same with ENABLE 0. -/
  | ringDisable (dt : Nat) (ring : Nat) (v : Word)
  | recordDeadline (dt : Nat) (ring : Nat)
  | irqCoalTimer (dt : Nat) (ring : Nat)
  | busMasterEnableChange (dt : Nat) (bme : Bool) (msix : MsixCtl) (dev : DevCtl)
  | powerStateChange (dt : Nat) (d3hot : Bool)
  | registerWrite (dt : Nat) (a : Access) (v : Dword)
  /-- Of BAR2 where the flag is set, else of BAR0. -/
  | registerReadClear (dt : Nat) (r : BarRead)
  | latchedWordRead (dt : Nat) (r : BarRead)
  | portFrameReceive (dt : Nat) (port : Nat) (rx : RxIn)
  | tcEntryExpire (dt : Nat)
  | prpEntryForget (dt : Nat) (pair : Nat)
  | pauseTimerExpiry (dt : Nat) (port : Nat)
  | portFrameTransmit (dt : Nat) (port : Nat)
  | linkDown (dt : Nat) (port : Nat)
  | linkUp (dt : Nat) (port : Nat) (link : LinkIn)
  | preemptVerifyTimer (dt : Nat) (port : Nat)
  | lpiIdleTimer (dt : Nat) (port : Nat)
  | dsInterval (dt : Nat) (port : Nat)
  | dsEnableWrite (dt : Nat) (port : Nat) (v : Word)
  | ptpSyncReceive (dt : Nat) (m : SyncIn)
  | ptpFollowUpReceive (dt : Nat) (m : FollowUpIn)
  | ptpAnnounceReceive (dt : Nat) (port num : Nat) (m : Announce)
  | pdelayReceive (dt : Nat) (port : Nat) (m : PdelayIn)
  | pdelayRequestTimer (dt : Nat) (port : Nat)
  | announceTimeout (dt : Nat) (dom : DomId)
  | syncTimeout (dt : Nat) (dom : DomId)
  | holdoverLimit (dt : Nat)
  | ppsInEdge (dt : Nat)
  | ppsInLost (dt : Nat)
  | ppsOutSecond (dt : Nat)
  | tbuSnap (dt : Nat) (v : Word)
  | tbuCtrlWrite (dt : Nat) (v : Word)
  | tbuDcfgWrite (dt : Nat) (dom : DomId) (v : Word)
  | rtcUpdate (dt : Nat)
  | tickBoundary (dt : Nat)
  /-- `spdu`: the session PDU that a 61850-90-5 datagram at the head of the port's FIFO decodes to. -/
  | ingestFrame (dt : Nat) (port : Nat) (spdu : Option Spdu)
  | gooseTalExpiry (dt : Nat) (entry : Nat)
  | ingFifoFlush (dt : Nat) (mask : Word)
  | flushDone (dt : Nat) (fifo : Nat)
  /-- `ecc`: the packet at the head of the FIFO served has an uncorrectable word (R178). -/
  | packetPlace (dt : Nat) (ecc : Bool)
  | tickCommit (dt : Nat)
  | tickFinal (dt : Nat)
  | helmProjection (dt : Nat)
  | delayListExpiry (dt : Nat)
  | dfcCommitTaskComplete (dt : Nat) (group : Nat)
  | sepTaskComplete (dt : Nat)
  /-- `upset`: a soft error makes the residual invariant fail (R259). -/
  | lseSolveComplete (dt : Nat) (upset : Bool)
  | lseAnalyzeComplete (dt : Nat)
  | osmUpdateComplete (dt : Nat) (set : Nat)
  | osmLocationComplete (dt : Nat)
  /-- A set, or 8 for location. -/
  | osmDeferredUpdate (dt : Nat) (set : Nat)
  /-- The ring records, or the frames of a port. -/
  | emitComplete (dt : Nat) (port : Option Nat)
  | resolveAComplete (dt : Nat) (g : Nat) (upset : Bool)
  | resolveBComplete (dt : Nat) (g : Nat)
  | geBucketClose (dt : Nat)
  | geAggregation (dt : Nat)
  | checkpointDeadline (dt : Nat)
  | pinFollowExpiry (dt : Nat) (pin : Nat)
  | almReadbackSample (dt : Nat) (pin : Nat) (level : Bool)
  | alaPinClear (dt : Nat) (mask : Word)
  | alarmFrameRetx (dt : Nat) (group : Nat)
  | faultDetected (dt : Nat) (x : FaultIn)
  | restartComplete (dt : Nat) (domain : Nat)
  | replayBudgetExpiry (dt : Nat)
  | faultNMinExpiry (dt : Nat)
  | faultConditionCleared (dt : Nat) (code domain : Nat)
  | faultnRelease (dt : Nat)
  | firstClr (dt : Nat)
  | fltInject (dt : Nat) (v : Word)
  /-- Whose toggle is absent: 0 the Helm, 1 the Churn, 2 the Bell. -/
  | heartbeat (dt : Nat) (who : Nat)
  | commitWatchdog (dt : Nat)
  | phaseMark (dt : Nat)
  | timeClockWindow (dt : Nat)
  /-- What the test found good: the comparators, the heartbeat checks. -/
  | swmSelftest (dt : Nat) (comparators heartbeats : Bool)
  | fwWatchdog (dt : Nat) (core : Nat)
  /-- The errors that the pass met, in order. -/
  | sramScrubPass (dt : Nat) (errors : List FaultIn)
  | logRecordWrite (dt : Nat)
  | mbxH2cWrite (dt : Nat) (chan : Nat) (w : Word)
  | mbxC2hRead (dt : Nat) (chan : Nat)
  | mbxC2hAck (dt : Nat) (chan : Nat) (v : Word)
  | mbxCorePush (dt : Nat) (chan : Nat) (back : Bool) (w : Word)
  | mbxCoreAck (dt : Nat) (chan : Nat) (back : Bool) (v : Word)
  | mbxTimeout (dt : Nat) (chan : Nat) (back : Bool)
  /-- 0 the host, 1 to 4 cores 0 to 3. -/
  | mbxLockRead (dt : Nat) (lock reader : Nat)
  | mbxLockRelease (dt : Nat) (l : LockUse) (v : Word)
  | kstNonceRead (dt : Nat)
  | kstTamperArm (dt : Nat) (v : Word)
  | kstTamperClr (dt : Nat) (v : Word)
  /-- AON cycles for which TAMPER_N has been low. -/
  | tamperEvent (dt : Nat) (low : Nat)
  /-- AON cycles for which TAMPER_N has been high. -/
  | tamperRestore (dt : Nat) (high : Nat)
  | powerOn (dt : Nat) (boot : BootIn)
  | powerLoss (dt : Nat) (cut : PowerCut)
  /-- Nanoseconds for which RESET_N was low. -/
  | resetN (dt : Nat) (low : Nat) (boot : BootIn)
  | sysReset (dt : Nat) (v : Word) (boot : BootIn)
  /-- The link as it trains again. -/
  | perstN (dt : Nat) (linkWidth : LinkWidth) (linkSpeed : LinkSpeed)
  | forceActive (dt : Nat) (v : Word)
  | pairQueryTimeout (dt : Nat)
  | yokeUp (dt : Nat) (peer : PairHello)
  | laneDown (dt : Nat) (lane : Nat)
  | yokeCrc (dt : Nat)
  | yokeHeartbeatSend (dt : Nat)
  | yokeHeartbeatMissed (dt : Nat) (lane : Nat)
  | peerFatal (dt : Nat)
  | peerAttestReceive (dt : Nat) (a : PeerAttest)
  | snapshotReceive (dt : Nat) (x : Snapshot)
  | synced (dt : Nat)
  | syncFail (dt : Nat)
  | joinRetry (dt : Nat)
  | commitMarkReceive (dt : Nat) (m : CommitMark)
  | markMissing (dt : Nat)
  | emitMarkReceive (dt : Nat) (seq : Nat)
  | frameMarkReceive (dt : Nat) (group stNum : Nat)
  | injectForwardReceive (dt : Nat) (id : Nat) (frame : List Byte)
  | mirrorCommandReceive (dt : Nat) (c : MirrorCmd)
  | mirrorAckReceive (dt : Nat)
  | mirrorFail (dt : Nat)
  | digestReceive (dt : Nat) (m : DigestMsg)
  | digestTimeout (dt : Nat)
  | ppsOutFall (dt : Nat)
  | laneUp (dt : Nat) (lane : Nat)
  /-- The peer's disciplined time as the heartbeat carries it, 2^-16 ns. -/
  | yokeHeartbeatReceive (dt : Nat) (lane : Nat) (time : Int)
  | pairStateExchange (dt : Nat) (peer : PairHello)
  | mbxCorePop (dt : Nat) (chan : Nat) (back : Bool)
  | retentionLoss (dt : Nat)
  | checkpointDrainComplete (dt : Nat)
  | msixUnmask (dt : Nat) (vector : Nat)
  /-- VIN in mV and the junction in 1/16 degree Celsius. -/
  | sysTempUpdate (dt : Nat) (vin : Nat) (temp : Int)
  deriving DecidableEq, Repr

end Sys2Proof
end

