-- ==== Sys2Proof/Machine/Crypto.lean ====
section
/-! DEFINITION. The checks and ciphers the spec names by their standards: CRC-32, CRC-CCITT, SHA-256, HMAC-SHA-256,
AES-128 and AES-256, GMAC, AES key wrap, ECDSA P-256. Marked PRESUMED where the standard, not the spec, gives the steps (log 7). -/

namespace Sys2Proof.Machine

/-- One byte of a reflected CRC-32 with the IEEE 802.3 polynomial. -/
def crc32Byte (c : Word) (b : Byte) : Word :=
  (List.range 8).foldl (fun x _ => if x.getLsbD 0 then (x >>> 1) ^^^ 0xEDB88320#32 else x >>> 1) (c ^^^ b.zeroExtend 32)

/-- CRC-32, IEEE 802.3 polynomial (R118, R382, R411). -/
def crc32 (l : List Byte) : Word := ~~~ (l.foldl crc32Byte 0xFFFFFFFF#32)

/-- CRC-CCITT as IEEE C37.118.2 uses it: polynomial 0x1021, initial value 0xFFFF, no reflection. -/
def crcCcitt (l : List Byte) : Half :=
  l.foldl (fun (c : Half) (b : Byte) =>
    (List.range 8).foldl (fun (x : Half) _ => if x.getLsbD 15 then (x <<< 1) ^^^ 0x1021#16 else x <<< 1)
      (c ^^^ ((b.zeroExtend 16) <<< 8))) 0xFFFF#16

/-- The round constants of SHA-256. -/
def shaK : List Word :=
  [0x428a2f98, 0x71374491, 0xb5c0fbcf, 0xe9b5dba5, 0x3956c25b, 0x59f111f1, 0x923f82a4, 0xab1c5ed5] ++
  [0xd807aa98, 0x12835b01, 0x243185be, 0x550c7dc3, 0x72be5d74, 0x80deb1fe, 0x9bdc06a7, 0xc19bf174] ++
  [0xe49b69c1, 0xefbe4786, 0x0fc19dc6, 0x240ca1cc, 0x2de92c6f, 0x4a7484aa, 0x5cb0a9dc, 0x76f988da] ++
  [0x983e5152, 0xa831c66d, 0xb00327c8, 0xbf597fc7, 0xc6e00bf3, 0xd5a79147, 0x06ca6351, 0x14292967] ++
  [0x27b70a85, 0x2e1b2138, 0x4d2c6dfc, 0x53380d13, 0x650a7354, 0x766a0abb, 0x81c2c92e, 0x92722c85] ++
  [0xa2bfe8a1, 0xa81a664b, 0xc24b8b70, 0xc76c51a3, 0xd192e819, 0xd6990624, 0xf40e3585, 0x106aa070] ++
  [0x19a4c116, 0x1e376c08, 0x2748774c, 0x34b0bcb5, 0x391c0cb3, 0x4ed8aa4a, 0x5b9cca4f, 0x682e6ff3] ++
  [0x748f82ee, 0x78a5636f, 0x84c87814, 0x8cc70208, 0x90befffa, 0xa4506ceb, 0xbef9a3f7, 0xc67178f2]

/-- The eight working words of SHA-256. -/
structure ShaReg where
  a : Word
  b : Word
  c : Word
  d : Word
  e : Word
  f : Word
  g : Word
  h : Word
  deriving DecidableEq, Repr

def shaInit : ShaReg :=
  ⟨0x6a09e667, 0xbb67ae85, 0x3c6ef372, 0xa54ff53a, 0x510e527f, 0x9b05688c, 0x1f83d9ab, 0x5be0cd19⟩

def ror (x : Word) (n : Nat) : Word := x.rotateRight n

/-- One round. -/
def shaRound (r : ShaReg) (kw : Word) : ShaReg :=
  let s1 := ror r.e 6 ^^^ ror r.e 11 ^^^ ror r.e 25
  let ch := (r.e &&& r.f) ^^^ ((~~~ r.e) &&& r.g)
  let t1 := r.h + s1 + ch + kw
  let s0 := ror r.a 2 ^^^ ror r.a 13 ^^^ ror r.a 22
  let mj := (r.a &&& r.b) ^^^ (r.a &&& r.c) ^^^ (r.b &&& r.c)
  ⟨t1 + (s0 + mj), r.a, r.b, r.c, r.d + t1, r.e, r.f, r.g⟩

/-- Rounds over the schedule: the window holds the last 16 words. -/
def shaRounds : List Word → List Word → ShaReg → ShaReg
  | [], _, r => r
  | k :: ks, win, r =>
    let w0 := nth win 0 0#32
    let r' := shaRound r (k + w0)
    let w1 := nth win 1 0#32
    let w14 := nth win 14 0#32
    let s0 := ror w1 7 ^^^ ror w1 18 ^^^ (w1 >>> 3)
    let s1 := ror w14 17 ^^^ ror w14 19 ^^^ (w14 >>> 10)
    shaRounds ks (win.drop 1 ++ [w0 + s0 + nth win 9 0#32 + s1]) r'

/-- Sixteen big-endian words of a 64-byte block. -/
def blockWords (l : List Byte) : List Word := (List.range 16).map fun k => BitVec.ofNat 32 (beAt l (4 * k) 4)

def shaBlocks : Nat → List Byte → ShaReg → ShaReg
  | 0, _, r => r
  | n + 1, l, r =>
    let q := shaRounds shaK (blockWords l) r
    shaBlocks n (l.drop 64)
      ⟨r.a + q.a, r.b + q.b, r.c + q.c, r.d + q.d, r.e + q.e, r.f + q.f, r.g + q.g, r.h + q.h⟩

/-- SHA-256 of a byte list, as 32 bytes. -/
def sha256 (l : List Byte) : List Byte :=
  let z := (119 - l.length % 64) % 64
  let p := l ++ [0x80#8] ++ List.replicate z 0#8 ++ toBE 8 (8 * l.length)
  let r := shaBlocks (p.length / 64) p shaInit
  [r.a, r.b, r.c, r.d, r.e, r.f, r.g, r.h].flatMap fun w => toBE 4 w.toNat

/-- HMAC-SHA-256 (R163). -/
def hmac256 (key msg : List Byte) : List Byte :=
  let k := padTo 64 (if key.length > 64 then sha256 key else key)
  sha256 (k.map (· ^^^ 0x5c#8) ++ sha256 (k.map (· ^^^ 0x36#8) ++ msg))

/-- Multiplication by x in the field of AES. -/
def xtime (b : Byte) : Byte := if b.getLsbD 7 then (b <<< 1) ^^^ 0x1B#8 else b <<< 1

/-- Product in the field of AES. -/
def gmul (a b : Byte) : Byte :=
  ((List.range 8).foldl (fun (p : Byte × Byte) k => ((if b.getLsbD k then p.1 ^^^ p.2 else p.1), xtime p.2)) (0#8, a)).1

/-- Inverse in the field of AES as the power 254, 0 for 0. -/
def ginv (a : Byte) : Byte :=
  let a2 := gmul a a
  let a4 := gmul a2 a2
  let a8 := gmul a4 a4
  let a16 := gmul a8 a8
  let a32 := gmul a16 a16
  let a64 := gmul a32 a32
  let a128 := gmul a64 a64
  gmul a128 (gmul a64 (gmul a32 (gmul a16 (gmul a8 (gmul a4 a2)))))

/-- The S-box of AES. -/
def sbox (a : Byte) : Byte :=
  let b := ginv a
  b ^^^ b.rotateLeft 1 ^^^ b.rotateLeft 2 ^^^ b.rotateLeft 3 ^^^ b.rotateLeft 4 ^^^ 0x63#8

/-- The inverse S-box of AES. -/
def invSbox (a : Byte) : Byte :=
  ginv (a.rotateLeft 1 ^^^ a.rotateLeft 3 ^^^ a.rotateLeft 6 ^^^ 0x05#8)

/-- Key expansion in 4-byte words: `nk` words of key, `n` further words. -/
def aesExpand (nk : Nat) : Nat → List (List Byte) → Byte → List (List Byte)
  | 0, ws, _ => ws
  | n + 1, ws, rc =>
    let i := ws.length
    let t := nth ws (i - 1) []
    let t1 := if i % nk = 0 then
        let r := (t.drop 1 ++ t.take 1).map sbox
        (r.take 1).map (· ^^^ rc) ++ r.drop 1
      else if nk > 6 ∧ i % nk = 4 then t.map sbox else t
    let w := List.zipWith (· ^^^ ·) (nth ws (i - nk) []) t1
    aesExpand nk n (ws ++ [w]) (if i % nk = 0 then xtime rc else rc)

/-- Round keys of a 16- or 32-byte key: 11 or 15 lists of 16 bytes. -/
def aesKeys (key : List Byte) : List (List Byte) :=
  let nk := key.length / 4
  let rounds := nk + 7
  let ws := aesExpand nk (4 * rounds - nk) ((List.range nk).map fun k => sub key (4 * k) 4) 1#8
  (List.range rounds).map fun r => (List.range 4).flatMap fun k => nth ws (4 * r + k) []

def xorB (a b : List Byte) : List Byte := List.zipWith (· ^^^ ·) a b

def shiftRows (s : List Byte) : List Byte :=
  (List.range 16).map fun i => nth s ((i + 4 * (i % 4)) % 16) 0#8

def invShiftRows (s : List Byte) : List Byte :=
  (List.range 16).map fun i => nth s ((i + 16 - 4 * (i % 4)) % 16) 0#8

def mixWith (c : List Byte) (s : List Byte) : List Byte :=
  (List.range 16).map fun i =>
    (List.range 4).foldl (fun a k => a ^^^ gmul (nth c ((k + 4 - i % 4) % 4) 0#8) (nth s (4 * (i / 4) + k) 0#8)) 0#8

/-- Rounds of the cipher over its round keys. -/
def aesRounds : List (List Byte) → List Byte → List Byte
  | [], s => s
  | [k], s => xorB (shiftRows (s.map sbox)) k
  | k :: ks, s => aesRounds ks (xorB (mixWith [2, 3, 1, 1] (shiftRows (s.map sbox))) k)

/-- AES encryption of one 16-byte block. -/
def aesEnc (key blk : List Byte) : List Byte :=
  match aesKeys key with
  | [] => blk
  | k :: ks => aesRounds ks (xorB blk k)

def aesInvRounds : List (List Byte) → List Byte → List Byte
  | [], s => s
  | [k], s => xorB ((invShiftRows s).map invSbox) k
  | k :: ks, s => aesInvRounds ks (mixWith [14, 11, 13, 9] (xorB ((invShiftRows s).map invSbox) k))

/-- AES decryption of one 16-byte block. -/
def aesDec (key blk : List Byte) : List Byte :=
  match (aesKeys key).reverse with
  | [] => blk
  | k :: ks => aesInvRounds ks (xorB blk k)

/-- Product in the field of GHASH, most significant bit first. -/
def ghashMul (x y : BitVec 128) : BitVec 128 :=
  ((List.range 128).foldl (fun (p : BitVec 128 × BitVec 128) i =>
    ((if x.getMsbD i then p.1 ^^^ p.2 else p.1),
     (if p.2.getLsbD 0 then (p.2 >>> 1) ^^^ (0xE1#128 <<< 120) else p.2 >>> 1))) (0#128, y)).1

def ghash (h : BitVec 128) : Nat → List Byte → BitVec 128 → BitVec 128
  | 0, _, y => y
  | n + 1, l, y => ghash h n (l.drop 16) (ghashMul (y ^^^ BitVec.ofNat 128 (beNat (padTo 16 (l.take 16)))) h)

/-- AES-GMAC with a 12-byte initialisation vector: the 16-byte tag over associated data (R163). -/
def gmac (key iv aad : List Byte) : List Byte :=
  let h := BitVec.ofNat 128 (beNat (aesEnc key (List.replicate 16 0#8)))
  let n := ceilDiv aad.length 16
  let y := ghash h n aad 0#128
  let y2 := ghashMul (y ^^^ BitVec.ofNat 128 ((8 * aad.length) <<< 64)) h
  xorB (toBE 16 y2.toNat) (aesEnc key (iv ++ [0#8, 0#8, 0#8, 1#8]))

/-- One step of the key-wrap inverse (RFC 3394): registers from the last to the first. -/
def kwStep (key : List Byte) (n : Nat) (st : List Byte × List (List Byte)) (t : Nat) : List Byte × List (List Byte) :=
  let i := (t - 1) % n
  let b := aesDec key (xorB st.1 (toBE 8 t) ++ nth st.2 i [])
  (b.take 8, setAt st.2 i (b.drop 8))

/-- AES key unwrap (RFC 3394): `none` where the integrity value does not match. -/
def kwUnwrap (key wrapped : List Byte) : Option (List Byte) :=
  let n := wrapped.length / 8 - 1
  let rs := (List.range n).map fun k => sub wrapped (8 * (k + 1)) 8
  let st := ((List.range (6 * n)).map fun k => 6 * n - k).foldl (kwStep key n) (wrapped.take 8, rs)
  if st.1 = List.replicate 8 0xA6#8 ∧ 0 < n then some st.2.flatten else none

/-- One step of the key wrap (RFC 3394). -/
def kwWrapStep (key : List Byte) (n : Nat) (st : List Byte × List (List Byte)) (t : Nat) : List Byte × List (List Byte) :=
  let i := (t - 1) % n
  let b := aesEnc key (st.1 ++ nth st.2 i [])
  (xorB (b.take 8) (toBE 8 t), setAt st.2 i (b.drop 8))

/-- AES key wrap (RFC 3394). -/
def kwWrap (key plain : List Byte) : List Byte :=
  let n := plain.length / 8
  let rs := (List.range n).map fun k => sub plain (8 * k) 8
  let st := ((List.range (6 * n)).map (· + 1)).foldl (kwWrapStep key n) (List.replicate 8 0xA6#8, rs)
  st.1 ++ st.2.flatten

/-- The prime of P-256. -/
def p256p : Nat := 0xFFFFFFFF00000001000000000000000000000000FFFFFFFFFFFFFFFFFFFFFFFF
/-- The order of the base point of P-256. -/
def p256n : Nat := 0xFFFFFFFF00000000FFFFFFFFFFFFFFFFBCE6FAADA7179E84F3B9CAC2FC632551
/-- The coefficient b of P-256. -/
def p256b : Nat := 0x5AC635D8AA3A93E7B3EBBD55769886BC651D06B0CC53B0F63BCE3C3E27D2604B
/-- The base point of P-256. -/
def p256g : Nat × Nat :=
  (0x6B17D1F2E12C4247F8BCE6E563A440F277037D812DEB33A0F4A13945D898C296,
   0x4FE342E2FE1A7F9B8EE7EB4A7C0F9E162BCE33576B315ECECBB6406837BF51F5)

/-- Power modulo `m` over the `k` low bits of the exponent. -/
def powMod (m : Nat) : Nat → Nat → Nat → Nat
  | 0, _, _ => 1 % m
  | k + 1, b, e =>
    let r := powMod m k (b * b % m) (e / 2)
    if e % 2 = 1 then r * b % m else r

/-- Inverse modulo a prime below 2^256. -/
def invMod (m a : Nat) : Nat := powMod m 256 (a % m) (m - 2)

/-- A point of the curve: `none` is the point at infinity. -/
abbrev EcPoint := Option (Nat × Nat)

/-- Addition of points of P-256. -/
def ecAdd (a b : EcPoint) : EcPoint :=
  match a, b with
  | none, q => q
  | p, none => p
  | some (x1, y1), some (x2, y2) =>
    if x1 = x2 ∧ (y1 + y2) % p256p = 0 then none else
    let l := if x1 = x2 then (3 * x1 * x1 + (p256p - 3)) * invMod p256p (2 * y1) % p256p
      else (y2 + p256p - y1) * invMod p256p (x2 + p256p - x1) % p256p
    let x3 := (l * l + 2 * p256p - x1 - x2) % p256p
    some (x3, (l * (x1 + p256p - x3) + p256p - y1) % p256p)

/-- Multiple of a point over `k` bits. -/
def ecMul : Nat → Nat → EcPoint → EcPoint
  | 0, _, _ => none
  | k + 1, e, p =>
    let r := ecMul k (e / 2) (ecAdd p p)
    if e % 2 = 1 then ecAdd r p else r

/-- A public key that is a point of the curve. -/
def ecOnCurve (x y : Nat) : Bool :=
  x < p256p && y < p256p && (y * y) % p256p == (x * x * x + (p256p - 3) * x + p256b) % p256p

/-- ECDSA P-256 verification of a 32-byte digest (R382, R467, R474): signature as two numbers r and s. -/
def ecdsaVerify (pub : Nat × Nat) (digest r s : Nat) : Bool :=
  if r = 0 ∨ p256n ≤ r ∨ s = 0 ∨ p256n ≤ s ∨ ecOnCurve pub.1 pub.2 = false then false else
  let w := invMod p256n s
  match ecAdd (ecMul 256 (digest * w % p256n) (some p256g)) (ecMul 256 (r * w % p256n) (some pub)) with
  | none => false
  | some (x, _) => x % p256n == r

end Sys2Proof.Machine
end

