-- ==== Sys2Proof/Config.lean ====
section
/-! DEFINITION. What one part fixes, and the free values: constants without a body, of which no proof can see a value. -/

namespace Sys2Proof.Config

/-- SYS_ID.GRADE of this part: 0 HX7300-MI, 1 HX7300-ME (R395). Free (log 2). -/
opaque grade : BitVec 1
/-- SYS_ID.SILICON of this part (R395). Free (log 2). -/
opaque silicon : BitVec 4
/-- SYS_ID.ROM of this part (R395). Free (log 2). -/
opaque rom : BitVec 8

/-- The PCI-SIG's identifier of the maker, and the subsystem IDs of the provisioning data (R351). Free (log 2). -/
opaque pciVendor : BitVec 16
opaque subsystem : BitVec 32

/-- A random Boolean drawn at an index: the outcome that R525 leaves open (log 56). Free (log 2). -/
opaque freeBool : Nat → Bool
/-- A random 256-bit value drawn at an index: entropy, nonces, keys (R456, R460, R466). Free (log 2). -/
opaque freeBits : Nat → BitVec 256

/-- The interval, less one and in 2^-16 ns, that the servo uses for a sample with no accepted sample before it (R80 states none). Free (log 2). -/
opaque freeTau : Nat → Nat

/-- ROM coefficient h[k] of a preset, raw Q1.23: R229 gives their sum and limits, not their values. Free (log 2). -/
opaque romCoef : Nat → Nat → BitVec 24

/-- Octet k of an SPDU up to its signature, given its session identifier and what it says: R344 to R346 and R158 name the fields, IEC 61850-90-5
and 61850-8-1 encode them (log 12). Free (log 2). -/
opaque spduOctet : Nat → SpduOut → Nat → Byte
/-- IV of its AES-128-GMAC tag, and the first of its octets that the tag covers, as IEC 61850-90-5 defines them (log 12). Free (log 2). -/
opaque spduIv : SpduOut → List Byte
opaque signedFrom : Nat
/-- Header fields of an alarm frame that no rule states: 0 traffic class, 1 identification, 2 time to live, 3 flow label, 4 UDP source port,
5 the don't-fragment bit (log 12). Free (log 2). -/
opaque headerField : Nat → BitVec 32

/-- Public keys of the boot ROM: the vendor provisioning key (R459) and the firmware key (R474). Free (log 2). -/
opaque vendorKey : Nat × Nat
opaque fwKey : Nat × Nat

/-- Whether an elementary function (0 angle, 1 logarithm, 2 cosine, 3 sine) of two binary64 values rounds its value away from zero (R161, R223,
R288, R297): the spec gives no algorithm. Free (log 2). -/
opaque roundsUp : Nat → BitVec 64 → BitVec 64 → Bool
/-- Its value where the spec states none: the angle of 0, the logarithm of 0, any of them at an infinity. Free (log 2). -/
opaque elemFree : Nat → BitVec 64 → BitVec 64 → BitVec 64

/-- Lanes of the solver array that share a sum, and the lane of each of its terms: R258 fixes an order by the image, named here by
its digest, and does not give it. Free (log 2). -/
opaque laneCount : BitVec 64 → Nat → Nat
opaque laneOf : BitVec 64 → Nat → Nat → Nat

/-- A sum of products in binary64 in the order the image fixes (R288), which the spec does not give. Free (log 2). -/
opaque dot64 : BitVec 64 → List (BitVec 64 × BitVec 64) → BitVec 64
/-- Time that the gather step of a re-solve takes, in 2^-16 ns, by TICK_SEQ and revision, up to the bound of R266 (R195). Free (log 2, log 98). -/
opaque gatherTime : Nat → Nat → Nat

/-- Relative tolerance of a decomposition of R288 (0 Jacobi, 1 rank and pseudo-inverse, 2 shifted QR): the rule names none. Free (log 2). -/
opaque tolerance : Nat → BitVec 64

end Sys2Proof.Config
end

