-- ==== Sys2Proof/Machine/StateParts/Ing.lean ====
section
/-! DEFINITION. State of Ingest (R146 to R185). -/

namespace Sys2Proof.Machine

/-- A replay window of one key slot (R165): highest accepted number, bitmap with bit k for the number k below it, key generation. -/
structure Replay where
  used : Bool
  high : Nat
  seen : Nat
  gen  : Nat
  deriving DecidableEq, Repr

def Replay.reset : Replay := { used := false, high := 0, seen := 0, gen := 0 }

/-- The runtime record of a fast or injected endpoint (R169, R185), with its GOOSE state (R160). -/
structure EpRt where
  accepted : Word
  lastTs   : Nat
  authFail : Nat
  replayN  : Nat
  chkErr   : Nat
  lastEpoch : Nat
  lastFlags : Nat
  cur      : Replay
  next     : Replay
  stale    : Bool
  mismatch : Bool
  /-- stNum of the last accepted GOOSE PDU, and the instant on TBU_FREE at which its time to live ends. -/
  stNum    : Option Nat
  talAt    : Option Nat
  deriving DecidableEq, Repr

def EpRt.reset : EpRt :=
  { accepted := 0#32, lastTs := 0, authFail := 0, replayN := 0, chkErr := 0, lastEpoch := 0, lastFlags := 0,
    cur := Replay.reset, next := Replay.reset, stale := false, mismatch := false, stNum := none, talAt := none }

/-- One entry of the fast endpoint table (R169, R170) with its channel descriptors (R171). -/
structure EpEntry where
  entry : Unit512
  chans : List Dword
  rt    : EpRt
  deriving DecidableEq, Repr

/-- One ingest FIFO with what its engine still has to push (R178 to R181). -/
structure Fifo where
  /-- Whole packets, oldest first. -/
  pkts  : List Pkt
  /-- Entries in the head register file and in the middle; the others are in the tail (R180). -/
  head  : Nat
  mid   : Nat
  /-- The packet being pushed, and how many of its entries are in the FIFO (R176, R180). -/
  part  : Option (Pkt × Nat)
  /-- Packets of the engine's present frame that follow it. -/
  wait  : List Pkt
  /-- A pending flush: packets still to discard (R179). -/
  flush : Option Nat
  deriving DecidableEq, Repr

def Fifo.reset : Fifo := { pkts := [], head := 0, mid := 0, part := none, wait := [], flush := none }

/-- Ingest. -/
structure Ing where
  cfg     : Word
  portC37 : Word
  port905 : Word
  portHxg : Word
  utcDef  : Word
  tqTh    : Word
  event   : Word
  eventEn : Word
  wm      : Word
  wmEvent : Word
  spill   : Word
  frames  : List Word
  cnt     : List Word
  epSel   : Word
  fifos   : List Fifo
  /-- Static entries of the fast endpoint table that hold something, by entry number. -/
  eps     : List (Nat × EpEntry)
  /-- Slow endpoint states in use, by endpoint index (R173). -/
  slow    : List (Nat × Unit512)
  /-- Packets and ASDUs judged CFG_MISMATCH since reset; unlike ING_CNT[15] it does not saturate (R152). -/
  misfits : Nat
  /-- Round-robin position of HXG datagrams (R147). -/
  rr      : Nat
  /-- Interface addresses of each port: 16-octet addresses, IPv4 as ::ffff:a.b.c.d (R151). -/
  ifaces  : List (List Nat)
  /-- Nominal frequency of each system in mHz (R161). -/
  fnom    : List Nat
  /-- Disciplined ns at which START completed (R168). -/
  startNs : Int
  /-- The leap correction in force: end of its UTC day in TAI ns, U and the second offset (R154). -/
  leap    : Option (Int × Int × Int)
  deriving DecidableEq, Repr

def Ing.reset : Ing :=
  { cfg := 8#32, portC37 := 0x1269#32, port905 := 0x66#32, portHxg := 0xB8C3#32, utcDef := 0x25#32, tqTh := 0x35#32,
    event := 0#32, eventEn := 0#32, wm := 0x10000#32, wmEvent := 0#32, spill := 0#32, frames := List.replicate 16 0#32,
    cnt := List.replicate 32 0#32, epSel := 0#32, fifos := List.replicate 16 Fifo.reset,
    eps := [], slow := [], misfits := 0, rr := 0, ifaces := [[], [], [], []], fnom := List.replicate 16 0, startNs := 0, leap := none }

end Sys2Proof.Machine
end

