-- ==== Sys2Proof/Machine/StateParts/Mbx.lean ====
section
/-! DEFINITION. State of the mailboxes and locks (R396 to R409). -/

namespace Sys2Proof.Machine

/-- A word in a queue, with the instant on TBU_FREE at which its reader sees it (R176, R403). -/
structure MWord where
  word : Word
  at_  : Nat
  deriving DecidableEq, Repr

/-- An armed acknowledgement timer: SEQ and the instant of its header's push (R402). -/
structure MTimer where
  seq : Nat
  at_ : Nat
  deriving DecidableEq, Repr

/-- One direction of a channel. -/
structure MDir where
  q     : List MWord
  /-- Instants at which the writer sees places freed by pops (R398). -/
  freed : List Nat
  /-- Words of the present message still to come (R400). -/
  left  : Nat
  timer : Option MTimer
  /-- The last acknowledgement of this direction (R401). -/
  ack   : Word
  deriving DecidableEq, Repr

def MDir.reset : MDir := { q := [], freed := [], left := 0, timer := none, ack := 0#32 }

/-- A channel: `fwd` runs from the host (0 to 3), the lower core (4 to 9) or this module (10 to 13), `back` the other way. -/
structure MChan where
  fwd  : MDir
  back : MDir
  /-- STAT bits of channels 0 to 3 (R409). -/
  timeout  : Bool
  reject   : Bool
  underrun : Bool
  deriving DecidableEq, Repr

def MChan.reset : MChan :=
  { fwd := MDir.reset, back := MDir.reset, timeout := false, reject := false, underrun := false }

/-- The mailboxes. -/
structure Mbx where
  timeout : Word
  event   : Word
  eventEn : Word
  cnt     : List Word
  chans   : List MChan
  /-- Holder of each lock: 0 the host, 1 to 4 cores 0 to 3 (R406). -/
  locks   : List (Option Nat)
  deriving DecidableEq, Repr

def Mbx.reset : Mbx :=
  { timeout := 0xA#32, event := 0#32, eventEn := 0#32, cnt := List.replicate 4 0#32, chans := List.replicate 14 MChan.reset,
    locks := List.replicate 16 none }

end Sys2Proof.Machine
end

