-- ==== Sys2Proof/Machine/StateParts/Out.lean ====
section
/-! DEFINITION. What leaves the module. -/

namespace Sys2Proof.Machine

/-- What the module put on an interface, oldest first in the state: the model's own record of outputs (log 5). -/
inductive Out where
  /-- An MSI-X message: vector, address, data (R387). -/
  | msix (vec addr : Nat) (data : Word)
  /-- A frame whose transmission starts on a port (R128). -/
  | frame (port : Nat) (body : TxBody) (rct : Option Nat)
  /-- The base page that a port advertised under Clause 73 (R114). -/
  | basePage (port : Nat) (page : BasePage)
  /-- Bytes written to host memory for a command (R466, R475). -/
  | dma (addr : Nat) (bytes : List Byte)
  /-- A verify or a response mPacket (R129). -/
  | mpacket (port : Nat) (response : Bool)
  /-- Bus error response to the core that wrote to a full mailbox queue: channel, direction (R398). -/
  | busError (chan : Nat) (back : Bool)
  /-- A message handed to the Yoke (R487). -/
  | yoke (m : YokeOut)
  deriving DecidableEq, Repr

end Sys2Proof.Machine
end

