-- ==== Sys2Proof/Machine/StateParts/Tkx.lean ====
section
/-! DEFINITION. State of the Helm (R42 to R73). -/

namespace Sys2Proof.Machine

/-- State of a task entry (R61). IDLE tasks have no entry. -/
inductive TaskSt where
  | waiting
  | ready
  | running
  | preempted
  deriving DecidableEq, Repr

def TaskSt.code : TaskSt → Nat
  | .waiting => 1
  | .ready => 2
  | .running => 3
  | .preempted => 4

/-- One entry of a task for a tick, in ready order (R63). -/
structure TEntry where
  task     : Nat
  prio     : Nat
  unit     : Nat
  flow     : Option Nat
  work     : Work
  g        : Nat
  seq      : Nat
  st       : TaskSt
  /-- Declared cost not yet run, in 2^-16 ns, as at `since`. -/
  remain   : Nat
  since    : Nat
  reReady  : Bool
  flowSeq  : Nat
  /-- It has been dispatched at least once (R236). -/
  started  : Bool
  /-- Instant on TBU_FREE at which it entered its list (R63, R65). -/
  readyAt  : Nat
  /-- Cancelled while RUNNING, with the ARG of its trace entry: abandoned when the cycle ends (R65). -/
  dying    : Option Nat
  /-- A RESTART of its engine made it READY again and the restore is not done (R444). -/
  again    : Bool
  /-- Its frames were handed to the port (R53). -/
  fed      : Bool
  /-- A re-solve whose gather reads the tick's slot: it does so while more of the cost than this remains (R195). -/
  slotTill : Option Nat
  deriving DecidableEq, Repr

/-- A flow: the next number to give, the next to release, and the ended entries not yet released, each with whether it has a result (R66). -/
structure Flow where
  next     : Nat
  release  : Nat
  done     : List (TEntry × Bool)
  deriving DecidableEq, Repr

def Flow.reset : Flow := { next := 0, release := 0, done := [] }

/-- A record of a tick that waits for EMIT (R214, R242, R272, R303): ring, type, units, the instant of its latest TS32. -/
structure EmitRec where
  ring  : Option Nat
  typ   : Nat
  units : List Unit512
  stamp : Option Nat
  deriving DecidableEq, Repr

/-- The tick between its commit and the end of its EMIT. -/
structure Cur where
  g         : Nat
  seq       : Nat
  /-- Commit instant on TBU_FREE. -/
  at_       : Nat
  /-- Phase in progress: 1 COMMIT to 4 EMIT. -/
  phase     : Nat
  phaseAt   : Nat
  durs      : List Nat
  /-- Completed work of the tick. -/
  doneDfc   : List Nat
  doneSep   : Bool
  doneSolve : Bool
  doneAna   : Bool
  doneOsm   : List Nat
  doneRings : Bool
  donePorts : List Nat
  /-- Decisions taken (R48), and whether one was taken after its mark limit (R447). -/
  d1        : Bool
  d2        : Bool
  lateMark  : Bool
  incomplete : Bool
  shed      : Nat
  /-- Domains of the engines that were removed from the tick (R57). -/
  gone      : List Nat
  /-- Its LSE result, and an invariant failure that ended it (R268, R269). -/
  lseRes    : Option LseRes
  invFail   : Bool
  /-- OSM updates due in the tick, and whether one was deferred (R299, R300). -/
  osmDue    : List Nat
  osmDefer  : Bool
  /-- Records that wait for EMIT, by their place in it. -/
  recs      : List EmitRec
  /-- Records of the tick as the pair digest takes them, in writing order (R500). -/
  dig       : List (Nat × List Unit512)
  /-- Its port frames were moved to SLACK (R53). -/
  framesHeld : Bool
  /-- STREAM rings that received records of the tick (R60). -/
  rings     : List Nat
  /-- Its commit fell inside a recovery, or was counted MARK_MISSING (R501). -/
  skip      : Bool
  deriving DecidableEq, Repr

/-- The Helm. -/
structure Tkx where
  lastSeq   : Option Nat
  nextSeq   : Nat
  cur       : Option Cur
  pastHorizon : Word
  event     : Word
  eventEn   : Word
  overrunCnt : Word
  skippedCnt : Word
  lateCnt   : Word
  pastCnt   : Word
  phaseLateCnt : Word
  shedCnt   : List Word
  budget    : List Nat
  phaseMax  : List Nat
  traceCtrl : Word
  wrptr     : Nat
  traceIdx  : Word
  trace     : List (Nat × BitVec 128)
  flows     : List (Nat × Flow)
  tasks     : List TaskCfg
  entries   : List TEntry
  /-- Shed levels in force, bit k-1 for level k (R54). -/
  shedLevels : Nat
  /-- Phase code of the latest committed tick (R73). -/
  phase     : Nat
  /-- Instant on TBU_FREE before which R40 allows no commit. -/
  notBefore : Nat
  /-- Microtick delay list: due value of TBU_FREE, task, tick (R67), in due order. -/
  micro     : List (Nat × Nat × Nat)
  deriving DecidableEq, Repr

def Tkx.reset : Tkx :=
  { lastSeq := none, nextSeq := 0, cur := none, pastHorizon := 0x3E8#32, event := 0#32, eventEn := 0#32,
    overrunCnt := 0#32, skippedCnt := 0#32, lateCnt := 0#32, pastCnt := 0#32, phaseLateCnt := 0#32,
    shedCnt := List.replicate 4 0#32, budget := List.replicate 6 0, phaseMax := List.replicate 6 0,
    traceCtrl := 0xFFFE0001#32, wrptr := 0, traceIdx := 0#32, trace := [], flows := [], tasks := [],
    entries := [], shedLevels := 0, phase := 0, notBefore := 0, micro := [] }

end Sys2Proof.Machine
end

