-- ==== Sys2Proof/Machine/State.lean ====
section
/-! DEFINITION. The state of the block, its faults and refusals, and the state after reset. -/

namespace Sys2Proof.Machine

/-- The blocks that hold registers the hardware and the host both change, as copied from a state. -/
structure Blocks where
  hif  : Hif
  tbu  : Tbu
  log  : Log
  flt  : Flt
  swm  : Swm
  tkx  : Tkx
  net  : Net
  ing  : Ing
  aln  : Aln
  dfc  : Dfc
  lse  : Lse
  osm  : Osm
  sep  : Sep
  ge   : Ge
  ala  : Ala
  pair : Pair
  kst  : Kst
  mbx  : Mbx
  deriving DecidableEq, Repr

/-- Everything the spec gives the block, and beside it the queue of commands that wait, the record of outputs, the counter of free values
and the word that a register read returns. -/
structure State where
  /-- SYS: run state, start-up, settings in force (chapters 1 and 17). -/
  sys  : Sys
  /-- HIF: rings, MSI-X, scheduled commands (chapter 11). -/
  hif  : Hif
  /-- The Sextant (chapter 3). -/
  tbu  : Tbu
  /-- The Logbook (chapter 13). -/
  log  : Log
  /-- The Fault Collector (chapter 14). -/
  flt  : Flt
  /-- The Safety Watch (chapter 14). -/
  swm  : Swm
  /-- The Helm (chapter 2). -/
  tkx  : Tkx
  /-- The Ethernet ports (chapter 4). -/
  net  : Net
  /-- Ingest (chapter 5). -/
  ing  : Ing
  /-- The Churn (chapter 6). -/
  aln  : Aln
  /-- The Separator (chapter 7). -/
  dfc  : Dfc
  /-- The estimator (chapter 8). -/
  lse  : Lse
  /-- The Oscillation Monitor (chapter 9). -/
  osm  : Osm
  /-- The Separation Detector (chapter 10). -/
  sep  : Sep
  /-- Grid-edge aggregation (chapter 10). -/
  ge   : Ge
  /-- The Bell (chapter 10). -/
  ala  : Ala
  /-- The Pair Controller (chapter 16). -/
  pair : Pair
  /-- The Key Store and the always-on domain (chapter 15). -/
  kst  : Kst
  /-- Mailboxes and locks (chapter 12). -/
  mbx  : Mbx
  /-- The loaded image (R384). -/
  image : Option Image
  /-- Commands that wait, first in, first out. -/
  pending : List Instr
  /-- What left the module, oldest first (log 5). -/
  out  : List Out
  /-- Index of the next free value (log 2). -/
  freeCtr : Nat
  /-- Latched words of multi-word values and read windows, by BAR0 offset; an unlisted word holds its reset value 0 (R555). -/
  latches : List (Nat × Word)
  /-- What the last read of a register returned. -/
  readData : Word
  /-- Upper word of that read where it was of 64 bits, else 0. -/
  readHigh : Word
  /-- The blocks as the present cycle found them, which R6, R7 and the tables of one cycle need: commands with `dt` 0 share a cycle (log 135). -/
  prior : Blocks
  deriving DecidableEq, Repr

/-- No command of the block faults: errors are completions, counters and faults of the Fault Collector, all of them state. -/
inductive Fault where
  deriving DecidableEq, Repr

/-- Refusals of the model. -/
inductive Refusal where
  /-- Raised by an arm of exec for a row without a meaning (none is left); safe: it stops where the hardware goes on. -/
  | notModelled (mnemonic : String)
  deriving DecidableEq, Repr

/-- The blocks as reset leaves them. -/
def Blocks.reset : Blocks :=
  { hif := Hif.reset, tbu := Tbu.reset, log := Log.reset, flt := Flt.reset, swm := Swm.reset, tkx := Tkx.reset, net := Net.reset,
    ing := Ing.reset, aln := Aln.reset, dfc := Dfc.reset, lse := Lse.reset, osm := Osm.reset, sep := Sep.reset, ge := Ge.reset,
    ala := Ala.reset, pair := Pair.reset, kst := Kst.reset, mbx := Mbx.reset }

/-- The module as reset leaves it and before start-up has run: INIT, not READY, FAULT_N low, no image, no command waiting. What resets keep
(R526) stands as in a module that has never been powered: unprovisioned, Logbook empty, TBU_FREE at 0 (log 3). -/
def State.reset : State :=
  { sys := Sys.reset, hif := Hif.reset, tbu := Tbu.reset, log := Log.reset, flt := Flt.reset, swm := Swm.reset, tkx := Tkx.reset,
    net := Net.reset, ing := Ing.reset, aln := Aln.reset, dfc := Dfc.reset, lse := Lse.reset, osm := Osm.reset, sep := Sep.reset,
    ge := Ge.reset, ala := Ala.reset, pair := Pair.reset, kst := Kst.reset, mbx := Mbx.reset, image := none, pending := [], out := [],
    freeCtr := 0, latches := [], readData := 0#32, readHigh := 0#32,
    prior := Blocks.reset }

/-- The blocks of a state. -/
def State.blocks (s : State) : Blocks :=
  { hif := s.hif, tbu := s.tbu, log := s.log, flt := s.flt, swm := s.swm, tkx := s.tkx, net := s.net, ing := s.ing, aln := s.aln, dfc := s.dfc,
    lse := s.lse, osm := s.osm, sep := s.sep, ge := s.ge, ala := s.ala, pair := s.pair, kst := s.kst, mbx := s.mbx }

/-- The state with the blocks as the present cycle found them, at the present time. -/
def State.began (s : State) : State :=
  { s with hif := s.prior.hif, tbu := { s.prior.tbu with free := s.tbu.free }, log := s.prior.log, flt := s.prior.flt, swm := s.prior.swm, tkx := s.prior.tkx, net := s.prior.net,
           ing := s.prior.ing, aln := s.prior.aln, dfc := s.prior.dfc, lse := s.prior.lse, osm := s.prior.osm, sep := s.prior.sep, ge := s.prior.ge,
           ala := s.prior.ala, pair := s.prior.pair, kst := s.prior.kst, mbx := s.prior.mbx }

end Sys2Proof.Machine
end

