-- ==== Sys2Proof/Machine/Ops.lean ====
section
/-! DEFINITION. Operations every family shares: time, interrupts, sticky events, records, rings, completions, the Logbook's intake. -/

namespace Sys2Proof.Machine

/-- 2^-16 ns in one nanosecond. -/
def fr : Nat := 65536
/-- One second in 2^-16 ns. -/
def secFr : Nat := 1000000000 * 65536

/-! Time (R74, R75, R103) -/

/-- Time passes: `dt` in 1/256 ns. TBU_FREE runs once its PLL has locked (R74); AON time always runs (R525). With `dt` above 0 a cycle
begins (R6, R7). -/
def passTime (dt : Nat) (s : State) : State :=
  { s with
    prior := if dt = 0 then s.prior else s.blocks
    sys := { s.sys with aon := s.sys.aon + dt }
    tbu := { s.tbu with free := if s.tbu.running then s.tbu.free + dt * 256 else s.tbu.free } }

/-- Domain time at a value of TBU_FREE, in 2^-16 ns (R75). -/
def domTimeAt (d : Dom) (free : Nat) : Int :=
  free + d.offset + rneDiv (d.rate * ((free : Int) - d.anchor)) (2 ^ 32)

/-- SEL: true selects domain B (R86). -/
def selB (s : State) : Bool := bitOf s.tbu.ctrl 0
def selDom (s : State) : Dom := if selB s then s.tbu.domB else s.tbu.domA

/-- Disciplined time in 2^-16 ns (R75). -/
def discTime (s : State) : Int := domTimeAt (selDom s) s.tbu.free

/-- Disciplined time in whole ns, rounded down. -/
def discNs (s : State) : Int := discTime s / 65536

/-- TAI seconds of a time in 2^-16 ns. -/
def secOf (t : Int) : Nat := (t / (secFr : Int)).toNat
/-- Nanoseconds within the second, rounded down. -/
def nsOf (t : Int) : Nat := (t % (secFr : Int)).toNat / 65536

/-- TS32 of a time: bits [31:0] of ns, rounded down (R103, R107). -/
def ts32Of (t : Int) : Nat := ifld 32 (t / 65536)
def ts32 (s : State) : Nat := ts32Of (discTime s)

/-- The blocks as the present cycle found them, after an operation on them. -/
def onPrior (f : State → State) (s : State) : State := { s with prior := (f s.began).blocks }

/-! Output trace and interrupts (R387 to R389) -/

def emitOut (o : Out) (s : State) : State := { s with out := s.out ++ [o] }

/-- The ring engines and MSI-X may use the bus (R353, R529). -/
def busOn (s : State) : Bool := s.hif.bme && !s.hif.d3hot

/-- HIF_CNT[k] plus `n`, saturating (R394). -/
def hifCnt (k n : Nat) (s : State) : State :=
  { s with hif := { s.hif with cnt := modAt s.hif.cnt k (satAdd · n) } }

/-- A vector's mask bit in the MSI-X table. -/
def vecMasked (s : State) (v : Nat) : Bool := bitOf (nth s.hif.msix (4 * v + 3) 0#32) 0

/-- Send one MSI-X message. -/
def sendMsix (v : Nat) (s : State) : State :=
  let addr := (nth s.hif.msix (4 * v) 0#32).toNat + (nth s.hif.msix (4 * v + 1) 0#32).toNat * 2 ^ 32
  hifCnt 8 1 (emitOut (.msix v addr (nth s.hif.msix (4 * v + 2) 0#32)) s)

/-- A source raises its vector: the message goes out, or a masked vector's pending bit is set (R387). With MSI-X
disabled nothing happens; with the bus off the pending bit keeps the message (DESIGN CHOICE, log 8). -/
def raiseVec (v : Nat) (s : State) : State :=
  if s.hif.msixEn = false then s
  else if s.hif.msixMask || vecMasked s v || !(busOn s) then
    { s with hif := { s.hif with pba := s.hif.pba ||| (1#64 <<< v) } }
  else sendMsix v s

/-- Send the pending message of a vector that may be sent now (R387). -/
def flushVec (v : Nat) (s : State) : State :=
  if s.hif.pba.getLsbD v && s.hif.msixEn && !s.hif.msixMask && !(vecMasked s v) && busOn s then
    sendMsix v { s with hif := { s.hif with pba := s.hif.pba &&& ~~~(1#64 <<< v) } }
  else s

/-- Send every pending message that may be sent. -/
def flushAllVecs (s : State) : State := (List.range 64).foldl (fun s v => flushVec v s) s

/-- Block `b` raises HIF_BLOCK_VEC[b] (R387). -/
def raiseBlock (b : Nat) (s : State) : State := raiseVec (fld (nth s.hif.vec b 0#32).toNat 5 0) s

/-- A sticky event sets: true where the block's vector is raised, once per setting (R387, R391). -/
def newlySet (ev en : Word) (k : Nat) : Bool := !(bitOf ev k) && bitOf en k
def setBit (w : Word) (k : Nat) : Word := w ||| (1#32 <<< k)

def hifEvent (k : Nat) (s : State) : State :=
  let up := newlySet s.hif.event s.hif.eventEn k
  let s := { s with hif := { s.hif with event := setBit s.hif.event k } }
  if up then raiseBlock 1 s else s

/-- A read of host memory failed: DMA_ERR, and the advisory non-fatal error of AER (R353). -/
def dmaErr (s : State) : State := hifEvent 5 { s with hif := { s.hif with advisory := true } }

def tbuEvent (k : Nat) (s : State) : State :=
  let up := newlySet s.tbu.event s.tbu.eventEn k
  let s := { s with tbu := { s.tbu with event := setBit s.tbu.event k } }
  if up then raiseBlock 2 s else s

def logEventBit (k : Nat) (s : State) : State :=
  let up := newlySet s.log.event s.log.eventEn k
  let s := { s with log := { s.log with event := setBit s.log.event k } }
  if up then raiseBlock 12 s else s

def fltEvent (k : Nat) (s : State) : State :=
  let up := newlySet s.flt.event s.flt.eventEn k
  let s := { s with flt := { s.flt with event := setBit s.flt.event k } }
  if up then raiseBlock 11 s else s

/-! Logbook intake (R415, R416) -/

/-- TICK_SEQ of the last committed tick; 0xFFFF_FFFF if none since START (R411). -/
def lastTickSeq (s : State) : Nat := s.tkx.lastSeq.getD 0xFFFFFFFF

/-- The event as it is stamped at entry (R411, R415). -/
def stampEv (event source cls arg : Nat) (s : State) : LogEv :=
  { sec := secOf (discTime s), ns := nsOf (discTime s), epoch := s.tbu.epoch, tickSeq := lastTickSeq s, event := event,
    source := source, cls := cls, runSt := s.sys.runState.code, suspect := s.tbu.suspect, timeSet := s.tbu.timeSet,
    arg := arg, cyc := s.sys.aon }

def logCnt (k n : Nat) (s : State) : State :=
  { s with log := { s.log with cnt := modAt s.log.cnt k (satAdd · n) } }

/-- The event is dropped (R416). -/
def logDrop (source cls : Nat) (s : State) : State :=
  let l := s.log
  let first := l.dropPend = 0
  let s := { s with log := { l with
    dropPend := satN 32 (l.dropPend + 1)
    dropFirst := if first then ts32 s else l.dropFirst
    dropLast := ts32 s
    dropSrc := (if first then 0 else l.dropSrc) ||| 2 ^ source
    dropCls := if first then cls else max l.dropCls cls } }
  let s := logCnt 1 1 s
  if first then logEventBit 0 s else s

/-- An event that entered in the same cycle from a higher SOURCE stands after it (R415), but a DROPPED record enters first (R417). -/
def LogEv.after (x e : LogEv) : Bool := decide (x.cyc = e.cyc) && decide (e.source < x.source) && decide (x.event ≠ 0xF0)

/-- Put an event into the intake queue. -/
def logEnter (e : LogEv) (s : State) : State :=
  let late := (s.log.queue.reverse.takeWhile fun x => x.after e).length
  let k := s.log.queue.length - late
  let q := s.log.queue.take k ++ e :: s.log.queue.drop k
  { s with log := { s.log with queue := q, queueMax := max s.log.queueMax q.length } }

/-- An event reaches the Logbook's intake queue: dropped where the queue is full or a run of drops is open (R416).
`arg` is the ARG field, bits [287:64] of the record. -/
def logEv (event source cls arg : Nat) (s : State) : State :=
  if s.log.active = false then s
  else if 64 ≤ s.log.queue.length ∨ s.log.dropPend ≠ 0 then logDrop source cls s
  else logEnter (stampEv event source cls arg s) s

/-- An ARG layout: rows (lowest bit of the record, width, value) of bits [287:64]. -/
def argOf (l : List (Nat × Nat × Nat)) : Nat := packFields (l.map fun e => (e.1 - 64, e.2.1, e.2.2))

/-! Rings (R357 to R370) -/

def ringOf (s : State) (n : Nat) : Ring := nth s.hif.rings n Ring.reset
def modRing (n : Nat) (f : Ring → Ring) (s : State) : State :=
  { s with hif := { s.hif with rings := modAt s.hif.rings n f } }

def Ring.enabled (r : Ring) : Bool := bitOf r.cfg 31
def Ring.type (r : Ring) : RingType :=
  match fld r.cfg.toNat 30 29 with
  | 0 => .cmd
  | 1 => .compl
  | 2 => .stream
  | _ => .inject
def Ring.size (r : Ring) : Nat := 2 ^ fld r.cfg.toNat 28 24
def Ring.complRing (r : Ring) : Nat := fld r.cfg.toNat 23 18
def Ring.vector (r : Ring) : Nat := fld r.cfg.toNat 17 12
def Ring.irqEn (r : Ring) : Bool := bitOf r.cfg 11
/-- Entries between head and tail (R359, R360). -/
def Ring.used (r : Ring) : Nat := (r.tail + r.size - r.head) % r.size
/-- Free space (R360). -/
def Ring.room (r : Ring) : Nat := r.size - 1 - r.used

/-- The ring raises its VECTOR (R389). -/
def ringIrq (n : Nat) (s : State) : State :=
  let r := ringOf s n
  if r.irqEn then raiseVec r.vector (modRing n (fun r => { r with coalCnt := 0, coalAt := none }) s) else s

/-- One entry or record was written: the conditions of R389. -/
def ringSignal (n : Nat) (urgent : Bool) (s : State) : State :=
  let s := modRing n (fun r => { r with coalCnt := r.coalCnt + 1, coalAt := r.coalAt.orElse fun _ => some s.tbu.free }) s
  let r := ringOf s n
  if urgent || max 1 (fld r.coal.toNat 15 0) ≤ r.coalCnt then ringIrq n s else s

/-- Write the units of a record or completion at tail; PHASE flips where the writing passes the ring's end (R361, R362). -/
def Ring.push (r : Ring) (us : List Unit512) : Ring :=
  let t := r.tail + us.length
  { r with mem := r.mem ++ us, tail := t % r.size, phase := if r.size ≤ t then !r.phase else r.phase }

/-- Reference fields of GAP and TIME_MARK records (R367, R369). -/
def refFields (s : State) : List (Nat × Nat × Nat) :=
  [(352, 8, s.tbu.epoch), (304, 48, secOf (discTime s)), (272, 32, nsOf (discTime s))]

/-- The common record header (R363) but for PHASE, RING and RING_SEQ. -/
def hdr (typ units marks : Nat) : List (Nat × Nat × Nat) := [(48, 8, typ), (38, 10, units), (0, 16, marks)]

/-- A saturating field of an optional TICK_SEQ. -/
def optSeq (t : Option Nat) : Nat := t.getD 0xFFFFFFFF

/-- A GAP record (R367). -/
def gapUnit (g : GapRun) (s : State) : Unit512 :=
  unitOf (hdr 3 1 0 ++ refFields s ++
    [(480, 32, satN 32 g.records), (448, 32, satN 32 g.units), (416, 32, optSeq g.firstT), (384, 32, optSeq g.lastT),
     (383, 1, b2n g.age), (382, 1, b2n g.full), (381, 1, b2n g.off), (360, 16, satN 16 g.alarms)])

/-- A TIME_MARK record (R369). -/
def timeMarkUnit (s : State) : Unit512 := unitOf (hdr 5 1 0 ++ refFields s)

/-- ALARM_SET, ALARM_RETRACT and GAP records raise the vector at once (R389). -/
def urgentType (typ : Nat) : Bool := typ = 0x60 || typ = 0x63 || typ = 3

/-- Write a record into its host ring (R361 to R363). -/
def placeUnits (n typ : Nat) (us : List Unit512) (s : State) : State :=
  let r := ringOf s n
  let u0 := (us.headD 0#512) ||| BitVec.ofNat 512 (b2n r.phase <<< 63 + (n % 64) <<< 32 + r.seq <<< 16)
  let s := modRing n (fun r => { r.push (u0 :: us.drop 1) with seq := (r.seq + 1) % 65536 }) s
  let s := hifCnt 2 1 (hifCnt 3 us.length s)
  let s := if typ = 3 then hifCnt 5 1 (modRing n (fun r => { r with refAt := some (discTime s) }) s) else s
  ringSignal n (urgentType typ) s

def placeRec (n : Nat) (r : Rec) (s : State) : State :=
  placeUnits n r.typ (if r.typ = 5 then [timeMarkUnit s] else r.units) s

def Rec.isAlarm (r : Rec) : Bool := r.typ / 16 = 6

/-- The cause for which a record is lost (R366). -/
inductive Loss where
  | age
  | full
  | off
  deriving DecidableEq, Repr

/-- The run of one lost record. -/
def lostOne (r : Rec) (c : Loss) : GapRun :=
  { records := 1, units := r.units.length, firstT := r.tick, lastT := r.tick, age := c = .age, full := c = .full,
    off := c = .off, alarms := b2n r.isAlarm }

/-- Two runs that meet are one run (R367). -/
def mergeRuns (a b : GapRun) : GapRun :=
  { records := a.records + b.records, units := a.units + b.units, firstT := a.firstT.orElse fun _ => b.firstT,
    lastT := b.lastT.orElse fun _ => a.lastT, age := a.age || b.age, full := a.full || b.full, off := a.off || b.off,
    alarms := a.alarms + b.alarms }

/-- Join neighbouring runs of a staging queue (R367: a run is a maximal set). -/
def joinRuns : List QItem → List QItem
  | [] => []
  | .rcd r :: q => .rcd r :: joinRuns q
  | .lost g :: q =>
    match joinRuns q with
    | .lost h :: q' => .lost (mergeRuns g h) :: q'
    | q' => .lost g :: q'

/-- Count the loss of `k` records on ring n (R366). -/
def countLost (n k : Nat) (s : State) : State :=
  if k = 0 then s else
  hifEvent 2 (hifCnt 4 k (modRing n (fun r => { r with lostCnt := satAdd r.lostCnt k }) s))

/-- Records of a staging queue. -/
def stagedUnits (q : List QItem) : Nat :=
  sumN (q.map fun i => match i with | .rcd r => r.units.length | .lost _ => 0)

/-- The ring engine may write this STREAM ring (R353, R358). -/
def streamOpen (s : State) (n : Nat) : Bool :=
  (ringOf s n).enabled && (ringOf s n).type = .stream && busOn s

/-- The staging queue drains into the host ring in order as room appears; the GAP record of a run goes immediately
before the first later record that reaches the ring (R365, R367). -/
def drainQueue (n : Nat) : Nat → State → State
  | 0, s => s
  | k + 1, s =>
    let r := ringOf s n
    match r.staged with
    | .rcd x :: q =>
      if streamOpen s n && x.units.length ≤ r.room then
        drainQueue n k (placeRec n x (modRing n (fun r => { r with staged := q }) s))
      else s
    | .lost g :: .rcd x :: q =>
      if streamOpen s n && x.units.length + 1 ≤ r.room then
        let s := modRing n (fun r => { r with staged := q }) s
        drainQueue n k (placeRec n x (placeUnits n 3 [gapUnit g s] s))
      else s
    | _ => s

def drainRing (n : Nat) (s : State) : State := drainQueue n (ringOf s n).staged.length s

/-- Lose the newest record of ring n (R366). -/
def loseNew (n : Nat) (r : Rec) (c : Loss) (s : State) : State :=
  let s := countLost n 1 (modRing n (fun g => { g with staged := joinRuns (g.staged ++ [.lost (lostOne r c)]) }) s)
  if c = .full then hifEvent 3 s else s

/-- A record reaches the ring engine of ring n (R362, R365, R366). -/
def handRaw (n : Nat) (r : Rec) (s : State) : State :=
  let g := ringOf s n
  if !(g.enabled && g.type = .stream) then loseNew n r .off s else
  let s := if r.typ = 1 ∨ r.typ = 2 ∨ r.typ = 5 then modRing n (fun g => { g with refAt := some (discTime s) }) s else s
  let waits := g.staged.any fun i => match i with | .rcd _ => true | .lost _ => false
  let gapN := if g.staged.isEmpty then 0 else 1
  if busOn s && !waits && r.units.length + gapN ≤ g.room then
    drainRing n (modRing n (fun g => { g with staged := g.staged ++ [.rcd r] }) s)
  else if stagedUnits g.staged + r.units.length + 1 ≤ fld g.quota.toNat 12 0 * 16384 then
    let s := modRing n (fun g => { g with staged := g.staged ++ [.rcd r] }) s
    if busOn s then s else hifEvent 6 s
  else loseNew n r .full s

/-- The tick period in force in 2^-16 ns, rounded down; `none` where no rate is in force (R366). -/
def periodFr (s : State) : Option Nat := if s.sys.rate = 0 then none else some (secFr / s.sys.rate)

/-- The deadline of a record generated now whose latest TS32 was stamped at `stamp` on TBU_FREE (R366). -/
def deadlineOf (stamp : Option Nat) (s : State) : Nat :=
  let b := (stamp.getD s.tbu.free) + secFr
  match periodFr s with
  | none => b
  | some t => min b (s.tbu.free + fld s.hif.horizon.toNat 12 0 * t)

/-- A TIME_MARK goes first where the ring has no recent reference (R369). -/
def needMark (n : Nat) (s : State) : Bool :=
  let g := ringOf s n
  g.enabled && g.type = .stream &&
    match g.refAt with
    | none => true
    | some t => decide ((secFr : Int) < discTime s - t)

/-! TICK_MARKS bits (R58) -/
def markFinal : Nat := 1
def markIncomplete : Nat := 2
def markSkipped : Nat := 4
def markDeferred : Nat := 8
def markApprox : Nat := 16
def markSuspect : Nat := 32
def markInvalid : Nat := 64

/-- Set marks in a record's common header. -/
def markUnits (m : Nat) : List Unit512 → List Unit512
  | u :: r => (u ||| BitVec.ofNat 512 m) :: r
  | [] => []

/-- Records of a tick's work, which a module in SYNCING does not write (R490, R493, R494). -/
def muted (typ : Nat) (s : State) : Bool :=
  s.pair.st = .syncing && (typ = 1 || decide (0x10 ≤ typ ∧ typ ≤ 0x51) || decide (0x60 ≤ typ ∧ typ ≤ 0x63))

/-- A producer hands a record to ring n: units with the common header filled but for PHASE, RING and RING_SEQ. `stamp` is
the instant on TBU_FREE of its latest TS32 field, `none` where none is stamped (R366); an ALIGNED record has the field even so (R369).
In SAFE it carries INVALID (R431). -/
def handRec (n typ : Nat) (us : List Unit512) (stamp : Option Nat) (tick : Option Nat) (s : State) : State :=
  if muted typ s then s else
  let us := if s.sys.runState = .safe then markUnits markInvalid us else us
  let isRef := typ = 1 ∨ typ = 2 ∨ typ = 3 ∨ typ = 5
  let s := if (stamp.isSome || decide (typ = 0x10)) && !(decide isRef) && needMark n s then
      handRaw n { typ := 5, units := [timeMarkUnit s], tick := none, deadline := deadlineOf none s } s
    else s
  handRaw n { typ := typ, units := us, tick := tick, deadline := deadlineOf stamp s } s

/-- Every enabled STREAM ring (R100). -/
def streamRings (s : State) : List Nat :=
  idxWhere 64 fun n => (ringOf s n).enabled && (ringOf s n).type = .stream

/-! Completions (R358, R370, R373) -/

/-- Status codes (R13). -/
inductive Status where
  | ok
  | param
  | state
  | past
  | nospace
  | auth
  | keyRevoked
  | image
  | busy
  | internal
  deriving DecidableEq, Repr

def Status.code : Status → Nat
  | .ok => 0x00
  | .param => 0x10
  | .state => 0x11
  | .past => 0x12
  | .nospace => 0x13
  | .auth => 0x14
  | .keyRevoked => 0x15
  | .image => 0x16
  | .busy => 0x17
  | .internal => 0x1F

/-- A completion but for PHASE (R373). -/
def complBits (c : Ctx) (st : Status) (late : Bool) (tick : Option Nat) (result : Nat) (s : State) : Compl256 :=
  BitVec.ofNat 256 (packFields
    [(240, 8, st.code), (232, 8, c.opcode), (226, 6, c.ring), (225, 1, b2n late), (224, 1, b2n tick.isSome),
     (208, 16, c.index), (176, 32, c.tag.toNat), (144, 32, tick.getD 0), (112, 32, ts32 s), (104, 8, s.tbu.epoch),
     (0, 96, result)])

/-- Write one completion at tail and release its reservation (R361, R370). -/
def writeCompl (n : Nat) (b : Compl256) (irq : Bool) (s : State) : State :=
  let r := ringOf s n
  let u := (b ||| BitVec.ofNat 256 (b2n r.phase <<< 255)).zeroExtend 512
  ringSignal n irq (hifCnt 1 1 (modRing n (fun r => { r.push [u] with reserved := r.reserved - 1 }) s))

/-- Completions can be written to this ring now (R353, R358). -/
def complOpen (s : State) (n : Nat) : Bool :=
  (ringOf s n).enabled && (ringOf s n).type = .compl && busOn s

/-- Held completions are written first, in the order in which they fell due, as room appears (R358). -/
def drainHeldN (n : Nat) : Nat → State → State
  | 0, s => s
  | k + 1, s =>
    let r := ringOf s n
    match r.held with
    | (b, irq) :: q =>
      if complOpen s n && 0 < r.room then
        drainHeldN n k (writeCompl n b irq (modRing n (fun r => { r with held := q }) s))
      else s
    | [] => s

def drainHeld (n : Nat) (s : State) : State := drainHeldN n (ringOf s n).held.length s

/-- A completion falls due: written, held while its ring cannot take it (R358), or discarded after PERST_N (R528). -/
def completeWith (c : Ctx) (st : Status) (late : Bool) (tick : Option Nat) (result : Nat) (s : State) : State :=
  let s := if st = .state then hifCnt 7 1 s else s
  if c.discard then s else
  let b := complBits c st late tick result s
  let s := if c.blocks then modRing c.ring (fun r => { r with blocked := false }) s else s
  drainHeld c.compl (modRing c.compl (fun r => { r with held := r.held ++ [(b, c.irq)] }) s)

/-- A completion with RESULT 0 and no tick. -/
def complete (c : Ctx) (st : Status) (s : State) : State := completeWith c st false none 0 s

/-! Run state (R32, R414) -/

/-- A change of run state with its Logbook record: opcode of the cause, 0xFF a fault, 0xFE the end of start-up. -/
def setRunState (r : RunState) (cause : Nat) (s : State) : State :=
  let old := s.sys.runState
  let s := { s with sys := { s.sys with runState := r } }
  if r = .init then s else
  logEv 3 0 0 (argOf [(285, 3, old.code), (282, 3, r.code), (274, 8, cause)]) s

/-- Draw the next free value's index (log 2). -/
def drawFree (s : State) : Nat × State := (s.freeCtr, { s with freeCtr := s.freeCtr + 1 })

end Sys2Proof.Machine
end

