-- ==== Sys2Proof/Machine/Logbook.lean ====
section
/-! DEFINITION. The Logbook: writing, clearing, exporting and reading records (R410 to R425). -/

namespace Sys2Proof.Machine

/-- Number of Logbook indices (R410). -/
def logSize : Nat := 1048576

/-- Bits [511:64] of the record of an event (R411). -/
def logBody (e : LogEv) (seq : Nat) : Nat :=
  packFields [(448, 64, seq), (400, 48, e.sec), (368, 32, e.ns), (360, 8, e.epoch), (328, 32, e.tickSeq), (312, 16, e.event),
    (308, 4, e.source), (306, 2, e.cls), (303, 3, e.runSt), (302, 1, b2n e.suspect), (301, 1, b2n e.timeSet),
    (64, 224, e.arg)]

/-- A complete record: CHECK over bits [511:64], little-endian bytes, and VALID (R411, R412). -/
def logRecord (e : LogEv) (seq : Nat) : Unit512 :=
  let b := logBody e seq
  BitVec.ofNat 512 (b + (crc32 (toLE 56 (b >>> 64))).toNat <<< 32 + 1)

/-- Events that carry a TS32 in their record: FAULT and DROPPED (R433, R417). -/
def evHasTs (event : Nat) : Bool := event = 0x20 || event = 0xF0

/-- A record is complete: VALID (R412). -/
def recValid (u : Unit512) : Bool := u.getLsbD 0
/-- The event code of a record. -/
def recEvent (u : Unit512) : Nat := fld u.toNat 327 312
def recSeq (u : Unit512) : Nat := fld u.toNat 511 448

/-- A LOG_RECORD (R423). -/
def handLogRecord (ring : Nat) (u : Unit512) (s : State) : State :=
  let u0 := unitOf (hdr 0x70 2 0 ++ [(448, 64, recSeq u)])
  handRec ring 0x70 [u0, u] (if evHasTs (recEvent u) then some s.tbu.free else none) none s

/-- Store one record: SEQ, index, overwriting, streaming (R410, R412, R413, R423). -/
def logStore (e : LogEv) (s : State) : State :=
  let seq := s.log.seqNext
  let idx := (seq - 1) % logSize
  let u := logRecord e seq
  let taken := (lookupK s.log.recs idx).any recValid
  let s := { s with log := { s.log with recs := insertK s.log.recs idx u, seqNext := seq + 1 } }
  let s := logCnt 0 1 s
  let s := if e.event = 0xF0 then logCnt 2 1 s else s
  let s := if taken then
      let w := s.log.wrapped
      let s := logCnt 3 1 { s with log := { s.log with wrapped := true, oldest := max s.log.oldest (seq + 1 - logSize) } }
      if w then s else logEventBit 1 s
    else s
  if bitOf s.log.stream 6 then handLogRecord (fld s.log.stream.toNat 5 0) u s else s

/-- With the queue at 48 or fewer and drops pending, one DROPPED record enters (R417). -/
def logDropped (s : State) : State :=
  let l := s.log
  if l.dropPend ≠ 0 ∧ l.queue.length ≤ 48 then
    let arg := argOf [(256, 32, l.dropPend), (224, 32, l.dropFirst), (192, 32, l.dropLast), (176, 16, l.dropSrc),
      (174, 2, l.dropCls)]
    let q := l.queue ++ [stampEv 0xF0 12 0 arg s]
    { s with log := { l with queue := q, queueMax := max l.queueMax q.length, dropPend := 0, dropSrc := 0, dropCls := 0 } }
  else s

/-- The writer stores the next queued event (R412, R415, R417). -/
def logWriteNext (s : State) : State :=
  match s.log.queue with
  | [] => logDropped s
  | e :: q => logDropped (logStore e { s with log := { s.log with queue := q } })

/-- The writer stores so many events of the queue. -/
def logFlushN : Nat → State → State
  | 0, s => s
  | k + 1, s => logFlushN k (logWriteNext s)

/-- LOG_CLEAR (R421): answers the SEQ of the LOG_CLEARED record. VALID is 0 at every index. Events already queued, and the DROPPED record of a
run, are written before it, as SEQ order is event order (R413). -/
def logClear (s : State) : Nat × State :=
  let s := logFlushN (s.log.queue.length + 2) s
  let n := (s.log.recs.filter fun e => recValid e.2).length
  let seq := s.log.seqNext
  let s := { s with log := { s.log with recs := s.log.recs.map fun e => (e.1, e.2 &&& ~~~1#512), oldest := seq, wrapped := false } }
  let s := logStore (stampEv 0xF1 12 0 (argOf [(256, 32, n), (192, 64, seq)]) s) s
  (seq, logEventBit 2 (logDropped s))

/-- A SEQ is in the Logbook (R419). -/
def logPresent (s : State) (seq : Nat) : Option Unit512 :=
  match lookupK s.log.recs ((seq - 1) % logSize) with
  | some u => if recValid u && recSeq u = seq then some u else none
  | none => none

/-- Export of SEQ values in ascending order (R422): exported, skipped. -/
def logExportN (ring : Nat) : Nat → Nat → Nat × Nat × State → Nat × Nat × State
  | 0, _, a => a
  | k + 1, seq, (e, sk, s) =>
    match logPresent s seq with
    | some u => logExportN ring k (seq + 1) (e + 1, sk, handLogRecord ring u s)
    | none => logExportN ring k (seq + 1) (e, sk + 1, s)

/-- Word `j` of the record at an index, as it stands in DRAM (R418). -/
def logWindowWord (s : State) (k : Nat) : Word :=
  let idx := (fld s.log.cursor.toNat 19 0 + k / 16) % logSize
  match lookupK s.log.recs idx with
  | some u => BitVec.ofNat 32 (u.toNat >>> (32 * (k % 16)))
  | none => 0#32

end Sys2Proof.Machine
end

