-- ==== Sys2Proof/Machine/Float.lean ====
section
/-! DEFINITION. IEEE 754 binary32 and binary64 in exact arithmetic, rounded to nearest with ties to even. -/

namespace Sys2Proof.Machine

/-- A binary format: fraction bits and exponent bits. -/
structure Fmt where
  m : Nat
  e : Nat
  deriving DecidableEq, Repr

def f32 : Fmt := ⟨23, 8⟩
def f64 : Fmt := ⟨52, 11⟩

def Fmt.bits (f : Fmt) : Nat := 1 + f.e + f.m
def Fmt.bias (f : Fmt) : Int := 2 ^ (f.e - 1) - 1
/-- The least exponent of a normal number. -/
def Fmt.emin (f : Fmt) : Int := 1 - f.bias
def Fmt.infBits (f : Fmt) : Nat := (2 ^ f.e - 1) <<< f.m
/-- The quiet NaN that results carry. -/
def Fmt.nanBits (f : Fmt) : Nat := f.infBits + 2 ^ (f.m - 1)

/-- The value a pattern stands for; a finite value is mant times 2^ex, negated where neg. -/
inductive FVal where
  | nan
  | inf (neg : Bool)
  | fin (neg : Bool) (mant : Nat) (ex : Int)
  deriving DecidableEq, Repr

/-- The value of a pattern of a format. -/
def fdec (f : Fmt) (b : Nat) : FVal :=
  let neg := b.testBit (f.m + f.e)
  let ex := (b >>> f.m) % 2 ^ f.e
  let fr := b % 2 ^ f.m
  if ex = 2 ^ f.e - 1 then (if fr = 0 then .inf neg else .nan)
  else if ex = 0 then .fin neg fr (f.emin - f.m)
  else .fin neg (fr + 2 ^ f.m) (f.emin - f.m + (ex - 1 : Nat))

/-- Natural quotient by a power of two, rounded to nearest, ties to even. -/
def rneShift (n k : Nat) : Nat :=
  if k = 0 then n else
  let q := n >>> k
  let r := n % 2 ^ k
  let h := 2 ^ (k - 1)
  if r < h then q else if r > h then q + 1 else q + q % 2

/-- The pattern nearest to a finite value, ties to even; overflow gives infinity. -/
def fround (f : Fmt) (neg : Bool) (n : Nat) (ex : Int) : Nat :=
  let s := if neg then 2 ^ (f.m + f.e) else 0
  if n = 0 then s else
  let top := (Nat.log2 n : Int) + ex
  let t := max top f.emin - f.m
  let q := if t ≤ ex then n <<< (ex - t).toNat else rneShift n (t - ex).toNat
  let body := if top < f.emin then q else ((top - f.emin).toNat <<< f.m) + q
  if body ≥ f.infBits then s + f.infBits else s + body

/-- The pattern of a value. -/
def fenc (f : Fmt) : FVal → Nat
  | .nan => f.nanBits
  | .inf neg => (if neg then 2 ^ (f.m + f.e) else 0) + f.infBits
  | .fin neg n ex => fround f neg n ex

/-- The signed mantissa at an exponent not above the value's own. -/
def scaled (neg : Bool) (n : Nat) (ex low : Int) : Int :=
  let v : Int := (n <<< (ex - low).toNat : Nat)
  if neg then -v else v

/-- The exact sum of two values. -/
def vadd : FVal → FVal → FVal
  | .nan, _ => .nan
  | _, .nan => .nan
  | .inf a, .inf b => if a = b then .inf a else .nan
  | .inf a, .fin _ _ _ => .inf a
  | .fin _ _ _, .inf b => .inf b
  | .fin a n e, .fin b m d =>
    let t := min e d
    let r := scaled a n e t + scaled b m d t
    if r = 0 then .fin (if n = 0 ∧ m = 0 then a && b else false) 0 t else .fin (r < 0) r.natAbs t

def vneg : FVal → FVal
  | .nan => .nan
  | .inf a => .inf (!a)
  | .fin a n e => .fin (!a) n e

def vabs : FVal → FVal
  | .nan => .nan
  | .inf _ => .inf false
  | .fin _ n e => .fin false n e

/-- The exact product of two values. -/
def vmul : FVal → FVal → FVal
  | .nan, _ => .nan
  | _, .nan => .nan
  | .inf a, .inf b => .inf (a != b)
  | .inf a, .fin b m _ => if m = 0 then .nan else .inf (a != b)
  | .fin a n _, .inf b => if n = 0 then .nan else .inf (a != b)
  | .fin a n e, .fin b m d => .fin (a != b) (n * m) (e + d)

/-- The rounded sum of two patterns. -/
def fadd (f : Fmt) (x y : Nat) : Nat := fenc f (vadd (fdec f x) (fdec f y))
def fneg (f : Fmt) (x : Nat) : Nat := fenc f (vneg (fdec f x))
def fabs (f : Fmt) (x : Nat) : Nat := fenc f (vabs (fdec f x))
def fsub (f : Fmt) (x y : Nat) : Nat := fenc f (vadd (fdec f x) (vneg (fdec f y)))
def fmul (f : Fmt) (x y : Nat) : Nat := fenc f (vmul (fdec f x) (fdec f y))
/-- Fused multiply-add: one rounding. -/
def ffma (f : Fmt) (x y z : Nat) : Nat := fenc f (vadd (vmul (fdec f x) (fdec f y)) (fdec f z))

/-- The rounded quotient of two values. -/
def fdivV (f : Fmt) : FVal → FVal → Nat
  | .nan, _ => f.nanBits
  | _, .nan => f.nanBits
  | .inf _, .inf _ => f.nanBits
  | .inf a, .fin b _ _ => fenc f (.inf (a != b))
  | .fin a _ _, .inf b => fround f (a != b) 0 0
  | .fin a n e, .fin b m d =>
    if m = 0 then (if n = 0 then f.nanBits else fenc f (.inf (a != b)))
    else if n = 0 then fround f (a != b) 0 0
    else
      let k := f.m + 3 + Nat.log2 m
      let q := (n <<< k) / m
      let r := (n <<< k) % m
      fround f (a != b) (2 * q + (if r = 0 then 0 else 1)) (e - d - k - 1)

def fdiv (f : Fmt) (x y : Nat) : Nat := fdivV f (fdec f x) (fdec f y)

/-- Integer square root by bits from `2^k` down. -/
def isqrtBits : Nat → Nat → Nat → Nat
  | 0, _, r => r
  | k + 1, n, r =>
    let c := r + 2 ^ k
    isqrtBits k n (if c * c ≤ n then c else r)

/-- Integer square root. -/
def isqrt (n : Nat) : Nat := isqrtBits (Nat.log2 n / 2 + 1) n 0

/-- The rounded square root of a value. -/
def fsqrtV (f : Fmt) : FVal → Nat
  | .nan => f.nanBits
  | .inf a => if a then f.nanBits else f.infBits
  | .fin a n e =>
    if n = 0 then fround f a 0 0 else if a then f.nanBits else
    let k0 := 2 * f.m + 6
    let k := if (e - k0) % 2 = 0 then k0 else k0 + 1
    let q := isqrt (n <<< k)
    fround f false (2 * q + (if q * q = n <<< k then 0 else 1)) ((e - k) / 2 - 1)

def fsqrt (f : Fmt) (x : Nat) : Nat := fsqrtV f (fdec f x)

/-- Conversion between formats. -/
def fconv (src dst : Fmt) (x : Nat) : Nat := fenc dst (fdec src x)

/-- A whole number rounded into a format. -/
def fofInt (f : Fmt) (i : Int) : Nat := fround f (i < 0) i.natAbs 0

/-- A quotient of whole numbers rounded once into a format. -/
def fofRat (f : Fmt) (p : Int) (q : Nat) : Nat := fdivV f (.fin (p < 0) p.natAbs 0) (.fin false q 0)

def fisNan (f : Fmt) (x : Nat) : Bool := fdec f x = .nan
def fisFinite (f : Fmt) (x : Nat) : Bool := match fdec f x with | .fin _ _ _ => true | _ => false

/-- The order of two values: `none` where one is a NaN. -/
def vcmp : FVal → FVal → Option Ordering
  | .nan, _ => none
  | _, .nan => none
  | .inf a, .inf b => some (if a = b then .eq else if a then .lt else .gt)
  | .inf a, .fin _ _ _ => some (if a then .lt else .gt)
  | .fin _ _ _, .inf b => some (if b then .gt else .lt)
  | .fin a n e, .fin b m d =>
    let t := min e d
    some (compare (scaled a n e t) (scaled b m d t))

def flt (f : Fmt) (x y : Nat) : Bool := vcmp (fdec f x) (fdec f y) = some .lt
def fle (f : Fmt) (x y : Nat) : Bool :=
  vcmp (fdec f x) (fdec f y) = some .lt || vcmp (fdec f x) (fdec f y) = some .eq
def fgt (f : Fmt) (x y : Nat) : Bool := flt f y x
def fge (f : Fmt) (x y : Nat) : Bool := fle f y x
def feq (f : Fmt) (x y : Nat) : Bool := vcmp (fdec f x) (fdec f y) = some .eq

/-- A positive normal number (R252). -/
def fposNormal (f : Fmt) (x : Nat) : Bool :=
  !(x.testBit (f.m + f.e)) && (x >>> f.m) % 2 ^ f.e ≠ 0 && (x >>> f.m) % 2 ^ f.e ≠ 2 ^ f.e - 1

/-- The nearest whole number to a finite value, ties to even; 0 for NaN and infinity. -/
def ftoInt (f : Fmt) (x : Nat) : Int :=
  match fdec f x with
  | .fin neg n ex =>
    let v : Int := if 0 ≤ ex then (n <<< ex.toNat : Nat) else (rneShift n (-ex).toNat : Nat)
    if neg then -v else v
  | _ => 0

/-- The whole part toward minus infinity of a finite value times 2^k; 0 for NaN and infinity. -/
def ffloorScaled (f : Fmt) (x : Nat) (k : Nat) : Int :=
  match fdec f x with
  | .fin neg n ex =>
    let e2 := ex + k
    let v : Int := if 0 ≤ e2 then (n <<< e2.toNat : Nat) else 0
    if 0 ≤ e2 then (if neg then -v else v)
    else (if neg then -(n : Int) else n) / ((2 ^ (-e2).toNat : Nat) : Int)
  | _ => 0

end Sys2Proof.Machine
end

