-- ==== Sys2Proof/Machine/Elementary.lean ====
section
/-! DEFINITION. Angle, logarithm, cosine and sine in binary64 (R161, R223, R288, R297): the real value by a series in fixed point, then one of the
two binary64 neighbours of that value. Which of the two is a free choice, for the spec gives no algorithm (log 2). Fixed point of scale s
holds x as the whole part of x times 2^s. -/

namespace Sys2Proof.Machine

/-- Terms t / (2i + 1) of the series of the inverse tangent (alternating) or of its hyperbolic form, t falling by the factor x². -/
def oddSeries (alt : Bool) (s x2 : Nat) : Nat → Nat → Nat → Int
  | 0, _, _ => 0
  | k + 1, i, t =>
    let y : Int := (t / (2 * i + 1) : Nat)
    (if alt && decide (i % 2 = 1) then -y else y) + oddSeries alt s x2 k (i + 1) ((t * x2) >>> s)

/-- Alternating terms with factorials: of the sine for a = 2, of the cosine for a = 1. -/
def facSeries (s x2 a : Nat) : Nat → Nat → Nat → Int
  | 0, _, _ => 0
  | k + 1, i, t =>
    (if i % 2 = 1 then -(t : Int) else t) + facSeries s x2 a k (i + 1) (((t * x2) >>> s) / ((2 * i + a) * (2 * i + a + 1)))

/-- atan (n / d) for n / d at most ½. -/
def atanSmall (s n d : Nat) : Nat :=
  let x := (n <<< s) / d
  (oddSeries true s ((x * x) >>> s) (s / 2 + 4) 0 x).toNat

/-- atan (n / d) for n ≤ d, by its distance from atan ½ where n / d lies above ½. -/
def atanFix (s n d : Nat) : Nat :=
  if 2 * n ≤ d then atanSmall s n d else atanSmall s 1 2 + atanSmall s (2 * n - d) (2 * d + n)

/-- π = 4 (atan ½ + atan ⅓). -/
def piFix (s : Nat) : Nat := 4 * (atanSmall s 1 2 + atanSmall s 1 3)

/-- 2 atanh (n / d) for n / d at most ⅓: the logarithm of (d + n) / (d - n). -/
def lnFix (s n d : Nat) : Nat :=
  let x := (n <<< s) / d
  2 * (oddSeries false s ((x * x) >>> s) (s / 3 + 4) 0 x).toNat

/-- A neighbour in binary64 of a value just below v times 2^-s: the one above it where `up`. -/
def faithful (up neg : Bool) (v s : Nat) : Nat :=
  let w := v - 1
  let t := max ((Nat.log2 w : Int) - s) f64.emin - 52
  let k := t + s
  let q := if k ≤ 0 then w <<< (-k).toNat else w >>> k.toNat
  fround f64 neg (if up then q + 1 else q) t

def w64 (x : Nat) : BitVec 64 := BitVec.ofNat 64 x

/-- The functions, as the free choices name them. -/
inductive Elem where
  | arg
  | ln
  | cos
  | sin
  deriving DecidableEq, Repr

def Elem.code : Elem → Nat
  | .arg => 0
  | .ln => 1
  | .cos => 2
  | .sin => 3

/-- The neighbour taken, and the value of a function where the spec states none. -/
def Elem.up (f : Elem) (x y : Nat) : Bool := Config.roundsUp f.code (w64 x) (w64 y)
def Elem.open_ (f : Elem) (x y : Nat) : Nat := (Config.elemFree f.code (w64 x) (w64 y)).toNat

/-- The greatest binary64 number not above π. -/
def pi64 : Nat := 0x400921FB54442D18

/-- The angle of a re + j im with finite parts a · 2^-e and b · 2^-e, not both 0, from the half plane that `neg` says. -/
def argFin (up negIm negRe : Bool) (a b : Nat) : Nat :=
  if a = 0 then (if negRe then pi64 else 0) else
  let s := 256 + (Nat.log2 (max a b) - Nat.log2 (min a b))
  let q := if a ≤ b then atanFix s a b else piFix s / 2 - atanFix s b a
  let r := faithful up false (if negRe then piFix s - q else q) s
  (if negIm then 2 ^ 63 else 0) + min r pi64

/-- arg of re + j im in (−π, π] (R223, R297). The spec states no angle of 0 nor of an infinite part: there the value in that range is free. -/
def arg64 (im re : Nat) : Nat :=
  match fdec f64 im, fdec f64 re with
  | .fin si n e, .fin sr m d =>
    if n = 0 ∧ m = 0 then free else
    let t := min e d
    argFin (Elem.arg.up im re) si sr (n <<< (e - t).toNat) (m <<< (d - t).toNat)
  | _, _ => free
where
  free : Nat :=
    let v := Elem.arg.open_ im re
    if fle f64 (fabs f64 v) pi64 then v else 0

/-- The natural logarithm of a positive number; of any other value free. -/
def ln64 (x : Nat) : Nat :=
  match fdec f64 x with
  | .fin false n e =>
    if n = 0 then Elem.ln.open_ x 0 else
    let l := Nat.log2 n
    let v : Int := (e + l) * (lnFix 320 1 3 : Nat) + (lnFix 320 (n - 2 ^ l) (n + 2 ^ l) : Nat)
    if v = 0 then 0 else faithful (Elem.ln.up x 0) (decide (v < 0)) v.natAbs 320
  | _ => Elem.ln.open_ x 0

/-- Sine or cosine in the quadrant q past a multiple of 2π, of the rest r. -/
def quadrant (s q r : Nat) : Nat :=
  let x2 := (r * r) >>> s
  if q % 2 = 0 then (facSeries s x2 2 (s / 4 + 30) 0 r).toNat else (facSeries s x2 1 (s / 4 + 30) 0 (1 <<< s)).toNat

/-- The quadrant and the rest of a finite angle n · 2^e, with their scale. -/
def reduce (n : Nat) (e : Int) : Nat × Nat × Nat :=
  let s := 400 + ((Nat.log2 n : Int) + e).natAbs
  let x := n <<< (e + s).toNat
  let h := piFix s / 2
  (s, x / h % 4, x % h)

def sin64 (x : Nat) : Nat :=
  match fdec f64 x with
  | .fin neg n e =>
    if n = 0 then x else
    let (s, q, r) := reduce n e
    faithful (Elem.sin.up x 0) (neg != decide (2 ≤ q)) (quadrant s q r) s
  | _ => Elem.sin.open_ x 0

def cos64 (x : Nat) : Nat :=
  match fdec f64 x with
  | .fin _ n e =>
    if n = 0 then fofInt f64 1 else
    let (s, q, r) := reduce n e
    faithful (Elem.cos.up x 0) (q = 1 || q = 2) (quadrant s (q + 1) r) s
  | _ => Elem.cos.open_ x 0

end Sys2Proof.Machine
end

