-- ==== Sys2Proof/Machine/Filter.lean ====
section
/-! DEFINITION. One chain of the Separator: input samples, the filter, output samples, comparators (R223 to R239). -/

namespace Sys2Proof.Machine

/-! Fields of a chain entry (R221) -/
def Chain.f (c : Chain) (hi lo : Nat) : Nat := fld c.entry.toNat hi lo
def Chain.srcA (c : Chain) : Nat := c.f 511 480
def Chain.srcB (c : Chain) : Nat := c.f 479 448
def Chain.chanA (c : Chain) : Nat := c.f 447 440
def Chain.chanB (c : Chain) : Nat := c.f 439 432
def Chain.component (c : Chain) : Nat := c.f 431 429
def Chain.shift (c : Chain) : Int := (BitVec.ofNat 7 (c.f 428 422)).toInt
def Chain.offset (c : Chain) : Nat := c.f 421 390
def Chain.decim (c : Chain) : Nat := c.f 389 384
def Chain.filter (c : Chain) : Nat := c.f 383 381
def Chain.taps (c : Chain) : Nat := c.f 380 373
def Chain.invMissing (c : Chain) : Bool := c.f 372 372 = 1
def Chain.outEn (c : Chain) : Bool := c.f 371 371 = 1
def Chain.coefLock (c : Chain) : Bool := c.f 370 370 = 1
def Chain.upperEn (c : Chain) : Bool := c.f 223 223 = 1
def Chain.lowerEn (c : Chain) : Bool := c.f 222 222 = 1
def Chain.holdOn (c : Chain) : Nat := c.f 239 232
def Chain.holdOff (c : Chain) : Nat := c.f 231 224
/-- The chain owns a bank pair (R234). -/
def Chain.ownsPair (c : Chain) : Bool := c.filter = 4 || !c.coefLock

/-- Taps of the presets (R229). -/
def presetTaps : Nat → Nat
  | 0 => 15
  | 1 => 47
  | 2 => 127
  | 3 => 255
  | _ => 0

/-- h[M] that makes the N raw coefficients sum to 8,388,608, from the M before it. -/
def centreFor (side : List Int) : Int := 8388608 - 2 * sumI side

/-- Stored coefficients of a preset: the ROM's, which the spec does not list but for their sum, a DC gain of exactly 1 (R229; free, log 2).
Where the free ones leave no h[M] of 24 bits, all but h[M] are equal. -/
def presetCoefs (p : Nat) : List Int :=
  let m := (presetTaps p - 1) / 2
  let side := (List.range m).map fun k => (Config.romCoef p k).toInt
  let flat := List.replicate m (8388608 / (2 * m + 1) : Int)
  let side := if satI 24 (centreFor side) = centreFor side then side else flat
  side ++ [centreFor side]

/-- Stored coefficients and length in use. -/
def Chain.coefs (c : Chain) : List Int :=
  if c.ownsPair then (if c.actB then c.bankB else c.bankA) else presetCoefs c.filter
def Chain.n (c : Chain) : Nat :=
  if c.ownsPair then (if c.actB then c.nB else c.nA) else presetTaps c.filter

/-- A finite value times 2^k rounded to an integer, ties to even, and limited to 32 bits: value and whether it saturated (R224). -/
def quant (v : FVal) (k : Int) : Int × Bool :=
  match v with
  | .fin neg n ex =>
    let e := ex + k
    let m : Int := if 0 ≤ e then (n <<< e.toNat : Nat) else rneDiv n (2 ^ (-e).toNat)
    let i := if neg then -m else m
    (satI 32 i, decide (satI 32 i ≠ i))
  | _ => (0, false)

/-- Input sample of a finite v (R224). -/
def Chain.sample (c : Chain) (v : Nat) : Int × Bool :=
  quant (vadd (fdec f32 v) (vneg (fdec f32 c.offset))) c.shift

/-- A level in the chain's fixed-point scale (R238). -/
def Chain.levelQ (c : Chain) (level : Nat) : Int := (c.sample level).1
def Chain.hystQ (c : Chain) (hyst : Nat) : Int := (quant (fdec f32 hyst) c.shift).1

def re32 (d : Dword) : Nat := d.toNat % 2 ^ 32
def im32 (d : Dword) : Nat := d.toNat / 2 ^ 32
def to64 (x : Nat) : Nat := fconv f32 f64 x
def to32 (x : Nat) : Nat := fconv f64 f32 x

/-- The quantity v of R223 from the slots of A and B. -/
def quantity (comp : Nat) (a b : Dword) : Nat :=
  let ar := to64 (re32 a)
  let ai := to64 (im32 a)
  let br := to64 (re32 b)
  let bi := to64 (im32 b)
  let p := fadd f64 (fmul f64 ar br) (fmul f64 ai bi)
  let q := fsub f64 (fmul f64 ai br) (fmul f64 ar bi)
  match comp with
  | 0 => re32 a
  | 1 => im32 a
  | 2 => to32 (fsqrt f64 (fadd f64 (fmul f64 ar ar) (fmul f64 ai ai)))
  | 3 => to32 (arg64 ai ar)
  | 4 => to32 (arg64 q p)
  | 5 => to32 p
  | _ => to32 q

/-- The parts of the slots that a component reads hold a NaN (R225). -/
def readsNan (comp : Nat) (a b : Dword) : Bool :=
  let na := fisNan f32 (re32 a)
  let ia := fisNan f32 (im32 a)
  let nb := fisNan f32 (re32 b) || fisNan f32 (im32 b)
  match comp with
  | 0 => na
  | 1 => ia
  | 2 | 3 => na || ia
  | _ => na || ia || nb

/-- The empty slot (R192). -/
def nanSlot : Dword := 0x7FC000007FC00000#64

/-- An endpoint's slot of a channel, its quality byte, in a view. -/
def slotOf (view : List (Nat × EpVal)) (ep ch : Nat) : Dword × Byte :=
  match lookupK view ep with
  | some e => (nth e.vals ch nanSlot, e.quality)
  | none => (nanSlot, 0#8)

/-- Push a sample into the delay line. -/
def Chain.push (c : Chain) (x : Smp) : Chain :=
  { c with line := (x :: c.line).take 255, warm := min 65535 (c.warm + 1) }

/-- A replacement sample (R225). -/
def Chain.pushSubst (c : Chain) (q : Byte) : Chain :=
  c.push { x := c.lastTrue, subst := true, satIn := false, qual := q }

/-- `m` replacement samples of a gap (R226). -/
def Chain.fill (c : Chain) : Nat → Chain
  | 0 => c
  | m + 1 => (c.pushSubst 0#8).fill m

def Chain.fillGap (c : Chain) (m : Nat) : Chain :=
  if 255 ≤ m then
    { c with line := List.replicate 255 { x := c.lastTrue, subst := true, satIn := false, qual := 0#8 }
             warm := min 65535 (c.warm + m) }
  else c.fill m

/-- The chain takes its input sample of the tick (R223 to R225): true where it was replaced, true where it saturated. -/
def Chain.take (c : Chain) (epA epB : Nat) (view : List (Nat × EpVal)) : Chain × Bool × Bool :=
  let (a, qa) := slotOf view epA c.chanA
  let two := decide (4 ≤ c.component)
  let (b, qb0) := slotOf view epB c.chanB
  let qb := if two then qb0 else qa
  let q := qa ||| qb
  let absent := !(qa.getLsbD 0) || !(qb.getLsbD 0)
  let inval := c.invMissing && (q.getLsbD 2)
  let v := quantity c.component a b
  if absent || inval || readsNan c.component a b || !(fisFinite f32 v) then (c.pushSubst q, true, false)
  else
    let (x, sat) := c.sample v
    ({ (c.push { x := x, subst := false, satIn := sat, qual := q }) with lastTrue := x }, false, sat)

/-- The accumulator of R230 over the span, newest first. -/
def firAcc (h : List Int) (n : Nat) (line : List Smp) : Int :=
  let m := (n - 1) / 2
  let x := fun k => (nth (line.map Smp.x) k 0)
  sumI ((List.range m).map fun k => nth h k 0 * (x k + x (n - 1 - k))) + nth h m 0 * x m

def anySpan (p : Smp → Bool) (l : List Smp) : Bool := l.any p
def qualBit (k : Nat) (l : List Smp) : Bool := l.any fun s => s.qual.getLsbD k

/-- The span's samples; samples before the reset count as neither replaced nor saturated. -/
def Chain.span (c : Chain) : List Smp := c.line.take c.n

/-- FLAGS of an output but for the comparator states (R231). -/
def Chain.outFlags (c : Chain) (satOut swapped : Bool) : Nat :=
  let sp := c.span
  let subst := sp.any Smp.subst
  let warming := decide (c.warm < c.n)
  let allSub := decide (sp.length = c.n) && sp.all Smp.subst
  packFields [(0, 1, b2n (!warming && !allSub)), (1, 1, b2n warming), (2, 1, b2n subst), (3, 1, b2n allSub),
    (4, 1, b2n (sp.any Smp.satIn)), (5, 1, b2n satOut), (6, 1, b2n (qualBit 3 sp)), (7, 1, b2n (qualBit 4 sp)),
    (8, 1, b2n (qualBit 6 sp)), (9, 1, b2n swapped), (12, 1, b2n (qualBit 7 sp))]

/-- One comparator at one output sample: the new state, and the edge (true SET) with the level crossed (R239). -/
def Comp.step (k : Comp) (en valid above below : Bool) (on off : Nat) : Comp × Option Bool :=
  if !en then (k, none)
  else if !valid then ({ k with setN := 0, relN := 0 }, none)
  else if k.st then
    let n := if below then k.relN + 1 else 0
    if below && decide (off ≤ n) then ({ st := false, setN := 0, relN := 0 }, some false)
    else ({ k with relN := n }, none)
  else
    let n := if above then k.setN + 1 else 0
    if above && decide (on ≤ n) then ({ st := true, setN := 0, relN := 0 }, some true)
    else ({ k with setN := n }, none)

/-- Physical value of y (R231): binary64, rounded once to binary32. -/
def Chain.physical (c : Chain) (y : Int) : Word :=
  let t := fenc f64 (.fin (decide (y < 0)) y.natAbs (-c.shift))
  BitVec.ofNat 32 (to32 (fadd f64 (to64 c.offset) t))

/-- The output sample at a boundary, with the comparators and edges (R230, R231, R238, R239). -/
def Chain.output (num : Nat) (c : Chain) (swapped : Bool) : Chain × DfcOut × List ThrEdge :=
  let n := c.n
  let y0 := rneDiv (firAcc c.coefs n c.line) (2 ^ 23)
  let y := satI 32 y0
  let fl := c.outFlags (decide (y ≠ y0)) swapped
  let valid := decide (fl % 2 = 1)
  let uq := c.levelQ (c.f 367 336)
  let ur := uq - c.hystQ (c.f 335 304)
  let lq := c.levelQ (c.f 303 272)
  let lr := lq + c.hystQ (c.f 271 240)
  let (up, ue) := c.upper.step c.upperEn valid (decide (uq < y)) (decide (y < ur)) c.holdOn c.holdOff
  let (lo, le) := c.lower.step c.lowerEn valid (decide (y < lq)) (decide (lr < y)) c.holdOn c.holdOff
  let fl := fl + (if up.st then 2 ^ 10 else 0) + (if lo.st then 2 ^ 11 else 0)
  let substN := min 255 ((c.span.filter Smp.subst).length)
  let o : DfcOut := ⟨num, c.physical y, y, (n - 1) / 2, c.decim, substN, fl, c.outEn⟩
  let eu := match ue with
    | some b => [{ chain := num, lower := false, set := b, level := if b then uq else ur, out := o }]
    | none => []
  let el := match le with
    | some b => [{ chain := num, lower := true, set := b, level := if b then lq else lr, out := o }]
    | none => []
  ({ c with upper := up, lower := lo, lastY := y, flags := fl }, o, eu ++ el)

/-- What a chain did at a tick: for the counters and events of R245. -/
structure ChainRun where
  chain  : Chain
  subst  : Nat
  satIn  : Bool
  satOut : Bool
  allSub : Bool
  outs   : List DfcOut
  edges  : List ThrEdge
  swapped : Option Swap
  deriving DecidableEq, Repr

/-- A VALID chain processes tick g from the committed view (R226, R230 to R236); `epA`, `epB` are the table indices of its sources. -/
def Chain.tick (num : Nat) (c : Chain) (epA epB g : Nat) (view : List (Nat × EpVal)) : ChainRun :=
  let gap := ((g : Int) - 1 - c.lastG).toNat
  let (c, sub, sat) := (c.fillGap gap).take epA epB view
  let c := { c with lastG := g }
  let wasAll := (c.flags / 8) % 2 = 1
  if g % (max 1 c.decim) ≠ 0 then
    { chain := c, subst := gap + b2n sub, satIn := sat, satOut := false, allSub := false, outs := [], edges := [], swapped := none }
  else
    let sw := c.swap.filter fun w => decide (w.after < (g : Int))
    let c := if sw.isSome then { c with actB := !c.actB, swap := none } else c
    let (c, o, es) := c.output num sw.isSome
    { chain := c, subst := gap + b2n sub, satIn := sat, satOut := (o.flags / 32) % 2 = 1,
      allSub := (o.flags / 8) % 2 = 1 && !wasAll, outs := [o], edges := es, swapped := sw }

/-- A chain after reset: the last sample index is the grid index before the first tick that will commit (R227). -/
def Chain.resetAt (c : Chain) (first : Nat) : Chain :=
  { c with line := [], lastTrue := 0, warm := 0, upper := Comp.reset, lower := Comp.reset, lastG := (first : Int) - 1,
           lastY := 0, flags := 0 }

/-- The staging bank takes coefficients (R235). -/
def Chain.stage (c : Chain) (n : Nat) (h : List Int) (w : Swap) : Chain :=
  if c.actB then { c with bankA := h, nA := n, swap := some w } else { c with bankB := h, nB := n, swap := some w }

end Sys2Proof.Machine
end

