-- ==== Sys2Proof/Machine/Estimator.lean ====
section
/-! DEFINITION. The Linear State Estimator's arithmetic: classes, solve, bad-data removal, invariant, observability, flows, chi-square (R247 to R265). -/

namespace Sys2Proof.Machine

/-! Complex binary32 (R258) -/
def c0 : C32 := (0, 0)
def cneg (a : C32) : C32 := (fneg f32 a.1, fneg f32 a.2)
def cconj (a : C32) : C32 := (a.1, fneg f32 a.2)
def cadd (a b : C32) : C32 := (fadd f32 a.1 b.1, fadd f32 a.2 b.2)
/-- acc + a × b with fused multiply-adds. -/
def cfma (acc a b : C32) : C32 :=
  (ffma f32 a.1 b.1 (ffma f32 (fneg f32 a.2) b.2 acc.1), ffma f32 a.1 b.2 (ffma f32 a.2 b.1 acc.2))
def cmul (a b : C32) : C32 := cfma c0 a b
/-- A complex value times a real one. -/
def cscale (a : C32) (k : Nat) : C32 := (fmul f32 a.1 k, fmul f32 a.2 k)
/-- |a|. -/
def cabs (a : C32) : Nat := fsqrt f32 (ffma f32 a.1 a.1 (fmul f32 a.2 a.2))

/-- Pairwise reduction of lane sums; `fuel` bounds the levels. -/
def treeAdd : Nat → List C32 → C32
  | 0, l => l.headD c0
  | k + 1, l =>
    match l with
    | [] => c0
    | [a] => a
    | a :: b :: r => treeAdd k (pairUp (a :: b :: r))
where
  pairUp : List C32 → List C32
    | a :: b :: r => cadd a b :: pairUp r
    | l => l

/-- A sum of products over lanes, in the order the image fixes (R258; free, log 2). -/
def laneDot (img : Dword) (key : Nat) (l : List (C32 × C32)) : C32 :=
  let n := Config.laneCount img key % 4096 + 1
  let idx := l.zipIdx
  treeAdd 13 ((List.range n).map fun k =>
    (idx.filter fun e => decide (Config.laneOf img key e.2 % n = k)).foldl (fun a e => cfma a e.1.1 e.1.2) c0)

/-! Measurements (R248, R249) -/
structure Meas where
  a     : C32
  b     : C32
  sigma : Nat
  ep    : Nat
  chan  : Nat
  isI   : Bool
  toEnd : Bool
  noTest : Bool
  branch : Nat
  bus   : Nat
  other : Nat
  deriving DecidableEq, Repr

def measOf (im : LseImage) (w : BitVec 256) : Meas :=
  let n := w.toNat
  let br := fld n 70 54
  let e := nth im.branches br { fromBus := 0, toBus := 0, points := [] }
  let te := decide (fld n 72 72 = 1)
  { a := (fld n 255 224, fld n 223 192), b := (fld n 191 160, fld n 159 128), sigma := fld n 127 96, ep := fld n 95 82,
    chan := fld n 81 74, isI := decide (fld n 73 73 = 1), toEnd := te, noTest := decide (fld n 71 71 = 1), branch := br,
    bus := fld n 53 38, other := if te then e.fromBus else e.toBus }

def measList (im : LseImage) : List Meas := im.meas.map (measOf im)

/-- The row h_i as (bus, coefficient) pairs. -/
def Meas.row (m : Meas) : List (Nat × C32) := if m.isI then [(m.bus, m.a), (m.other, m.b)] else [(m.bus, m.a)]

/-- h_i × x. -/
def rowDot (row : List (Nat × C32)) (x : List C32) : C32 := row.foldl (fun a e => cfma a e.2 (nth x e.1 c0)) c0

/-- w_i in binary32 and binary64. -/
def Meas.w32 (m : Meas) : Nat := fdiv f32 (fofInt f32 1) (fmul f32 m.sigma m.sigma)
def Meas.w64 (m : Meas) : Nat := let s := to64 m.sigma; fdiv f64 (fofInt f64 1) (fmul f64 s s)

def factorOf (im : LseImage) (v : Nat) : LseFactor :=
  nth im.factors v { inService := [], l := [], d := [], omega := [] }

/-! How a factor is stored (R558) -/

/-- Rows of L below the diagonal in a column, ascending. -/
def colRows (f : LseFactor) (c : Nat) : List Nat :=
  (f.l.filter fun e => e.col = c && decide (c < e.row)).foldl (fun a e => insertN e.row a) []

/-- A column stored alike in two factors. -/
def sameCol (a b : LseFactor) (c : Nat) : Bool :=
  nth a.d c 0#32 = nth b.d c 0#32 && a.l.filter (fun e => e.col = c) = b.l.filter fun e => e.col = c

/-- The columns a factor stores itself: all of the base's, and those of a variant that differ from the base (R252). -/
def ownCols (im : LseImage) (v : Nat) : List Nat :=
  (List.range im.buses.length).filter fun c => v = 0 || !(sameCol (factorOf im v) (factorOf im 0) c)

/-- Supernodes among ascending columns: their columns, and the rows of their block, those of the first column. A column joins the one after
it where the patterns agree but for the row of that one (log 153). -/
def supernodes (f : LseFactor) : List Nat → List (List Nat × List Nat)
  | [] => []
  | c :: r =>
    match supernodes f r with
    | (cs, rows) :: t =>
      if cs.head? = some (c + 1) && rows = (colRows f c).filter (fun k => k ≠ c + 1) then (c :: cs, colRows f c) :: t
      else ([c], colRows f c) :: (cs, rows) :: t
    | [] => [([c], colRows f c)]

/-- Complex entries of the blocks, counting the columns that `p` names. -/
def blockEntries (l : List (List Nat × List Nat)) (p : Nat → Bool) : Nat := sumN (l.map fun n => (n.1.filter p).length * n.2.length)

/-- The supernodes a factor stores itself. -/
def ownNodes (im : LseImage) (v : Nat) : List (List Nat × List Nat) := supernodes (factorOf im v) (ownCols im v)

/-- Complex entries a factor stores, and E: with those of the base columns it shares. -/
def storedEntries (im : LseImage) (v : Nat) : Nat := blockEntries (ownNodes im v) fun _ => true
def factorE (im : LseImage) (v : Nat) : Nat :=
  storedEntries im v + (if v = 0 then 0 else blockEntries (ownNodes im 0) fun c => !((ownCols im v).contains c))

/-- Bytes of a factor's own columns: blocks, row indices, headers, entries of D, and its Ω. -/
def factorBytes (im : LseImage) (v : Nat) : Nat :=
  8 * storedEntries im v + sumN ((ownNodes im v).map fun n => 4 * n.2.length + 32) + 4 * (ownCols im v).length + 4 * im.meas.length

/-- Class of a measurement (R256), its value, and h_i × x_h where held (R257). -/
def classify (im : LseImage) (b : Bind) (view : List (Nat × EpVal)) (m : Meas) : MCls × C32 :=
  let base := nth (factorOf im 0).inService m.branch true
  let fac := nth (factorOf im b.variant).inService m.branch true
  let snap := nth b.inService m.branch true
  let (d, q) := slotOf view m.ep m.chan
  let v : C32 := (re32 d, im32 d)
  let heldV := rowDot m.row b.hold
  if m.isI && !fac then (.unused, c0)
  else if m.isI && b.approx && base && !snap then (.held, heldV)
  else if !(q.getLsbD 0) || q.getLsbD 2 || q.getLsbD 3 || !(fisFinite f32 v.1) || !(fisFinite f32 v.2) then (.held, heldV)
  else (.live, v)

/-- G⁻¹ v with the bound factor: L y = v, y ← D⁻¹ y, Lᴴ x = y (R258 step 3). -/
def forward (img : Dword) (f : LseFactor) : Nat → Nat → List C32 → List C32 → List C32
  | 0, _, _, y => y
  | k + 1, i, v, y =>
    let terms := (f.l.filter fun e => e.row = i).map fun e => (((e.re.toNat, e.im.toNat) : C32), nth y e.col c0)
    forward img f k (i + 1) v (y ++ [cadd (nth v i c0) (cneg (laneDot img i terms))])

/-- Back substitution from row `k` - 1 down; the list holds x from the present row on. -/
def backward (img : Dword) (f : LseFactor) : Nat → List C32 → List C32 → List C32
  | 0, _, x => x
  | k + 1, y, x =>
    let terms := (f.l.filter fun e => e.col = k).map fun e => (cconj (e.re.toNat, e.im.toNat), nth x (e.row - k - 1) c0)
    backward img f k y (cadd (nth y k c0) (cneg (laneDot img (k + 65536) terms)) :: x)

def factorSolve (img : Dword) (f : LseFactor) (n : Nat) (v : List C32) : List C32 :=
  let y := forward img f n 0 v []
  let y := (List.range n).map fun i => let d := (nth f.d i 0#32).toNat; ((fdiv f32 (nth y i c0).1 d, fdiv f32 (nth y i c0).2 d) : C32)
  backward img f n y []

/-- b = Hᴴ W z over rows that are not unused or removed (R258 step 2). -/
def rhs (img : Dword) (n : Nat) (ms : List (Meas × MRun)) : List C32 :=
  (List.range n).map fun j =>
    laneDot img (j + 131072) ((ms.filter fun e => e.2.cls = .live || e.2.cls = .held).flatMap fun e =>
      (e.1.row.filter fun p => p.1 = j).map fun p => (cscale (cconj p.2) e.1.w32, e.2.z))

/-- Residual of a live or held measurement. -/
def residual (m : Meas) (z : C32) (x : List C32) : C32 := m.row.foldl (fun a e => cfma a (cneg e.2) (nth x e.1 c0)) z

/-- r_N (R260). -/
def normRes (om : Nat) (r : C32) : Nat := fdiv f32 (cabs r) (fsqrt f32 om)

/-- Recompute live residuals. -/
def reRes (x : List C32) (e : Meas × MRun) : Meas × MRun :=
  if e.2.cls = .live then (e.1, { e.2 with r := residual e.1 e.2.z x }) else e

/-- u = G_k-1⁻¹ h_iᴴ from the factor and the earlier removals (R262). -/
def downU (img : Dword) (f : LseFactor) (n : Nat) (ml : List Meas) (prev : List Removal) (m : Meas) : List C32 :=
  let hh := (List.range n).map fun j => (m.row.filter fun p => p.1 = j).foldl (fun a p => cadd a (cconj p.2)) c0
  prev.foldl (fun v k =>
    match ml[k.meas]? with
    | some mk =>
      let s := cscale (rowDot mk.row v) (fdiv f32 mk.w32 k.d)
      (List.range n).map fun j => cfma (nth v j c0) (nth k.u j c0) s
    | none => v) (factorSolve img f n hh)

/-- The tested measurement with the largest r_N; on equal r_N the lowest number (R261). -/
def worst (om : List Word) (ms : List (Meas × MRun)) : Option (Nat × Nat) :=
  (ms.zipIdx).foldl (fun b e =>
    if e.1.2.test && e.1.2.cls = .live then
      let r := normRes (nth om e.2 0#32).toNat e.1.2.r
      match b with
      | none => some (e.2, r)
      | some (_, q) => if fgt f32 r q then some (e.2, r) else b
    else b) none

/-- State of the removal loop (R261). -/
structure Bad where
  x    : List C32
  ms   : List (Meas × MRun)
  rem  : List Removal
  limit : Bool
  crit : Nat
  maxNr : Nat
  deriving DecidableEq, Repr

/-- The loop of R261; `fuel` bounds its rounds by the number of measurements. -/
def badLoop (img : Dword) (f : LseFactor) (n nrTh kMax : Nat) : Nat → Bad → Bad
  | 0, b => b
  | k + 1, b =>
    match worst f.omega b.ms with
    | none => { b with maxNr := 0 }
    | some (i, rn) =>
      if fle f32 rn nrTh then { b with maxNr := rn }
      else if b.rem.length = kMax then { b with maxNr := rn, limit := true }
      else
        match b.ms[i]? with
        | none => b
        | some (m, q) =>
          let u := downU img f n (b.ms.map Prod.fst) b.rem m
          let d := ffma f32 (fneg f32 m.w32) (rowDot m.row u).1 (fofInt f32 1)
          if flt f32 d (fofRat f32 1 1024) then
            badLoop img f n nrTh kMax k { b with crit := b.crit + 1, ms := modAt b.ms i fun e => (e.1, { e.2 with test := false }) }
          else
            let s := cscale q.r (fdiv f32 m.w32 d)
            let x := (List.range n).map fun j => cfma (nth b.x j c0) (cneg (nth u j c0)) s
            let ms := (modAt b.ms i fun e => (e.1, { e.2 with cls := .removed, test := false })).map (reRes x)
            badLoop img f n nrTh kMax k { b with x := x, ms := ms, rem := b.rem ++ [{ meas := i, rn := rn, d := d, u := u }] }

/-- Complex binary64 multiply-accumulate of the check unit. -/
def acc64 (a x y : C32) : C32 :=
  (ffma f64 x.1 y.1 (ffma f64 (fneg f64 x.2) y.2 a.1), ffma f64 x.1 y.2 (ffma f64 x.2 y.1 a.2))
def up64 (a : C32) : C32 := (to64 a.1, to64 a.2)

/-- Largest magnitude over the parts of a list of binary64 values; a NaN among them is the answer, which no limit admits. -/
def maxAbs64 (l : List C32) : Nat :=
  if l.any fun a => fisNan f64 a.1 || fisNan f64 a.2 then f64.nanBits else l.foldl (fun m a =>
    let m := if fgt f64 (fabs f64 a.1) m then fabs f64 a.1 else m
    if fgt f64 (fabs f64 a.2) m then fabs f64 a.2 else m) 0

/-- Hᴴ W v in binary64 over the rows that take part, for a value of each (R259). -/
def check64 (n : Nat) (ms : List (Meas × MRun)) (v : Meas × MRun → C32) : List C32 :=
  (List.range n).map fun j =>
    (ms.filter fun e => e.2.cls = .live || e.2.cls = .held).foldl (fun a e =>
      (e.1.row.filter fun p => p.1 = j).foldl (fun a p =>
        let h := up64 (cconj p.2)
        let y := v e
        acc64 a h (fmul f64 e.1.w64 y.1, fmul f64 e.1.w64 y.2)) a) c0

/-- The residual invariant (R259). -/
def invariantOk (n invTol : Nat) (x : List C32) (ms : List (Meas × MRun)) : Bool :=
  let res := fun (e : Meas × MRun) => up64 (if e.2.cls = .live then e.2.r else residual e.1 e.2.z x)
  let g := maxAbs64 (check64 n ms res)
  let b := maxAbs64 (check64 n ms fun e => up64 e.2.z)
  fle f64 g (fmul f64 (to64 invTol) b)

/-- Steps 1 to 6 of a solve (R258): the results, and whether the invariant holds. -/
def lseSolve (img : Dword) (im : LseImage) (nrTh kMax g cover : Nat) (b : Bind) (view : List (Nat × EpVal)) : Solve × Bool :=
  let n := im.buses.length
  let f := factorOf im b.variant
  let ms := (measList im).zipIdx.map fun e =>
    let (c, z) := classify im b view e.1
    (e.1, ({ cls := c, z := z, r := c0,
             test := decide (c = .live) && !e.1.noTest && fgt f32 (nth f.omega e.2 0#32).toNat 0 } : MRun))
  let x := factorSolve img f n (rhs img n ms)
  let ms := ms.map (reRes x)
  let r := badLoop img f n nrTh kMax (ms.length + 1) { x := x, ms := ms, rem := [], limit := false, crit := 0, maxNr := 0 }
  ({ g := g, x := r.x, ms := r.ms.map Prod.snd, removals := r.rem, maxNr := r.maxNr, limit := r.limit, critical := r.crit, cover := cover },
   invariantOk n im.invTol.toNat r.x r.ms)

/-! Observability, islands (R263) -/

/-- Buses joined to observable ones by a branch with a used current; one round. -/
def obsRound (im : LseImage) (b : Bind) (ms : List (Meas × MRun)) (o : List Bool) : List Bool :=
  let fac := (factorOf im b.variant).inService
  let links := (ms.filter fun e => e.1.isI && e.2.cls = .live && nth b.inService e.1.branch true && nth fac e.1.branch true).map
    fun e => (e.1.bus, e.1.other)
  links.foldl (fun o p => if nth o p.1 false || nth o p.2 false then setAt (setAt o p.1 true) p.2 true else o) o

def iterate {α : Type} (f : α → α) : Nat → α → α
  | 0, a => a
  | k + 1, a => iterate f k (f a)

def observable (im : LseImage) (b : Bind) (ms : List (Meas × MRun)) : List Bool :=
  let n := im.buses.length
  let start := ms.foldl (fun o e => if !e.1.isI && e.2.cls = .live then setAt o e.1.bus true else o) (List.replicate n false)
  iterate (obsRound im b ms) n start

/-- Label of each bus that `keep` names: the lowest bus of its component under the branches in service; `n` elsewhere. -/
def components (im : LseImage) (inService : List Bool) (keep : Nat → Bool) : List Nat :=
  let n := im.buses.length
  let start := (List.range n).map fun i => if keep i then i else n
  let links := (im.branches.zipIdx).filterMap fun e =>
    if nth inService e.2 true && keep e.1.fromBus && keep e.1.toBus then some (e.1.fromBus, e.1.toBus) else none
  iterate (fun l => links.foldl (fun l p => let m := min (nth l p.1 n) (nth l p.2 n); setAt (setAt l p.1 m) p.2 m) l) n start

/-- Components as lists, in order of their lowest bus. -/
def groups (n : Nat) (lab : List Nat) : List (List Nat) :=
  (List.range n).filterMap fun i => if nth lab i n = i then some ((List.range n).filter fun j => nth lab j n = i) else none

/-! Flows, J and the verdict (R264, R265) -/
def nan32 : Nat := 0x7FC00000

def flowOf32 (im : LseImage) (b : Bind) (x : List C32) (obs : List Bool) (w : LseWatch) : Flow32 :=
  let e := nth im.branches w.branch { fromBus := 0, toBus := 0, points := [] }
  if !(nth b.inService w.branch true) then ⟨0, 0, 0, true, false⟩
  else if !(nth obs e.fromBus false) || !(nth obs e.toBus false) then ⟨nan32, nan32, nan32, false, true⟩
  else
    let xf := nth x e.fromBus c0
    let i := cfma (cmul (w.afRe.toNat, w.afIm.toNat) xf) (w.bfRe.toNat, w.bfIm.toNat) (nth x e.toBus c0)
    let s := cmul xf (cconj i)
    ⟨fmul f32 im.sbase.toNat s.1, fmul f32 im.sbase.toNat s.2, cabs i, false, false⟩

/-- J in binary64 and the number of measurements in it. -/
def objective (ms : List (Meas × MRun)) (obs : List Bool) : Nat × Nat :=
  (ms.filter fun e => e.2.cls = .live && nth obs e.1.bus false).foldl (fun a e =>
    let r := up64 e.2.r
    (ffma f64 e.1.w64 (ffma f64 r.1 r.1 (fmul f64 r.2 r.2)) a.1, a.2 + 1)) (0, 0)

/-- Steps 7 to 9 (R258). -/
def lseAnalyze (im : LseImage) (chiK : Nat) (b : Bind) (v : Solve) : LseRes :=
  let n := im.buses.length
  let ms := (measList im).zip v.ms
  let obs := observable im b ms
  let unob := fun (i : Nat) => !(nth obs i false)
  let isl := groups n (components im b.inService unob)
  let x := (List.range n).map fun i => if unob i then ((nan32, nan32) : C32) else nth v.x i c0
  let (j, mj) := objective ms obs
  let nObs := (obs.filter id).length
  let nu : Int := 2 * ((mj : Int) - nObs)
  let nu0 := nu.toNat
  let lim := if nu0 = 0 then 0 else
    ffma f64 (to64 chiK) (fsqrt f64 (fofInt f64 (2 * nu0))) (fofInt f64 nu0)
  let chi := if nu < 1 then 0 else if fle f64 j lim then 1 else 2
  { x := x, obs := obs, islands := isl, flows := im.watched.map (flowOf32 im b v.x obs),
    unobZones := (((im.buses.zipIdx).filter fun e => unob e.2).map fun e => e.1.zone).eraseDups, j := to32 j, chiLim := to32 lim,
    nu := nu, chi := chi, maxNr := v.maxNr, nLive := (v.ms.filter fun q => q.cls = .live).length,
    nHeld := (v.ms.filter fun q => q.cls = .held).length, nUnused := (v.ms.filter fun q => q.cls = .unused).length, nObs := nObs,
    removals := v.removals.map fun r => (r.meas, r.rn), limit := v.limit, critical := v.critical, cover := v.cover }

/-! Records (R272 to R274) -/

/-- Seconds and rounded nanoseconds of a grid point (R9). -/
def tmSec (f g : Nat) : Nat := g / max 1 f
def tmNs (f g : Nat) : Nat := (roundDiv ((g % max 1 f * 1000000000 : Nat) : Int) (max 1 f)).toNat

/-- What a result's records say of their tick. -/
structure ResHead where
  f    : Nat
  g    : Nat
  seq  : Nat
  rev  : Nat
  bind : Bind
  deriving DecidableEq, Repr

def ResHead.lay (h : ResHead) : List (Nat × Nat × Nat) := [(480, 32, h.seq), (432, 48, tmSec h.f h.g), (400, 32, tmNs h.f h.g)]

/-- Marks a result's records carry by themselves: TOPOLOGY_APPROX under fallback (R255). -/
def ResHead.marks (h : ResHead) : Nat := if h.bind.approx then 16 else 0

/-- LSE_SUMMARY of a result (R273). -/
def summaryUnits (h : ResHead) (r : LseRes) : List Unit512 :=
  unitOf (hdr32 h.marks ++ h.lay ++ [(368, 32, h.bind.holdSeq.getD 0xFFFFFFFF), (336, 32, r.j), (304, 32, r.chiLim), (272, 32, r.maxNr),
    (252, 20, r.nu.toNat), (233, 19, r.nLive), (214, 19, r.nHeld), (195, 19, r.nUnused), (178, 17, r.nObs),
    (165, 13, satN 13 r.islands.length), (149, 16, r.cover), (145, 4, h.rev), (143, 2, h.bind.variant), (141, 2, r.chi),
    (137, 4, r.removals.length), (136, 1, b2n h.bind.uncertain), (135, 1, b2n r.limit), (134, 1, b2n (decide (0 < r.critical))),
    (133, 1, b2n (decide (255 < r.islands.length)))]) ::
  unitOf (((r.removals.take 8).zipIdx).map fun e => (64 * e.2, 64, e.1.2 * 2 ^ 32 + e.1.1 * 2 ^ 14 + 1)) ::
  (List.range 8).map fun u => unitOf ((r.unobZones.filter fun z => z / 512 = u).map fun z => (z % 512, 1, 1))
where
  hdr32 (m : Nat) : List (Nat × Nat × Nat) := [(48, 8, 0x30), (38, 10, 10), (0, 16, m)]

/-- LSE_SUMMARY of a tick whose LSE work was cancelled (R268). -/
def cancelledSummary (h : ResHead) (inv : Bool) : List Unit512 :=
  unitOf ([(48, 8, 0x30), (38, 10, 10), (0, 16, h.marks ||| 2)] ++ h.lay ++ [(368, 32, h.bind.holdSeq.getD 0xFFFFFFFF), (336, 32, nan32),
    (304, 32, nan32), (272, 32, nan32), (143, 2, h.bind.variant), (136, 1, b2n h.bind.uncertain), (132, 1, b2n inv)]) ::
  List.replicate 9 0#512

/-- Head of a part (R274). -/
def partHead (h : ResHead) (typ units part parts first count listed sys zone : Nat) : Unit512 :=
  unitOf ([(48, 8, typ), (38, 10, units), (0, 16, h.marks)] ++ h.lay ++ [(396, 4, h.rev), (384, 8, part), (376, 8, parts), (360, 16, first),
    (343, 17, count), (330, 13, listed), (326, 4, sys), (314, 12, zone)])

/-- A list cut into pieces of a length. -/
def cut {α : Type} (n : Nat) : Nat → List α → List (List α)
  | 0, _ => []
  | k + 1, l => if l.isEmpty then [] else l.take n :: cut n k (l.drop n)

/-- Values of a width packed into whole units. -/
def packUnits (w : Nat) (l : List Nat) : List Unit512 :=
  (cut (512 / w) (l.length + 1) l).map fun c => unitOf (c.zipIdx.map fun e => (w * e.2, w, e.1))

/-- LSE_STATE parts: up to 4,096 buses each. -/
def stateRecs (h : ResHead) (r : LseRes) : List (List Unit512) :=
  let parts := cut 4096 255 (r.x.map fun v => v.1 + v.2 * 2 ^ 32)
  parts.zipIdx.map fun e =>
    let us := packUnits 64 e.1
    partHead h 0x31 (1 + us.length) e.2 parts.length (4096 * e.2) e.1.length e.1.length 0 0 :: us

/-- LSE_FLOW parts: up to 1,024 branches each. -/
def flowRecs (im : LseImage) (h : ResHead) (r : LseRes) : List (List Unit512) :=
  let entries := ((im.watched.zip r.flows).zipIdx).map fun e => packFields
    [(96, 32, e.1.2.p), (64, 32, e.1.2.q), (32, 32, e.1.2.i), (19, 13, e.2), (18, 1, b2n e.1.2.out), (17, 1, b2n e.1.2.unob),
     (0, 17, e.1.1.branch)]
  let parts := cut 1024 255 entries
  parts.zipIdx.map fun e =>
    let us := packUnits 128 e.1
    partHead h 0x32 (1 + us.length) e.2 parts.length (1024 * e.2) e.1.length e.1.length 0 0 :: us

/-- LSE_ISLAND records: up to 255. -/
def islandRecs (im : LseImage) (h : ResHead) (r : LseRes) : List (List Unit512) :=
  let l := r.islands.take 255
  l.zipIdx.map fun e =>
    let listed := e.1.take 1024
    let us := packUnits 16 listed
    let b := nth im.buses (e.1.headD 0) { zone := 0, system := 0, anchor := false }
    partHead h 0x33 (1 + us.length) e.2 l.length e.2 e.1.length listed.length b.system b.zone :: us

/-- A whole result in its order (R272). -/
def lseRecords (im : LseImage) (h : ResHead) (r : LseRes) : List (List Unit512) :=
  summaryUnits h r :: (stateRecs h r ++ flowRecs im h r ++ islandRecs im h r)

/-! Topology at a commit (R253, R254) -/

/-- State of a status point as R253 reads it: closed (none where it has no definite position since START), and whether it is uncertain. -/
def pointClosed (p : Option (Bool × Nat × Nat)) : Option Bool × Bool :=
  match p with
  | none => (none, true)
  | some (stale, pos, last) =>
    if stale || pos = 0 || pos = 3 then ((if last = 2 then some true else if last = 1 then some false else none), true)
    else (some (decide (pos = 2)), false)

/-- In-service state of a branch in the snapshot, and whether a point was uncertain. -/
def branchState (base : Bool) (look : Nat → Option (Bool × Nat × Nat)) (b : LseBranch) : Bool × Bool :=
  if b.points.isEmpty then (true, false) else
  let l := b.points.map fun p => pointClosed (look p)
  (l.all fun e => match e.1 with | some c => c | none => base, l.any Prod.snd)

/-- The snapshot of R253 and the factor of R254. -/
def bindTopology (im : LseImage) (look : Nat → Option (Bool × Nat × Nat)) : List Bool × Nat × Bool × Bool :=
  let base := (factorOf im 0).inService
  let st := im.branches.zipIdx.map fun e => branchState (nth base e.2 true) look e.1
  let snap := st.map Prod.fst
  let sw := im.branches.zipIdx.filterMap fun e => if e.1.points.isEmpty then none else some e.2
  let hit := (im.factors.zipIdx).find? fun e => sw.all fun k => nth e.1.inService k true = nth snap k true
  match hit with
  | some e => (snap, e.2, false, st.any Prod.snd)
  | none => (snap, 0, true, st.any Prod.snd)

end Sys2Proof.Machine
end

