-- ==== Sys2Proof/Machine/Helm.lean ====
section
/-! DEFINITION. The Helm's tasks: ready lists, dispatch, preemption, flows, cancellation, delay list, trace (R61 to R71). -/

namespace Sys2Proof.Machine

def tkxEvent (k : Nat) (s : State) : State :=
  let up := newlySet s.tkx.event s.tkx.eventEn k
  let s := { s with tkx := { s.tkx with event := setBit s.tkx.event k } }
  if up then raiseBlock 10 s else s

/-- Event codes of the trace (R70). -/
inductive TrEv where
  | ready
  | dispatch
  | preempt
  | resume
  | complete
  | release
  | cancel
  | cancelBefore
  | late
  | shed
  | phaseLate
  | overrun
  | commit
  | skipped
  | past
  deriving DecidableEq, Repr

def TrEv.code : TrEv → Nat
  | .ready => 1
  | .dispatch => 2
  | .preempt => 3
  | .resume => 4
  | .complete => 5
  | .release => 6
  | .cancel => 7
  | .cancelBefore => 8
  | .late => 9
  | .shed => 10
  | .phaseLate => 11
  | .overrun => 12
  | .commit => 13
  | .skipped => 14
  | .past => 15

/-- Writing is on: ENABLE, not FROZEN, the event's mask bit (R71). -/
def traceOn (s : State) (e : TrEv) : Bool :=
  bitOf s.tkx.traceCtrl 0 && !(bitOf s.tkx.traceCtrl 2) && bitOf s.tkx.traceCtrl (16 + e.code)

/-- Write one trace entry (R69, R71, R73). -/
def traceRaw (e : TrEv) (bits : List (Nat × Nat × Nat)) (s : State) : State :=
  if !(traceOn s e) then s else
  let w := BitVec.ofNat 128 (packFields (bits ++ [(56, 8, e.code), (48, 8, s.tbu.epoch), (0, 32, ts32 s)]))
  let p := s.tkx.wrptr
  let froze := e = .overrun ∧ bitOf s.tkx.traceCtrl 1
  let s := { s with tkx := { s.tkx with
    trace := insertK s.tkx.trace p w, wrptr := (p + 1) % 4096
    traceCtrl := if froze then s.tkx.traceCtrl ||| 4#32 else s.tkx.traceCtrl } }
  if p = 4095 then tkxEvent 6 s else s

/-- A tick-level entry: unit 127, task 0 (R69). -/
def traceTick (e : TrEv) (arg seq phase : Nat) (s : State) : State :=
  traceRaw e [(112, 7, 127), (96, 16, satN 16 arg), (64, 32, seq), (42, 3, phase)] s

/-- An entry of a task (R69). -/
def traceTask (e : TrEv) (arg : Nat) (t : TEntry) (s : State) : State :=
  traceRaw e [(127, 1, b2n t.flow.isSome), (119, 8, t.flow.getD 0), (112, 7, t.unit), (96, 16, arg), (64, 32, t.seq),
    (45, 3, t.prio), (42, 3, t.work.phase), (32, 10, t.task)] s

def setEntries (l : List TEntry) (s : State) : State := { s with tkx := { s.tkx with entries := l } }
def sameEntry (a b : TEntry) : Bool := a.task = b.task && a.g = b.g

/-- Replace an entry in its place. -/
def updEntry (t : TEntry) (f : TEntry → TEntry) (s : State) : State :=
  setEntries (s.tkx.entries.map fun e => if sameEntry e t then f e else e) s

def dropEntry (t : TEntry) (s : State) : State :=
  setEntries (s.tkx.entries.filter fun e => !sameEntry e t) s

def findEntry (p : TEntry → Bool) (s : State) : Option TEntry := s.tkx.entries.find? p

def flowOf (s : State) (n : Nat) : Flow := (lookupK s.tkx.flows n).getD Flow.reset
def setFlow (n : Nat) (f : Flow) (s : State) : State := { s with tkx := { s.tkx with flows := insertK s.tkx.flows n f } }
/-- Unreleased entries of a flow (R66). -/
def Flow.depth (f : Flow) : Nat := (f.next + 65536 - f.release) % 65536

/-! Progress of a running task (R52, R124, R125) -/

/-- The port whose frames a task hands over. -/
def portOfWork : Work → Option Nat
  | .emitPort p => some p
  | .shedPort p => some p
  | _ => none

/-- Time since `since` in which a port was paused. -/
def Port.pausedSince (q : Port) (since now : Nat) : Nat :=
  match q.pause with
  | none => 0
  | some (a, e) => min now e - max since a

/-- Handed frames of the entry's tick wait for room in a transmit FIFO, on either port of a PRP pair (R52, R176). -/
def fifoBlocked (s : State) (t : TEntry) (p : Nat) : Bool :=
  t.fed && s.net.ports.zipIdx.any fun q => decide (q.2 / 2 = p / 2) && q.1.todo.any fun f => f.tick = some t.g

/-- How long an entry that runs has made progress since its last account: not while its port is paused or its FIFO is full (R52). -/
def ranFor (s : State) (t : TEntry) : Nat :=
  match portOfWork t.work with
  | none => s.tbu.free - t.since
  | some p =>
    if fifoBlocked s t p then 0 else s.tbu.free - t.since - (nth s.net.ports p Port.reset).pausedSince t.since s.tbu.free

/-- Remaining declared cost of an entry now (R52). -/
def remainNow (s : State) (t : TEntry) : Nat := if t.st = .running then t.remain - ranFor s t else t.remain

/-- Running tasks of ports are accounted up to now, before a pause or a transmit FIFO changes. -/
def accountEmits (s : State) : State :=
  if s.tkx.entries.isEmpty then s else
  setEntries (s.tkx.entries.map fun t =>
    if (portOfWork t.work).isSome && t.st = .running then { t with remain := remainNow s t, since := s.tbu.free } else t) s

/-! Dispatch (R63, R64), decided when a cycle ends -/

/-- The engine is in the restore of a RESTART (R430). -/
def engineDown (s : State) (w : Work) : Bool :=
  s.flt.wins.any fun x => !x.waits && some x.domain = w.domain

/-- Shed level 1 keeps re-solves from being dispatched, level 3 aggregation (R53); a restarting engine takes no task. -/
def heldBack (s : State) (t : TEntry) : Bool :=
  (t.prio = 5 && s.tkx.shedLevels % 2 = 1) || (t.work = .geAgg && s.tkx.shedLevels.testBit 2) || engineDown s t.work

/-! The gather step of a re-solve (R195, R258) -/

/-- The re-solve reads its tick's SRAM slot: its gather is not over (R195). -/
def slotHeld (s : State) (t : TEntry) : Bool := match t.slotTill with
  | some r => decide (r < remainNow s t)
  | none => false

/-- A re-solve of the tick is in its gather step. -/
def gathering (s : State) (g : Nat) : Bool := s.tkx.entries.any fun t => t.g = g && slotHeld s t

/-- Longest gather from the SRAM window: 30 µs and 0.25 ns a measurement (R266). -/
def gatherBound (s : State) : Nat := 30000 * fr + ((s.lse.sec.map fun im => im.meas.length).getD 0) * (fr / 4)

/-- The entry a unit should run: highest priority, first in ready order (R63). `pr` gives the priority in force. -/
def bestFor (pr : TEntry → Nat) (s : State) (u : Nat) : Option TEntry :=
  s.tkx.entries.foldl (fun b t =>
    if t.unit = u && (t.st = .ready || t.st = .preempted) && !heldBack s t then
      match b with
      | none => some t
      | some x => if pr t < pr x then some t else some x
    else b) none

def runningOn (s : State) (u : Nat) : Option TEntry := findEntry (fun t => t.unit = u && t.st = .running) s

/-- RESOLVE_A reads the tick's values as they stand at its first dispatch (R208, R270); until its gather ends it holds the slot that the tick still
has (R195). How long the gather takes within its bound is free (log 98). -/
def gather (t : TEntry) (s : State) : State :=
  if t.work = .resolveA && !t.started then
    let hold := fun (x : Tick) => if x.commitDone && decide (x.g + 16 ≤ s.aln.front) then none else
      some (t.remain - min (Config.gatherTime x.seq x.revision) (gatherBound s))
    let s := updEntry t (fun e => { e with slotTill := (s.aln.ticks.find? fun x => x.g = t.g).bind hold }) s
    { s with aln := { s.aln with ticks := s.aln.ticks.map fun x => if x.g = t.g then { x with rsView := x.eps, rsCover := x.amends } else x } }
  else s

/-- Dispatch an entry, or resume it where it was preempted. -/
def dispatch (t : TEntry) (s : State) : State :=
  let s := gather t s
  let s := updEntry t (fun e => { e with st := .running, since := s.tbu.free, started := true }) s
  traceTask (if t.st = .preempted then .resume else .dispatch) 0 t s

/-- A running entry is preempted and keeps its place (R64). -/
def preempt (t by_ : TEntry) (s : State) : State :=
  let s := updEntry t (fun e => { e with st := .preempted, remain := remainNow s e }) s
  traceTask .preempt by_.task t s

/-- One unit's dispatch decision (R63, R64). -/
def scheduleUnit (pr : TEntry → Nat) (u : Nat) (s : State) : State :=
  match bestFor pr s u with
  | none => s
  | some t =>
    match runningOn s u with
    | none => dispatch t s
    | some r => if pr t < pr r then dispatch t (preempt r t s) else s

/-- Every unit's dispatch decision; preemption comes at once, inside the 2 µs of R64 (DESIGN CHOICE, log 11). -/
def schedule (pr : TEntry → Nat) (s : State) : State :=
  if s.tkx.entries.isEmpty then s else (List.range 64).foldl (fun s u => scheduleUnit pr u s) s

/-! Ready (R63, R65, R66) -/

/-- Declared cost of a task in 2^-16 ns. -/
def costFr (s : State) (task : Nat) : Nat := ((s.tkx.tasks.find? fun c => c.num = task).map TaskCfg.cost).getD 0 * 1000 * fr

/-- A new entry of a task. -/
def newEntry (c : TaskCfg) (g seq : Nat) (s : State) : TEntry :=
  { task := c.num, prio := c.prio, unit := c.unit, flow := c.flow, work := c.work, g := g, seq := seq, st := .ready,
    remain := c.cost * 1000 * fr, since := s.tbu.free, reReady := false, flowSeq := 0, started := false, readyAt := s.tbu.free,
    dying := none, again := false, fed := false, slotTill := none }

/-- An entry that entered the same list in the same cycle with a higher task number: a lower one goes before it (R63). -/
def goesBefore (t x : TEntry) : Bool := x.readyAt = t.readyAt && x.prio = t.prio && decide (t.task < x.task)

/-- Put an entry into its list (R63). -/
def insertReady (t : TEntry) : List TEntry → List TEntry
  | [] => [t]
  | x :: r => if goesBefore t x then t :: x :: r else x :: insertReady t r

/-- Put an entry into its list: WAITING where its flow is full (R66). -/
def enterReady (t : TEntry) (s : State) : State :=
  match t.flow with
  | none => traceTask .ready 0 t (setEntries (insertReady t s.tkx.entries) s)
  | some n =>
    let f := flowOf s n
    if 64 ≤ f.depth then setEntries (s.tkx.entries ++ [{ t with st := .waiting }]) s
    else
      let t := { t with flowSeq := f.next }
      traceTask .ready 0 t (setEntries (insertReady t s.tkx.entries) (setFlow n { f with next := (f.next + 1) % 65536 } s))

/-- A task is made ready for a tick (R63, R65). -/
def makeReady (c : TaskCfg) (g seq : Nat) (s : State) : State :=
  match findEntry (fun t => t.task = c.num && t.g = g) s with
  | some t =>
    if t.st = .running || t.st = .preempted then updEntry t (fun e => { e with reReady := true }) s else s
  | none => enterReady (newEntry c g seq s) s

/-- Tasks of the table that do some work. -/
def tasksFor (s : State) (p : Work → Bool) : List TaskCfg := s.tkx.tasks.filter fun c => p c.work

/-- Tasks become ready together, in ascending number: the table is kept so (R63). -/
def readyAll (p : Work → Bool) (g seq : Nat) (s : State) : State :=
  (tasksFor s p).foldl (fun s c => makeReady c g seq s) s

/-! Results in order (R66) -/

/-- Waiting entries of a flow enter as places free (R66). -/
def wakeFlow (n : Nat) (s : State) : State :=
  match findEntry (fun t => t.flow = some n && t.st = .waiting) s with
  | none => s
  | some t => enterReady { t with st := .ready, readyAt := s.tbu.free } (dropEntry t s)

/-- The ended entry of a flow that is next in order. -/
def Flow.due (f : Flow) : Option (TEntry × Bool) := f.done.find? fun d => d.1.flowSeq = f.release

/-- A flow with an entry to release, and the entry. -/
def dueFlow (s : State) : Option (Nat × TEntry × Bool) := s.tkx.flows.findSome? fun f => f.2.due.map fun d => (f.1, d)

/-- One entry is released, and frees a place (R66, R69). -/
def releaseEntry (n : Nat) (t : TEntry) (s : State) : State :=
  let f := flowOf s n
  wakeFlow n (traceTask .release t.flowSeq t
    (setFlow n { f with release := (f.release + 1) % 65536, done := f.done.filter fun d => d.1.flowSeq ≠ t.flowSeq } s))

/-- An entry of a flow ended, with a result or, cancelled, with an empty one (R66). -/
def flowEnd (result : Bool) (t : TEntry) (s : State) : State :=
  match t.flow with
  | none => s
  | some n => if t.st = .waiting then s else setFlow n { flowOf s n with done := (flowOf s n).done ++ [(t, result)] } s

/-- Entries that ended with a result that is not released yet. -/
def unreleased (s : State) : List TEntry := s.tkx.flows.flatMap fun f => (f.2.done.filter Prod.snd).map Prod.fst

/-! Completion and cancellation (R65, R70) -/

/-- A running task completes; a pending re-ready enters its list (R65). -/
def finishTask (t : TEntry) (s : State) : State :=
  let s := flowEnd true t (traceTask .complete 0 t (dropEntry t s))
  if t.reReady then
    enterReady { t with st := .ready, reReady := false, started := false, remain := costFr s t.task, readyAt := s.tbu.free, dying := none,
                        fed := false, slotTill := none } s
  else s

/-- An entry is cancelled, ARG as R70 gives it: CANCEL_BEFORE_DISPATCH where it became ready in this cycle (R65). -/
def cancelOne (arg : Nat) (t : TEntry) (s : State) : State :=
  flowEnd false t (traceTask (if t.readyAt = s.tbu.free && !t.started then .cancelBefore else .cancel) arg t (dropEntry t s))

/-- Cancel every entry that a predicate names. -/
def cancelWhere (p : TEntry → Bool) (arg : Nat) (s : State) : State :=
  (s.tkx.entries.filter p).foldl (fun s t => cancelOne arg t s) s

/-- Shedding cancels an entry: a running one is abandoned when the cycle ends, so a completion in that cycle stands (R65). -/
def cancelSoon (arg : Nat) (t : TEntry) (s : State) : State :=
  if t.st = .running then updEntry t (fun e => { e with dying := some arg }) s else cancelOne arg t s

/-- The running entry that does some work, for a completion row. -/
def runningWork (p : Work → Bool) (s : State) : Option TEntry := findEntry (fun t => t.st = .running && p t.work) s

/-! Delay lists (R67) -/

/-- The microtick list: entries that are due fire in order (R67). -/
def fireMicro : Nat → State → State
  | 0, s => s
  | k + 1, s =>
    match s.tkx.micro with
    | (due, task, g) :: r =>
      if s.tbu.free < due then s else
      let s := { s with tkx := { s.tkx with micro := r } }
      fireMicro k (match s.tkx.tasks.find? fun c => c.num = task with
        | some c => makeReady c g (lastTickSeq s) s
        | none => s)
    | [] => s

def delayExpiry (s : State) : State := fireMicro s.tkx.micro.length s

/-- Count a phase's longest duration (TKX_PHASE_MAX). -/
def phaseMax (k us : Nat) (s : State) : State :=
  { s with tkx := { s.tkx with phaseMax := modAt s.tkx.phaseMax k (max us) } }

/-- A phase that ends after its deadline, or a task of it: the SEP's (R51). `late` is the overrun in 2^-16 ns. -/
def phaseLate (task : Option TEntry) (phase late seq : Nat) (s : State) : State :=
  let s := { s with tkx := { s.tkx with phaseLateCnt := satAdd s.tkx.phaseLateCnt 1 } }
  let us := satN 16 (late / (1000 * fr))
  tkxEvent 0 (match task with
    | some t => traceTask .phaseLate us t s
    | none => traceTick .phaseLate us seq phase s)

end Sys2Proof.Machine
end

