-- ==== Sys2Proof/Machine/GridEdge.lean ====
section
/-! DEFINITION. Status points and grid-edge aggregation (R312, R313, R326 to R330). -/

namespace Sys2Proof.Machine

def sepEvent (k : Nat) (s : State) : State :=
  let up := newlySet s.sep.event s.sep.eventEn k
  let s := { s with sep := { s.sep with event := setBit s.sep.event k } }
  if up then raiseBlock 9 s else s

def geCnt (k n : Nat) (s : State) : State := { s with ge := { s.ge with cnt := modAt s.ge.cnt k (satAdd · n) } }
def sepCnt (k n : Nat) (s : State) : State := { s with sep := { s.sep with cnt := modAt s.sep.cnt k (satAdd · n) } }

/-- Write one status point (R313): `pos` is 1 open, 2 closed, 0 and 3 as a Dbpos value has them. -/
def writePoint (k pos sec ns : Nat) (s : State) : State :=
  match lookupK s.sep.points k with
  | none => s
  | some p =>
    let pos := if p.invert && (pos = 1 || pos = 2) then 3 - pos else pos
    let p := { p with
      pos := pos, last := if pos = 1 ∨ pos = 2 then pos else p.last, stale := false, sec := sec, ns := ns }
    { s with sep := { s.sep with points := insertK s.sep.points k p } }

def stalePoint (k : Nat) (s : State) : State :=
  match lookupK s.sep.points k with
  | none => s
  | some p => { s with sep := { s.sep with points := insertK s.sep.points k { p with stale := true } } }

/-! Slow endpoint state (R173) -/
def slowF (u : Unit512) (hi lo : Nat) : Nat := fld u.toNat hi lo
/-- Replace bits [hi:lo] of a record. -/
def putF (u : Unit512) (hi lo v : Nat) : Unit512 :=
  let w := hi - lo + 1
  let m := BitVec.ofNat 512 ((2 ^ w - 1) <<< lo)
  (u &&& ~~~m) ||| BitVec.ofNat 512 (place lo w v)

def slowSeq (u : Unit512) : Nat := slowF u 511 480
def slowLastNs (u : Unit512) : Nat := slowF u 479 432 * 1000000000 + slowF u 431 400
def slowInterval (u : Unit512) : Nat := slowF u 303 288
def slowZone (u : Unit512) : Nat := slowF u 287 276
def slowAuth (u : Unit512) : Nat := slowF u 275 274
def slowKey (u : Unit512) : Nat := slowF u 273 268
def slowState (u : Unit512) : Nat := slowF u 265 264
def slowValid (u : Unit512) : Bool := slowF u 263 263 = 1
def slowVnom (u : Unit512) : Nat := slowF u 255 224

/-- Buckets in use: of open seconds, and of closed ones with reports that wait for their aggregation (R326). -/
def bucketsHeld (s : State) : Nat := s.ge.buckets.length + (s.ge.ready.filter fun b => !b.reps.isEmpty).length

/-- A report enters its second's bucket (R326). -/
def geReport (sec : Nat) (r : GeRep) (s : State) : State :=
  if !s.ge.running then s
  else if sec ≤ s.ge.closed then sepEvent 7 (geCnt 1 1 s)
  else
    let add : Bucket → Bucket := fun b => if b.sec = sec then { b with reps := b.reps ++ [r] } else b
    if s.ge.buckets.any fun b => b.sec = sec then
      { s with ge := { s.ge with buckets := s.ge.buckets.map add } }
    else if 16 ≤ bucketsHeld s then sepEvent 8 (geCnt 2 1 s)
    else { s with ge := { s.ge with buckets := s.ge.buckets ++ [{ sec := sec, reps := [r] }] } }

/-- GE_BUCKET_CLOSE: seconds whose instant S + 1 + GRACE_S has come close in order (R326); `fuel` bounds them. -/
def geClose : Nat → State → State
  | 0, s => s
  | k + 1, s =>
    let sec := s.ge.closed + 1
    if s.ge.running && decide (((sec + 1 + fld s.ge.cfg.toNat 3 0 : Nat) : Int) * secFr ≤ discTime s) then
      let b := (s.ge.buckets.find? fun b => b.sec = sec).getD { sec := sec, reps := [] }
      let s := { s with ge := { s.ge with
        closed := sec, buckets := s.ge.buckets.filter fun b => decide (b.sec ≠ sec), ready := s.ge.ready ++ [b] } }
      geClose k s
    else s

/-- Number of seconds that may be due. -/
def geDue (s : State) : Nat := (discTime s / secFr).toNat - s.ge.closed

def geBucketClose (s : State) : State :=
  let s := geClose (geDue s) s
  if s.ge.ready.isEmpty then s else readyAll (fun w => w = .geAgg) 0 (lastTickSeq s) s

/-- A finite binary32 as an exact rational. -/
def ratOf (x : Nat) : Option Rat :=
  match fdec f32 x with
  | .fin neg n ex =>
    let q : Rat := if 0 ≤ ex then ((n * 2 ^ ex.toNat : Nat) : Rat) else mkRat n (2 ^ (-ex).toNat)
    some (if neg then -q else q)
  | _ => none

/-- A rational rounded once to binary32; NaN for none. -/
def ratTo32 : Option Rat → Nat
  | none => 0x7FC00000
  | some q => fofRat f32 q.num q.den

/-- u of a report: mean of its finite phases over V_NOM, exactly (R327). -/
def repU (r : GeRep) (vnom : Nat) : Option Rat :=
  let l := ([r.va, r.vb, r.vc].map fun w => ratOf w.toNat).reduceOption
  match ratOf vnom with
  | some n => if l.isEmpty ∨ n = 0 then none else some (l.foldl (· + ·) 0 / ((l.length : Nat) : Rat) / n)
  | none => none

def repHasPhase (r : GeRep) : Bool := ([r.va, r.vb, r.vc].map fun w => ratOf w.toNat).any Option.isSome

/-- Histogram bin of u (R327). -/
def binOf (u : Rat) : Nat :=
  if u < 86 / 100 then 0 else
  min 15 (1 + ((u - 86 / 100) * 50).floor.toNat)

def minR (a : Option Rat) (b : Option Rat) : Option Rat :=
  match a, b with | some x, some y => some (if y < x then y else x) | some x, none => some x | none, y => y
def maxR (a : Option Rat) (b : Option Rat) : Option Rat :=
  match a, b with | some x, some y => some (if x < y then y else x) | some x, none => some x | none, y => y

/-- The sweep of R328 for second S: endpoints that turned SILENT, and their number. -/
def geSweep (sec : Nat) (since : Int) (l : List (Nat × Unit512)) : List (Nat × Unit512) × Nat :=
  l.foldr (fun (e : Nat × Unit512) (a : List (Nat × Unit512) × Nat) =>
    let u := e.2
    let last := max (slowLastNs u : Int) since
    if slowValid u && slowState u = 1 &&
        decide (last + (3 * slowInterval u * 1000000000 : Nat) < ((sec + 1 : Nat) : Int) * 1000000000) then
      ((e.1, putF u 265 264 2) :: a.1, a.2 + 1)
    else (e :: a.1, a.2)) ([], 0)

/-- Members of a zone. -/
def zoneMeters (s : State) (z : Nat) : List (Nat × Unit512) :=
  s.ing.slow.filter fun e => slowValid e.2 && slowZone e.2 = z

def outMeters (l : List (Nat × Unit512)) : Nat := (l.filter fun e => slowState e.2 = 2 || slowState e.2 = 3).length

/-- The out state of a zone after R329. -/
def zoneOut (s : State) (was : Bool) (out conf : Nat) : Bool :=
  let m := fld s.ge.outMin.toNat 19 0
  let fc := (ratOf s.ge.outFrac.toNat).getD 0 * ((conf : Nat) : Rat)
  if was then !(decide (2 * out < m) || decide (2 * ((out : Nat) : Rat) < fc))
  else decide (m ≤ out) && decide (fc ≤ ((out : Nat) : Rat))

/-- System of a zone; 0 where the image does not name it. -/
def zoneSystem (s : State) (z : Nat) : Nat :=
  match lookupK s.sep.zones z with
  | some x => fld x.entry.toNat 64 61
  | none => 0

/-- TICK_MARKS of a record that belongs to no tick: TIME_SUSPECT as at writing (R330); INVALID is added in SAFE. -/
def liveMarks (s : State) : Nat := if s.tbu.suspect then markSuspect else 0

/-- One zone's aggregation of a second (R327, R329, R330). -/
def geZone (b : Bucket) (z : Nat) (s : State) : State :=
  let ms := zoneMeters s z
  let conf := ms.length
  let out := outMeters ms
  let was := s.ge.out.contains z
  let now := zoneOut s was out conf
  let s := if now && !was then geCnt 5 1 s else s
  let s := { s with ge := { s.ge with out := if now then (if was then s.ge.out else s.ge.out ++ [z]) else s.ge.out.filter (· ≠ z) } }
  let rs := b.reps.filterMap fun r => (lookupK ms r.meter).map fun u => (r, slowVnom u)
  let us := (rs.map fun e => repU e.1 e.2).reduceOption
  let scaled := fun (f : GeRep → Word) => rs.filterMap fun e =>
    if repHasPhase e.1 then
      match ratOf (f e.1).toNat, ratOf e.2 with
      | some v, some n => if n = 0 then none else some (v / n)
      | _, _ => none
    else none
  let vmin := (scaled GeRep.vmin).foldl (fun a v => minR a (some v)) none
  let vmax := (scaled GeRep.vmax).foldl (fun a v => maxR a (some v)) none
  let mean := if us.isEmpty then none else some (us.foldl (· + ·) 0 / ((us.length : Nat) : Rat))
  let live := ((rs.filter fun e => e.1.kind ≠ 2).map fun e => e.1.meter).eraseDups.length
  let u0 := unitOf (hdr 0x52 2 (liveMarks s) ++ [(464, 48, b.sec), (452, 12, z), (448, 4, zoneSystem s z),
    (416, 32, ratTo32 vmin), (384, 32, ratTo32 vmax), (352, 32, ratTo32 mean), (326, 26, live),
    (300, 26, (rs.filter fun e => e.1.kind = 2).length), (274, 26, (rs.filter fun e => e.1.kind = 3).length),
    (248, 26, out), (222, 26, (ms.filter fun e => slowState e.2 = 0).length), (196, 26, conf), (195, 1, b2n now)])
  let u1 := unitOf ((List.range 16).map fun k => (32 * k, 32, (us.filter fun u => decide (binOf u = k)).length))
  let s := geCnt 6 (rs.filter fun e => !repHasPhase e.1).length s
  if fld s.ge.outRing 6 6 = 1 then handRec (fld s.ge.outRing 5 0) 0x52 [u0, u1] none none s else s

/-- Zones with a VALID slow endpoint, ascending. -/
def slowZones (s : State) : List Nat :=
  s.ing.slow.foldl (fun a e => if slowValid e.2 then insertN (slowZone e.2) a else a) []

/-- DIST_OUTAGE of the systems, from the zone-out states (R329). -/
def outSystems (s : State) (out : List Nat) : Nat := bitmap 16 fun k => out.any fun z => zoneSystem s z = k

/-- The aggregation of one closed second (R328 to R330). -/
def geAggregate (b : Bucket) (s : State) : State :=
  let (l, n) := geSweep b.sec s.ge.since s.ing.slow
  let s := { s with ing := { s.ing with slow := l } }
  let s := geCnt 3 n (geCnt 0 b.reps.length s)
  let s := (slowZones s).foldl (fun s z => geZone b z s) s
  geCnt 4 1 { s with ge := { s.ge with lastSec := b.sec } }

/-- The oldest closed second is aggregated; another that waits makes the task ready again. -/
def geAggNext (s : State) : State :=
  match s.ge.ready with
  | [] => s
  | b :: r =>
    let s := geAggregate b { s with ge := { s.ge with ready := r } }
    if r.isEmpty then s else readyAll (fun w => w = .geAgg) 0 (lastTickSeq s) s

end Sys2Proof.Machine
end

