-- ==== Sys2Proof/Machine/KeyStore.lean ====
section
/-! DEFINITION. The Key Store: slots, revocation, key commands, life-cycle, firmware, attestation, tamper (R455 to R486). -/

namespace Sys2Proof.Machine

def kstEvent (k : Nat) (s : State) : State :=
  let up := newlySet s.kst.event s.kst.eventEn k
  let s := { s with kst := { s.kst with event := setBit s.kst.event k } }
  if up then raiseBlock 13 s else s
def kstCnt (k n : Nat) (s : State) : State := { s with kst := { s.kst with cnt := modAt s.kst.cnt k (satAdd · n) } }

def slotOfKey (s : State) (k : Nat) : Slot := nth s.kst.slots k Slot.reset
/-- The replay windows of a slot whose key generation changes start again (R165). -/
def restartWindows (k : Nat) (s : State) : State :=
  { s with ing := { s.ing with eps := s.ing.eps.map fun e =>
      let n := e.2.entry.toNat
      (e.1, { e.2 with rt := { e.2.rt with
        cur := if fld n 102 97 = k then Replay.reset else e.2.rt.cur, next := if fld n 96 91 = k then Replay.reset else e.2.rt.next } }) } }

def setSlot (k : Nat) (x : Slot) (s : State) : State :=
  let s := if x.gen = (slotOfKey s k).gen then s else restartWindows k s
  { s with kst := { s.kst with slots := setAt s.kst.slots k x } }

/-- Life-cycle state code (R458, R459). -/
def lcState (s : State) : Nat := match s.kst.lc.getLast? with | some (c, _) => c | none => 0
def lcLeft (s : State) : Nat := 32 - s.kst.lc.length

def natBytes (n : Nat) (b : BitVec 256) : List Byte := toBE n b.toNat

/-- The identity private key (R457): the first HMAC result in range; `fuel` bounds c. -/
def identityN (root : List Byte) : Nat → Nat → Nat
  | 0, _ => 1
  | k + 1, c =>
    let d := beNat (hmac256 root ([0x48#8, 0x58#8, 0x49#8, 0x44#8] ++ toBE 1 c))
    if 1 ≤ d ∧ d < p256n then d else identityN root k (c + 1)

def identityKey (s : State) : Nat :=
  match s.kst.root with
  | some r => identityN (natBytes 32 r) 256 0
  | none => 0

/-- The derived root of the life-cycle state (R458); none in BLANK and DECOMMISSIONED. -/
def derivedRoot (s : State) : Option (List Byte) :=
  if lcState s = 0 ∨ lcState s = 4 then none
  else s.kst.root.map fun r =>
    hmac256 (natBytes 32 r) ([0x48#8, 0x58#8, 0x52#8, 0x54#8] ++ toBE 1 (lcState s) ++ toBE 1 (s.kst.lc.length - 1))

/-- X ‖ Y of a private key. -/
def pubOf (d : Nat) : List Byte :=
  match ecMul 256 d (some p256g) with
  | some (x, y) => toBE 32 x ++ toBE 32 y
  | none => List.replicate 64 0#8

def identityPub (s : State) : List Byte := pubOf (identityKey s)
def identityDigest (s : State) : List Byte := sha256 (identityPub s)

/-- ECDSA P-256 signature r ‖ s with a random k. -/
def ecdsaSign (d k : Nat) (digest : List Byte) : List Byte :=
  let r := match ecMul 256 k (some p256g) with | some (x, _) => x % p256n | none => 0
  let v := (invMod p256n k * (beNat digest + r * d)) % p256n
  toBE 32 r ++ toBE 32 v

/-- HKDF-SHA-256 of one block (R467; RFC 5869). -/
def hkdf (salt ikm info : List Byte) : List Byte := hmac256 (hmac256 salt ikm) (info ++ [1#8])

/-! Slot descriptors and registers (R463, R485) -/

def slotWord (x : Slot) : BitVec 128 :=
  if x.st = .empty then 0#128 else
  BitVec.ofNat 128 (packFields [(96, 32, x.keyId.toNat), (64, 32, x.gen), (58, 6, x.parent), (57, 1, b2n x.parRoot), (54, 3, x.typ),
    (50, 4, x.usage), (47, 3, x.st.code), (44, 3, x.cause), (42, 2, x.level), (41, 1, b2n x.inside), (40, 1, b2n x.nonExp),
    (39, 1, b2n x.pair), (38, 1, b2n x.torn), (36, 2, x.root)])

def kstStatus (s : State) : Word :=
  wordOf [(16, 7, (s.kst.slots.filter fun x => x.st = .valid).length), (8, 6, lcLeft s), (7, 1, b2n s.kst.tamperActive),
    (6, 1, b2n s.kst.tamperLatched), (5, 1, b2n s.kst.tamperArmed), (4, 1, b2n s.kst.share.isSome),
    (3, 1, b2n s.kst.rootOk), (0, 3, lcState s)]

/-! Revocation and zeroisation (R469, R471, R473) -/

/-- Generation after one more write of a slot (R471). -/
def nextGen (x : Slot) : Nat := min 0xFFFFFFFF (x.hi + 1)

/-- `y` is a child made under the value of `x` in slot `k` (R465). -/
def isChild (k : Nat) (x y : Slot) : Bool :=
  y.st ≠ .empty && !y.parRoot && decide (y.parent = k ∧ y.parGen = x.gen)

/-- Slots below slot `k`, itself included, by depth. -/
def descend (slots : List Slot) : Nat → List Nat → List Nat
  | 0, l => l
  | d + 1, l =>
    let kids := idxWhere 64 fun j => l.any fun k => isChild k (nth slots k Slot.reset) (nth slots j Slot.reset)
    descend slots d (l ++ kids.filter fun j => !l.contains j)

/-- VALID descendants of a slot, ascending. -/
def descendants (s : State) (k : Nat) : List Nat :=
  idxWhere 64 fun j => decide (j ≠ k) && (descend s.kst.slots 4 [k]).contains j && decide ((slotOfKey s j).st = .valid)

/-- A scheduled KEY_ROLL whose slot stops being VALID completes at once (R469). -/
def dropRolls (k : Nat) (s : State) : State :=
  let hit := fun (c : Sched) => match c.cmd with | .keyRoll j _ _ => decide (j = k) | _ => false
  let l := s.hif.sched.filter hit
  let s := { s with hif := { s.hif with sched := s.hif.sched.filter fun c => !hit c } }
  l.foldl (fun s c => complete c.ctx .keyRevoked s) s

/-- One descendant becomes ORPHANED (R469, R483). -/
def orphan (by_ cause : Nat) (s : State) (j : Nat) : State :=
  let s := setSlot j { slotOfKey s j with st := .orphaned, cause := 2 } s
  let s := logEv 0x42 13 0 (argOf [(282, 6, j), (276, 6, by_), (273, 3, cause)]) s
  dropRolls j (kstEvent 1 (kstCnt 3 1 s))

/-- A slot becomes REVOKED with a cause and is zeroised (R469, R471, R473). -/
def revokeOne (k cause : Nat) (s : State) : State :=
  let x := slotOfKey s k
  let g := nextGen x
  let s := if x.st = .revoked then s else kstCnt 2 1 s
  let s := setSlot k { x with st := .revoked, cause := cause, val := [], gen := g, hi := g } s
  dropRolls k (kstEvent 7 s)

/-- A slot becomes REVOKED and its VALID descendants ORPHANED. -/
def revokeSlot (k cause : Nat) (s : State) : State :=
  let kids := descendants s k
  kids.foldl (orphan k cause) (revokeOne k cause s)

/-- Every slot that is not EMPTY becomes REVOKED (R479, R480). -/
def revokeAll (cause : Nat) (s : State) : State :=
  (List.range 64).foldl (fun s k => if (slotOfKey s k).st = .empty then s else revokeOne k cause s) s

/-- Zeroise a slot to EMPTY (R461, R471). -/
def zeroise (k : Nat) (s : State) : State :=
  let x := slotOfKey s k
  let g := nextGen x
  dropRolls k (setSlot k { Slot.reset with gen := g, hi := g } s)

/-- Slots written under another root than the current state's (R461). -/
def zeroiseOthers (s : State) : State :=
  (List.range 64).foldl (fun s k =>
    let x := slotOfKey s k
    if x.st ≠ .empty ∧ x.root + 1 ≠ lcState s then zeroise k s else s) s

/-- KEY_CELL on a slot or on the master root: a command that was using the slot completes with E_INTERNAL (R473). -/
def keyCell (detail : Nat) (s : State) : State :=
  let s := kstEvent 5 s
  if detail < 64 then
    let on := fun (j : KeyJob) => match j with | .upd u => decide (u.slot = detail) | .revoke k => decide (k = detail)
    let l := s.pair.keyPend.filter fun p => on p.job
    let s := { s with pair := { s.pair with keyPend := s.pair.keyPend.filter fun p => !on p.job } }
    revokeSlot detail 5 (l.foldl (fun s p => complete p.ctx .internal s) s)
  else if detail = 0x100 then { s with kst := { s.kst with rootOk := false } } else s

/-! Ingest's view (R164, R167, R464) -/

/-- The slot serves ingest with a key of a type. -/
def usable (x : Slot) (typ : Nat) : Bool := decide (x.st ≠ .empty) && decide (x.typ = typ) && (x.usage / 4) % 2 = 1

/-- Verdict of key resolution (R164). -/
inductive KeyRes where
  | unknown
  | revoked
  | found (slot : Nat)
  deriving DecidableEq, Repr

def resolveKey (s : State) (slots : List Nat) (typ : Nat) (id : Word) : KeyRes :=
  match slots.find? fun k => usable (slotOfKey s k) typ && decide ((slotOfKey s k).keyId = id) with
  | none => .unknown
  | some k => if (slotOfKey s k).st = .valid then .found k else .revoked

/-! Key commands (R464 to R472) -/

/-- What a key command comes to: a status and RESULT, or an update to write. -/
inductive KeyOut where
  | fail (st : Status)
  /-- Its blob could not be read: E_PARAM (R353). -/
  | unread
  | upd (u : KeyUpd)
  deriving DecidableEq, Repr

/-- The command has passed its checks and goes to the slot's buffers. -/
def KeyOut.writes : KeyOut → Bool
  | .upd _ => true
  | _ => false

/-- Key commands are legal in this life-cycle state, with no tamper active (R472). -/
def keyLegal (s : State) : Bool := (lcState s = 1 || lcState s = 2 || lcState s = 3) && !s.kst.tamperActive

/-- Bytes of a key of a type (R464). -/
def keyLen (typ : Nat) : Nat :=
  match typ with | 0 => 32 | 1 => 32 | 2 => 16 | 3 => 64 | _ => 32

/-- Usages a type accepts, as bits [53:50] (R464). -/
def usageOk (typ usage : Nat) : Bool :=
  match typ with
  | 0 | 4 => usage &&& 0xE = 0
  | 1 | 2 => usage &&& 0x9 = 0
  | 3 => usage &&& 0x7 = 0
  | _ => false

/-- Parent of a new key: its depth, generation; refusals of R465 and R469. -/
def judgeParent (s : State) (parent : Nat) (isRoot : Bool) : Except Status (Nat × Nat) :=
  if isRoot then .ok (0, 0) else
  let p := slotOfKey s parent
  match p.st with
  | .orphaned | .revoked => .error .keyRevoked
  | .empty => .error .param
  | .valid => if p.usage % 2 = 0 ∨ 3 ≤ p.level then .error .param else .ok (p.level + 1, p.gen)

/-- The plain key of a blob (R467). -/
def openBlob (s : State) (typ parent : Nat) (isRoot : Bool) (slot : Nat) (keyId : Word) (blob : List Byte) : Except Status (List Byte) :=
  let n := keyLen typ
  if isRoot then
    if typ ≠ 3 ∨ blob.length ≠ 64 ∨ ecOnCurve (beAt blob 0 32) (beAt blob 32 32) = false then .error .param else .ok blob
  else
    let p := slotOfKey s parent
    if p.typ = 4 then
      if blob.length ≠ 64 + n + 8 ∨ ecOnCurve (beAt blob 0 32) (beAt blob 32 32) = false then .error .param else
      match ecMul 256 (beNat p.val) (some (beAt blob 0 32, beAt blob 32 32)) with
      | some (x, _) =>
        let kt := hkdf (identityDigest s) (toBE 32 x) ([0x48#8, 0x58#8, 0x4B#8, 0x31#8] ++ toBE 1 slot ++ toBE 4 keyId.toNat)
        match kwUnwrap kt (blob.drop 64) with
        | some k => .ok k
        | none => .error .auth
      | none => .error .param
    else if blob.length ≠ n + 8 then .error .param
    else match kwUnwrap p.val blob with
      | some k => .ok k
      | none => .error .auth

/-- A fresh private key from the entropy source (R466): free (log 2). -/
def freshKey (s : State) : Nat × State :=
  let (k, s) := drawFree s
  ((Config.freeBits k).toNat % (p256n - 1) + 1, s)

/-- KEY_GENERATE before it is written (R466). -/
def prepGenerate (p : BitVec 384) (s : State) : KeyOut × State :=
  let n := p.toNat
  let slot := fld n 383 378
  let parent := fld n 377 372
  let isRoot := fld n 371 371 = 1
  let usage := fld n 367 364
  let x := slotOfKey s slot
  if !(keyLegal s) then (.fail .state, s)
  else if fld n 370 368 ≠ 4 ∨ usageOk 4 usage = false then (.fail .param, s)
  else match judgeParent s parent isRoot with
    | .error e => (.fail e, s)
    | .ok (lvl, pg) =>
      if x.st = .valid then (.fail .state, s)
      else if x.hi = 0xFFFFFFFF then (.fail .nospace, s)
      else
        let (d, s) := freshKey s
        let new : Slot := {
          keyId := BitVec.ofNat 32 (fld n 351 320), gen := nextGen x, hi := nextGen x, parent := if isRoot then 0 else parent,
          parRoot := isRoot, parGen := pg, typ := 4, usage := usage, st := .valid, cause := 0, level := lvl, inside := true,
          nonExp := true, pair := fld n 363 363 = 1, torn := false, root := lcState s - 1, val := toBE 32 d }
        (.upd { slot := slot, new := new, out := some (fld n 319 256, pubOf d), roll := false }, s)

/-- KEY_IMPORT before it is written (R467). -/
def prepImport (p : BitVec 384) (blob : Option (List Byte)) (s : State) : KeyOut :=
  let n := p.toNat
  let slot := fld n 383 378
  let parent := fld n 377 372
  let isRoot := fld n 371 371 = 1
  let typ := fld n 370 368
  let usage := fld n 367 364
  let x := slotOfKey s slot
  let id := BitVec.ofNat 32 (fld n 351 320)
  if !(keyLegal s) then .fail .state
  else if 4 ≤ typ ∨ usageOk typ usage = false ∨ (typ = 3 ∧ isRoot = false) ∨ (isRoot = true ∧ typ ≠ 3) then .fail .param
  else match judgeParent s parent isRoot with
    | .error e => .fail e
    | .ok (lvl, pg) =>
      if x.st = .valid then .fail .state
      else if x.hi = 0xFFFFFFFF then .fail .nospace
      else match blob with
        | none => .unread
        | some b =>
          let len := fld n 255 244
          match openBlob s typ parent isRoot slot id (padTo len (b.take len)) with
            | .error e => .fail e
            | .ok v =>
              if v.length ≠ keyLen typ then .fail .param else
              let new : Slot := {
                keyId := id, gen := nextGen x, hi := nextGen x, parent := if isRoot then 0 else parent, parRoot := isRoot,
                parGen := pg, typ := typ, usage := usage, st := .valid, cause := 0, level := lvl, inside := false,
                nonExp := decide (typ ≠ 3), pair := decide (fld n 363 363 = 1), torn := false, root := lcState s - 1, val := v }
              .upd ⟨slot, new, none, false⟩

/-- KEY_ROLL before it is written (R468): slot, new key identifier, blob, address for the public key. -/
def prepRoll (slot : Nat) (id : Word) (blob : Option (List Byte)) (blobLen outAddr : Nat) (s : State) : KeyOut × State :=
  let x := slotOfKey s slot
  if !(keyLegal s) then (.fail .state, s)
  else match x.st with
    | .empty => (.fail .state, s)
    | .orphaned | .revoked => (.fail .keyRevoked, s)
    | .valid =>
      if x.gen = 0xFFFFFFFF ∨ x.hi = 0xFFFFFFFF then (.fail .nospace, s)
      else if x.typ = 4 then
        let (d, s) := freshKey s
        let new : Slot := { x with keyId := id, gen := nextGen x, hi := nextGen x, torn := false, val := toBE 32 d }
        (.upd ⟨slot, new, some (outAddr, pubOf d), true⟩, s)
      else match blob with
        | none => (.unread, s)
        | some b =>
          match openBlob s x.typ x.parent x.parRoot slot id (padTo blobLen (b.take blobLen)) with
            | .error e => (.fail e, s)
            | .ok v =>
              (.upd ⟨slot, { x with keyId := id, gen := nextGen x, hi := nextGen x, torn := false, val := v }, none, true⟩, s)

/-- Write a prepared update (R468, R471): children of a rolled key follow its generation. -/
def applyKey (u : KeyUpd) (s : State) : State :=
  let old := slotOfKey s u.slot
  let s := if u.roll then
      { s with kst := { s.kst with slots := s.kst.slots.map fun y => if isChild u.slot old y then { y with parGen := u.new.gen } else y } }
    else s
  let s := setSlot u.slot u.new s
  match u.out with | some (a, b) => emitOut (.dma a b) s | none => s

/-- KEY_REVOKE (R469): status. -/
def keyRevoke (slot : Nat) (s : State) : Status × State :=
  if !(keyLegal s) then (.state, s) else
  match (slotOfKey s slot).st with
  | .empty => (.state, s)
  | .revoked => (.ok, s)
  | _ => (.ok, revokeSlot slot 1 s)

/-! Life-cycle (R458 to R462) -/

/-- A transition's authorisation (R459): 0 none, 1 vendor, 2 owner; `none` where it is not allowed. -/
def lcAuth (a b : Nat) : Option Nat :=
  match a, b with
  | 0, 1 => some 1
  | 1, 2 => some 0
  | 2, 1 => some 2
  | 2, 3 => some 2
  | 1, 3 => some 1
  | 3, 1 => some 1
  | 2, 4 => some 2
  | 0, 4 => some 0
  | 1, 4 => some 0
  | 3, 4 => some 0
  | _, _ => none

/-- Octets a LIFECYCLE signature covers (R460). -/
def lcMessage (s : State) (a b : Nat) (owner : List Byte) : List Byte :=
  [0x48#8, 0x58#8, 0x4C#8, 0x43#8] ++ identityDigest s ++ toBE 1 a ++ toBE 1 b ++ natBytes 32 s.kst.nonce ++
    (if b = 2 then owner else [])

/-- The transition's effects (R461, R462). -/
def lcEnter (a b : Nat) (owner cert : List Byte) (s : State) : State :=
  let s := { s with kst := { s.kst with
    lc := s.kst.lc ++ [(b, if b = 2 then owner else [])]
    cert := if b = 4 then [] else if a = 0 then cert else s.kst.cert
    root := if b = 4 then none else s.kst.root
    destroyed := s.kst.destroyed || decide (b = 4)
    rootOk := s.kst.rootOk && decide (b ≠ 4) } }
  let s := zeroiseOthers s
  kstEvent 4 (logEv 0x41 13 0 (argOf [(285, 3, a), (282, 3, b), (277, 5, lcLeft s)]) s)

/-- LIFECYCLE: status and RESULT (R459, R460). -/
def lifecycle (p : BitVec 384) (sig aux : Option (List Byte)) (s : State) : Status × State :=
  let n := p.toNat
  let a := lcState s
  let b := fld n 383 381
  let live := s.kst.nonceLive
  let s' := { s with kst := { s.kst with nonceLive := false } }
  let owner := match s.kst.lc.getLast? with | some (_, o) => o | none => []
  let key := fun (k : Nat) => if k = 1 then Config.vendorKey else (beAt owner 0 32, beAt owner 32 32)
  let auxLen := fld n 223 213
  let auxBad := if b = 2 then decide (auxLen ≠ 64) || aux.isNone
    else if a = 0 ∧ b = 1 then decide (auxLen = 0) || decide (1024 < auxLen) || aux.isNone else false
  if a = 4 then (.state, s')
  else match lcAuth a b with
    | none => (.param, s')
    | some k =>
      if (lcLeft s ≤ 1 ∧ b ≠ 4) ∨ auxBad = true then (.param, s')
      else
        let x := padTo auxLen ((aux.getD []).take auxLen)
        if k = 0 then (.ok, lcEnter a b x x s')
        else match sig with
          | none => (.param, s')
          | some g =>
            if live && ecdsaVerify (key k) (beNat (sha256 (lcMessage s a b x))) (beAt g 0 32) (beAt g 32 32) then
              (.ok, lcEnter a b x x s')
            else (.auth, s')

/-! Firmware (R474) -/

/-- FW_LOAD: status, RESULT and state. `img` is the whole Genier image. -/
def fwJudge (img : List Byte) (s : State) : Status × Nat × State :=
  let n := img.length
  let m := sha256 img
  if lcState s = 4 then (.state, 0, s)
  else if n < 256 ∨ 16 * 1048576 < n then (.param, 0, s)
  else if sub img 0 4 ≠ [0x47#8, 0x4E#8, 0x46#8, 0x57#8] ∨ leNat (sub img 4 2) ≠ 1 ∨ leNat (sub img 16 2) ≠ 0x7300 ∨
      leNat (sub img 8 8) ≠ n then (.image, 0, s)
  else if ecdsaVerify Config.fwKey (beNat (sha256 (img.take (n - 64)))) (beAt img (n - 64) 32) (beAt img (n - 32) 32) = false then
    (.auth, 0, s)
  else
    let svn := leNat (sub img 6 2)
    if svn < s.kst.minSvn then (.image, 0, s)
    else (.ok, beAt m 24 8 * 2 ^ 32 + svn,
      { s with kst := { s.kst with
        banks := setAt s.kst.banks (1 - s.kst.bank) (some (BitVec.ofNat 256 (beNat m), svn)), newBank := 1 - s.kst.bank } })

/-! Attestation (R475, R476) -/

/-- SYS_ID (R395). -/
def sysId : Word := 0x7300#16 ++ (0#3 ++ Config.grade) ++ Config.silicon ++ Config.rom

/-- Bytes 0 to 1,279 of a statement. -/
def statement (challenge : List Byte) (config : BitVec 256) (s : State) : List Byte :=
  let k := s.kst
  toBE 4 0x48584154 ++ toLE 2 1 ++ toLE 2 1280 ++ toLE 4 sysId.toNat ++ toLE 1 (lcState s) ++ toLE 1 s.sys.runState.code ++
    toLE 1 s.tbu.epoch ++
    toLE 1 (b2n s.tbu.timeSet + 2 * b2n s.tbu.suspect + 4 * b2n k.tamperLatched + 8 * b2n k.tamperArmed + 16 * b2n k.retLost +
      32 * b2n s.sys.locked) ++
    padTo 32 (challenge.take 32) ++ identityPub s ++ natBytes 32 k.fwMeas ++ natBytes 32 config ++
    toLE 6 (secOf (discTime s)) ++ toLE 2 0 ++ toLE 4 (nsOf (discTime s)) ++ toLE 4 k.attestSeq ++ toLE 2 k.fwSvn ++
    toLE 2 k.tamperCnt ++ toLE 1 (lcLeft s) ++ List.replicate 59 0#8 ++
    (k.slots.map fun x => toLE 16 (slotWord x).toNat).flatten

/-- ATTEST: status, RESULT, state. `config` is the measurement of the loaded image. -/
def attest (p : BitVec 384) (challenge : Option (List Byte)) (config : BitVec 256) (s : State) : Status × Nat × State :=
  let n := p.toNat
  let withCert := fld n 242 242 = 1
  let len := 1344 + (if withCert then s.kst.cert.length else 0)
  if lcState s = 4 then (.state, 0, s)
  else if fld n 255 243 < len then (.param, 0, s)
  else if s.kst.rootOk = false then (.internal, 0, s)
  else match challenge with
    | none => (.param, 0, s)
    | some c =>
      let s := { s with kst := { s.kst with attestSeq := s.kst.attestSeq + 1 } }
      let body := statement c config s
      let (k, s) := freshKey s
      let out := body ++ ecdsaSign (identityKey s) k (sha256 body) ++ (if withCert then s.kst.cert else [])
      (.ok, len * 2 ^ 64 + s.kst.attestSeq, kstCnt 6 1 (emitOut (.dma (fld n 319 256) out) s))

/-! Registers with effects, tamper and the AON domain (R460, R479 to R481) -/

/-- KST_NONCE_READ: a new nonce is drawn and latched (R460). -/
def nonceRead (s : State) : State :=
  let (k, s) := drawFree s
  { s with
    kst := { s.kst with nonce := Config.freeBits k, nonceLive := true }
    readData := BitVec.ofNat 32 ((Config.freeBits k).toNat >>> 224) }

def tamperArm (v : Word) (s : State) : State :=
  if bitOf v 0 then { s with kst := { s.kst with tamperArmed := true } } else s

def tamperClr (v : Word) (s : State) : State :=
  if bitOf v 0 && s.sys.runState = .config then { s with kst := { s.kst with tamperLatched := false } } else s

/-- The real-time counter runs on AON time (R481). -/
def rtcNow (s : State) : Nat := s.kst.rtc + (s.sys.aon - s.kst.rtcAt) / 256000000000
def rtcSync (s : State) : State :=
  { s with kst := { s.kst with rtc := rtcNow s, rtcAt := s.kst.rtcAt + (s.sys.aon - s.kst.rtcAt) / 256000000000 * 256000000000 } }

/-- The Logbook's TAMPER record (R483). -/
def logTamper (cause : Nat) (s : State) : State :=
  logEv 0x43 13 0 (argOf [(286, 2, cause), (270, 16, s.kst.tamperCnt), (222, 48, rtcNow s)]) s

/-- Revocations of a tamper event with VIN present and the part ready (R479 step 3). -/
def tamperRevoke (s : State) : State :=
  logTamper 0 (kstEvent 2 (revokeAll 3 { s with kst := { s.kst with tamperWait := false } }))

/-- TAMPER_EVENT (R479): `low` is the number of consecutive AON cycles TAMPER_N was low. One low period is one event. -/
def tamperEvent (low : Nat) (s : State) : State :=
  if low < 4 then s else
  let was := s.kst.tamperActive
  let s := rtcSync s
  let s := { s with kst := { s.kst with tamperActive := true } }
  if !s.kst.tamperArmed || (was && s.kst.share.isNone) then s else
  let s := { s with kst := { s.kst with
    share := none, tamperLatched := true, tamperCnt := satN 16 (s.kst.tamperCnt + 1), tamperTime := s.kst.rtc, tamperWait := true } }
  if s.sys.powered && s.sys.ready then tamperRevoke s else s

/-- TAMPER_RESTORE: TAMPER_N has been high for 4 AON cycles (R479 step 4). -/
def tamperRestore (s : State) : State :=
  let s := { s with kst := { s.kst with tamperActive := false } }
  match s.kst.share with
  | some _ => s
  | none =>
    let (k, s) := drawFree s
    { s with kst := { s.kst with share := some (Config.freeBits k) } }

/-- RTC_UPDATE (R481). -/
def rtcUpdate (s : State) : State :=
  let due := match s.kst.rtcWr with | none => true | some t => decide (t + 60 * secFr ≤ s.tbu.free)
  if due && s.tbu.timeSet && !s.tbu.suspect then
    { s with kst := { s.kst with rtc := secOf (discTime s), rtcAt := s.sys.aon, rtcWr := some s.tbu.free } }
  else s

/-- RETENTION_LOSS: with VIN absent the AON domain loses its contents (R480). -/
def retentionLoss (s : State) : State :=
  if s.sys.powered then s else
  { s with
    sys := { s.sys with prevFail := 0, vinFallAt := none }
    kst := { s.kst with
      share := none, tamperArmed := false, tamperLatched := false, rtc := 0, rtcAt := s.sys.aon, retLost := true, retPend := true } }

end Sys2Proof.Machine
end

