-- ==== Sys2Proof/Machine/Sextant.lean ====
section
/-! DEFINITION. The Sextant: servo, source states, selection, cross-check, PPS, epochs (R74 to R107). -/

namespace Sys2Proof.Machine

def getDom (x : DomId) (s : State) : Dom := match x with | .a => s.tbu.domA | .b => s.tbu.domB
def modDom (x : DomId) (f : Dom → Dom) (s : State) : State :=
  match x with
  | .a => { s with tbu := { s.tbu with domA := f s.tbu.domA } }
  | .b => { s with tbu := { s.tbu with domB := f s.tbu.domB } }
def domIdx : DomId → Nat
  | .a => 0
  | .b => 1
def otherDom : DomId → DomId
  | .a => .b
  | .b => .a
def selId (s : State) : DomId := if selB s then .b else .a
def isSel (x : DomId) (s : State) : Bool := selId s = x

def Dom.enabled (d : Dom) : Bool := bitOf d.dcfg 16
def Dom.number (d : Dom) : Nat := fld d.dcfg.toNat 7 0
def Dom.onPort (d : Dom) (p : Nat) : Bool := bitOf d.dcfg (12 + p)

/-! TIME_SUSPECT and the cross-check (R90 to R92) -/

def lockThFr (s : State) : Int := (fld s.tbu.lockTh.toNat 23 0 : Int) * 65536
def agreeThFr (s : State) : Int := (fld s.tbu.agreeTh.toNat 23 0 : Int) * 65536

/-- The Logbook record of an edge of TIME_SUSPECT: TBU_CROSS[0] to [2] (R414). -/
def logSuspect (code : Nat) (s : State) : State :=
  logEv code 2 0 (argOf [(256, 32, ifld 32 (nth s.tbu.cross 0 0)), (224, 32, ifld 32 (nth s.tbu.cross 1 0)),
    (192, 32, ifld 32 (nth s.tbu.cross 2 0))]) s

/-- The conditions of R91 that hold at this instant, the pair difference apart. -/
def suspectHeld (s : State) : Bool :=
  !s.tbu.timeSet || s.tbu.clockFault ||
    match (selDom s).leftLocked with
    | none => false
    | some t => decide (t + fld s.tbu.holdLimit.toNat 15 0 * secFr < s.tbu.free)

/-- R91 judged now; `check` where this instant is a check of R90, `pairBad` where it found a difference. -/
def evalSuspect (check pairBad : Bool) (s : State) : State :=
  if pairBad || suspectHeld s then
    let was := s.tbu.suspect
    let s := { s with tbu := { s.tbu with suspect := true, lastBad := some s.tbu.free } }
    if was then s else logSuspect 0x11 (tbuEvent 4 s)
  else if check && s.tbu.suspect && decide ((s.tbu.lastBad.getD 0) + 16 * secFr < s.tbu.free) then
    logSuspect 0x12 (tbuEvent 5 { s with tbu := { s.tbu with suspect := false } })
  else s

/-- A signed difference in ns as TBU_CROSS and TBU_THETA show it: saturating (R90), to the nearest ns, ties to even (DESIGN CHOICE, log 137). -/
def crossNs (d : Int) : Int := satI 32 (rneDiv d 65536)

def qualDom (x : DomId) (s : State) : Bool := (getDom x s).st = .locked

/-- A check of R90. -/
def crossCheck (s : State) : State :=
  let a := qualDom .a s
  let b := qualDom .b s
  let p := s.tbu.pps.valid
  let dab := domTimeAt s.tbu.domA s.tbu.free - domTimeAt s.tbu.domB s.tbu.free
  let th := agreeThFr s
  let c := s.tbu.cross
  let c := if a && b then setAt c 0 (crossNs dab) else c
  let c := if a && p then setAt c 1 (crossNs s.tbu.pps.diffA) else c
  let c := if b && p then setAt c 2 (crossNs s.tbu.pps.diffB) else c
  let far := fun (d : Int) => decide (th < (d.natAbs : Int))
  let bad := (a && b && far dab) || (a && p && far s.tbu.pps.diffA) || (b && p && far s.tbu.pps.diffB)
  evalSuspect true bad { s with tbu := { s.tbu with cross := c } }

/-- Number of sources qualified for the cross-check (R90, R92). -/
def qualCount (s : State) : Nat := b2n (qualDom .a s) + b2n (qualDom .b s) + b2n s.tbu.pps.valid

/-- HOLDOVER (R88, R113). -/
def holdover (s : State) : Bool :=
  (selDom s).st = .deadReckoning || ((selDom s).st = .disabled && (selDom s).removed)

/-! Rate, selection, states (R76, R80 to R88) -/

/-- RATE_X changes: the domain is re-anchored so that its time is continuous (R76). -/
def Dom.setRate (d : Dom) (rate : Int) (free : Nat) : Dom :=
  if rate = d.rate then d else
  { d with anchor := free, offset := domTimeAt d free - free, rate := rate }

/-- A sum of terms in 2^-16 ppb as a rate in 2^-32 ns per ns (R80). -/
def rateOf (ppb16 : Int) : Int := rneDiv (ppb16 * 2 ^ 32) (1000000000 * 65536)

/-- The frequency term alone drives a domain in DEAD_RECKONING or REQUALIFY that no PPS_IN sample drives (R82, R96). -/
def Dom.holdFreq (d : Dom) (free : Nat) : Dom :=
  match d.st with
  | .deadReckoning | .requalify => d.setRate (rateOf d.freq) free
  | _ => d

/-- Selection changes to `y`: it is re-anchored so that disciplined time is continuous (R86), and TIME_SUSPECT is judged under the old
selection and the new one (R91). PPS_IN no longer assists the domain that was selected (R96, log 138). -/
def selectDom (y : DomId) (auto : Bool) (s : State) : State :=
  if isSel y s then s else
  let s := evalSuspect false false s
  let t := discTime s
  let f := s.tbu.free
  let s := modDom (selId s) (fun d => d.holdFreq f) s
  let s := modDom y (fun d => { d with anchor := f, offset := t - f }) s
  let s := { s with tbu := { s.tbu with ctrl := (s.tbu.ctrl &&& 2#32) ||| BitVec.ofNat 32 (domIdx y) } }
  let s := tbuEvent 3 s
  evalSuspect false false (logEv 0x14 2 0 (argOf [(287, 1, (domIdx y)), (286, 1, b2n auto)]) s)

/-- A write of SEL takes effect on the selection: a DISABLED domain is refused (R87). -/
def takeSel (y : DomId) (s : State) : State :=
  if isSel y s then s else if (getDom y s).st = .disabled then tbuEvent 11 s else selectDom y false s

/-- AUTO_SEL: the other domain is selected where it is LOCKED and the selected one is not; a write of SEL in the same cycle is applied
after the switch (R87). -/
def autoSelect (s : State) : State :=
  let y := otherDom (selId s)
  if bitOf s.tbu.ctrl 1 && (selDom s).st ≠ .locked && (getDom y s).st = .locked then
    match s.tbu.selWrite with
    | some (f, z) => if f = s.tbu.free then takeSel z (selectDom y true s) else selectDom y true s
    | none => selectDom y true s
  else s

/-- Cause field of the DEAD_RECKONING Logbook record (R414). -/
inductive DrCause where
  | pathStep
  | gmChange
  | syncLost
  deriving DecidableEq, Repr

def DrCause.code : DrCause → Nat
  | .pathStep => 0
  | .gmChange => 1
  | .syncLost => 2

/-- What leaving or keeping LOCKED does to the time outside LOCKED. -/
def leftAfter (d : Dom) (new : DomState) (free : Nat) : Option Nat :=
  if new = .locked then none else if d.st = .locked then some free else d.leftLocked

/-- A domain enters a state (R82 to R84, R89), and the selection is judged (R87). -/
def enterState (x : DomId) (new : DomState) (s : State) : State :=
  let s := evalSuspect false false s
  let f := s.tbu.free
  autoSelect <| modDom x (fun d =>
    let d1 := { d.holdFreq f with st := new, leftLocked := leftAfter d new f, good := 0, bad := 0 }
    match new with
    | .acquire =>
      { d1 with
        firstAcq := true, thetaOk := false
        dRef := if d.st = .freerun ∨ d.st = .disabled then [] else d.dRef
        lastSync := if d.st = .freerun ∨ d.st = .disabled then some f else d.lastSync }
    | .requalify => { d1 with requal := [], dwell := none }
    | _ => d1) s

/-- Entry into DEAD_RECKONING: frequency holdover, phase term 0 (R82). -/
def enterDr (x : DomId) (cause : DrCause) (dwell : Dwell) (s : State) : State :=
  let s := modDom x (fun d =>
    { (d.setRate (rateOf d.freq) s.tbu.free) with
      dwell := some dwell, dRef := [], drCnt := satAdd d.drCnt 1, twoStep := none }) s
  let s := logEv 0x13 2 0 (argOf [(287, 1, (domIdx x)), (284, 3, cause.code)]) (tbuEvent 2 s)
  enterState x .deadReckoning s

/-- The servo's update with a sample and an interval, 2^-16 ns (R80). -/
def servo (x : DomId) (theta : Int) (tau : Nat) (s : State) : State :=
  let d := getDom x s
  let q := rneDiv (theta * secFr) (max 1 tau)
  let fi := d.freq + rneDiv (fld d.ki.toNat 15 0 * q) 65536
  let lim : Int := 200000 * 65536
  let freq := clampI (-lim) lim fi
  let phase := clampI (-(500000 * 65536)) (500000 * 65536) (rneDiv (fld d.kp.toNat 15 0 * q) 65536)
  let s := modDom x (fun d => { (d.setRate (rateOf (freq + phase)) s.tbu.free) with freq := freq }) s
  if freq ≠ fi then tbuEvent 7 s else s

/-- The change of epoch with its records: a STEP (counted) or an initial set (R83, R99, R100). `amount` in 2^-16 ns. -/
def epochStep (amount : Int) (counted : Bool) (s : State) : State :=
  let old := s.tbu.epoch
  let new := (old + 1) % 256
  let amt := rneDiv amount 65536
  let s := { s with tbu := { s.tbu with epoch := new } }
  let s := if counted then tbuEvent 8 { s with tbu := { s.tbu with stepCnt := satAdd s.tbu.stepCnt 1 } } else s
  let u := unitOf (hdr 2 1 0 ++ [(192, 64, ifld 64 amt), (168, 8, old), (160, 8, new), (128, 32, nsOf (discTime s)),
    (64, 48, secOf (discTime s))])
  let s := (streamRings s).foldl (fun s n => handRec n 2 [u] none none s) s
  let s := logEv 0x10 2 0 (argOf [(224, 64, ifld 64 amt), (216, 8, old), (208, 8, new)]) s
  if !counted then s else
  { s with tbu := { s.tbu with pps := { s.tbu.pps with
      out := false, fallAt := none, holdTo := some (discTime s + secFr / 2), lastSec := none } } }

/-- The first sample in ACQUIRE is a direct set (R83). -/
def initialSet (x : DomId) (theta : Int) (s : State) : State :=
  let sel := isSel x s
  let s := if sel then evalSuspect false false s else s
  let s := modDom x (fun d => { d with offset := d.offset + theta }) s
  if sel then
    let s := { s with tbu := { s.tbu with timeSet := true } }
    if theta = 0 then s else epochStep theta false s
  else s

/-- Book-keeping of an applied or measured sample that was taken at `at_` on TBU_FREE. -/
def Dom.sample (d : Dom) (theta : Int) (at_ : Nat) : Dom :=
  { d with theta := theta, thetaOk := true, lastAbs := (theta.natAbs :: d.lastAbs).take 16, lastAt := some at_ }

/-- The interval from a domain's previous accepted sample to one taken at `at_` (R80); free where there is none (log 2). -/
def tauOf (x : DomId) (at_ : Nat) (s : State) : Nat × State :=
  match (getDom x s).lastAt with
  | some t => (at_ - t, s)
  | none => let (k, s) := drawFree s; (Config.freeTau k + 1, s)

/-- Counting toward LOCKED (R82). -/
def judgeAcquire (x : DomId) (theta : Int) (s : State) : State :=
  let n := if (theta.natAbs : Int) < lockThFr s then (getDom x s).good + 1 else 0
  let s := modDom x (fun d => { d with good := n }) s
  if 16 ≤ n then enterState x .locked s else s

/-- Counting toward leaving LOCKED (R82). -/
def judgeLocked (x : DomId) (theta : Int) (s : State) : State :=
  let n := if lockThFr s ≤ (theta.natAbs : Int) then (getDom x s).bad + 1 else 0
  let s := modDom x (fun d => { d with bad := n }) s
  if 16 ≤ n then enterState x .acquire s else s

/-- A sample applied in ACQUIRE (R82, R83): `tau` as R84 gives it, else from the previous accepted sample. -/
def acquireSample (x : DomId) (theta : Int) (at_ : Nat) (tau : Option Nat) (s : State) : State :=
  let first := (getDom x s).firstAcq
  let direct := first && (!(isSel x s) || !s.tbu.timeSet)
  let s := modDom x (fun d => { d with firstAcq := false }) s
  let s := if direct then modDom x (fun d => d.sample theta at_) (initialSet x theta s)
    else
      let (t, s) := match tau with | some t => (t, s) | none => tauOf x at_ s
      modDom x (fun d => d.sample theta at_) (servo x theta t s)
  judgeAcquire x theta s

/-- A sample applied in LOCKED. -/
def lockedSample (x : DomId) (theta : Int) (at_ : Nat) (tau : Option Nat) (s : State) : State :=
  let (t, s) := match tau with | some t => (t, s) | none => tauOf x at_ s
  judgeLocked x theta (modDom x (fun d => d.sample theta at_) (servo x theta t s))

/-- The largest and smallest of the measured offsets. -/
def spreadOf (l : List (Int × Nat)) : Int :=
  match l with
  | [] => 0
  | (a, _) :: r => r.foldl (fun m e => max m e.1) a - r.foldl (fun m e => min m e.1) a

/-- The 16 samples of REQUALIFY are judged (R84). An accepted mean is applied after the entry into LOCKED, and so after the selection that
the entry may cause under R87 (DESIGN CHOICE, log 139). -/
def requalJudge (x : DomId) (s : State) : State :=
  let l := (getDom x s).requal
  let sum := sumI (l.map Prod.fst)
  let mean := rneDiv sum 16
  let last := nth (l.map Prod.snd) 0 0
  let tau := last - nth (l.map Prod.snd) 1 0
  if lockThFr s < spreadOf l then modDom x (fun d => { d with requal := [] }) s
  else if (sum.natAbs : Int) ≤ agreeThFr s * 16 then
    lockedSample x mean last (some tau) (enterState x .locked s)
  else
    acquireSample x mean last (some tau) (tbuEvent 6 (enterState x .acquire s))

/-- A sample measured in REQUALIFY, not applied (R84). -/
def requalSample (x : DomId) (theta : Int) (at_ : Nat) (s : State) : State :=
  let s := modDom x (fun d => { d.sample theta at_ with requal := (theta, at_) :: d.requal }) s
  if 16 ≤ (getDom x s).requal.length then requalJudge x s else s

/-- A dwell in DEAD_RECKONING sees a Sync, which is discarded (R84). -/
def dwellSync (x : DomId) (s : State) : State :=
  match (getDom x s).dwell with
  | some (.samples n) =>
    if n ≤ 1 then enterState x .requalify s else modDom x (fun d => { d with dwell := some (.samples (n - 1)) }) s
  | _ => enterState x .requalify s

/-- Path step test of R89: |D - mean of D_ref| above PATH_STEP_TH, judged exactly. -/
def isPathStep (d : Dom) (dd : Int) (th : Nat) : Bool :=
  match d.dRef with
  | [] => false
  | l => decide ((th : Int) * 65536 * l.length < ((dd * l.length - sumI l).natAbs : Int))

/-- A path delay and offset sample of a domain, taken at `at_` on TBU_FREE (R79, R82 to R90). -/
def domSample (x : DomId) (theta dd : Int) (at_ : Nat) (s : State) : State :=
  let d := getDom x s
  match d.st with
  | .disabled | .freerun => s
  | .deadReckoning => dwellSync x s
  | st =>
    if isPathStep d dd (fld s.tbu.pathStepTh.toNat 23 0) then
      let s := modDom x (fun d => { d with pathStepCnt := satAdd d.pathStepCnt 1 }) s
      enterDr x .pathStep (.samples 16) (tbuEvent (domIdx x) s)
    else
      let s := modDom x (fun d => { d with
        dRef := (dd :: d.dRef).take 8, pathD := dd, syncCnt := satAdd d.syncCnt 1 }) s
      let s := match st with
        | .requalify => requalSample x theta at_ s
        | .acquire => acquireSample x theta at_ none s
        | _ => lockedSample x theta at_ none s
      crossCheck s

/-! Messages (R79, R84, R85) -/

def asymFr (s : State) (port : Nat) : Int := (nth s.tbu.asym port 0#32).toInt * 256
def meanLink (s : State) (port : Nat) : Int := (nth s.tbu.pdelay port Pdelay.reset).mean
def ptpFr (t : PtpTime) : Int := ((t.sec * 1000000000 + t.ns : Nat) : Int) * 65536

/-- The domain accepts PTP messages of this number on this port (R85). -/
def accepts (x : DomId) (port num : Nat) (s : State) : Bool :=
  let d := getDom x s
  d.enabled && d.number = num && d.onPort port

/-- Interval of a log value in 2^-16 ns. -/
def intervalFr (l : Int) : Nat := if 0 ≤ l then secFr * 2 ^ l.toNat else secFr / 2 ^ (-l).toNat

/-- The best master's source (R84). -/
def fromParent (d : Dom) (src : PortId) (port : Nat) : Bool :=
  match d.gm with
  | some g => g.ann.source = src && g.port = port
  | none => false

/-- The dwell after loss of Sync waits for a Sync (R84). -/
def awaitsSync (d : Dom) : Bool := d.st = .deadReckoning && d.dwell = some .firstSync

/-- A Sync for one domain (R79): one-step gives its sample, two-step waits for its Follow_Up. The first Sync received after loss of Sync
ends the dwell and is discarded, one-step or two-step (R84). -/
def syncFor (x : DomId) (port num : Nat) (src : PortId) (seq : Nat) (twoStep : Bool) (t1 : PtpTime) (corr logInt : Int)
    (s : State) : State :=
  let d := getDom x s
  if !(accepts x port num s && fromParent d src port && decide (-4 ≤ logInt) && decide (logInt ≤ 1)) then s else
  let t2 := domTimeAt d s.tbu.free
  let s := modDom x (fun d => { d with syncLog := logInt, lastSync := some s.tbu.free }) s
  if awaitsSync d then modDom x (fun d => { d with twoStep := none }) (dwellSync x s)
  else if twoStep then
    modDom x (fun d => { d with twoStep := some ⟨port, src, seq, corr, t2, s.tbu.free, logInt⟩ }) s
  else
    let dd := meanLink s port + corr
    domSample x (ptpFr t1 + dd + asymFr s port - t2) dd s.tbu.free s

/-- A Follow_Up for one domain (R79): the sample is taken where its Sync was received. -/
def followUpFor (x : DomId) (port num : Nat) (src : PortId) (seq : Nat) (t1 : PtpTime) (corr : Int) (s : State) : State :=
  let d := getDom x s
  match d.twoStep with
  | some p =>
    if accepts x port num s && decide (p.port = port ∧ p.source = src ∧ p.seq = seq) then
      let s := modDom x (fun d => { d with twoStep := none }) s
      let dd := meanLink s port + corr
      domSample x (ptpFr t1 + dd + asymFr s port - p.t2) dd p.freeAt s
    else s
  | none => s

/-- Order of the best master clock algorithm (IEEE 1588; PRESUMED, log 9): less is better. -/
def annKey (a : Announce) : List Nat :=
  [a.prio1, a.clsAcc, a.prio2, a.gm.toNat, a.steps, a.source.clock.toNat, a.source.port.toNat]

def lexLt : List Nat → List Nat → Bool
  | [], _ :: _ => true
  | _, [] => false
  | a :: r, b :: q => if a < b then true else if b < a then false else lexLt r q

/-- A foreign master is qualified: two Announce messages within four of its intervals (IEEE 1588; PRESUMED, log 9). -/
def qualified (f : Foreign) (free : Nat) : Bool :=
  match f.times with
  | t :: u :: _ => decide (t - u ≤ 4 * intervalFr f.ann.logInt) && decide (free - t ≤ 4 * intervalFr f.ann.logInt)
  | _ => false

/-- The best qualified master heard. -/
def bestOf (l : List Foreign) (free : Nat) : Option Foreign :=
  l.foldl (fun b f => if qualified f free then
      match b with
      | none => some f
      | some g => if lexLt (annKey f.ann) (annKey g.ann) then some f else b
    else b) none

/-- Remember an Announce message. -/
def noteForeign (port : Nat) (a : Announce) (free : Nat) (l : List Foreign) : List Foreign :=
  match l with
  | [] => [{ port := port, ann := a, times := [free] }]
  | f :: r =>
    if f.ann.source = a.source ∧ f.port = port then { port := port, ann := a, times := (free :: f.times).take 2 } :: r
    else f :: noteForeign port a free r

/-- The selected grandmaster is `g` (R82, R84). A change in DEAD_RECKONING starts a dwell of 16 samples anew (DESIGN CHOICE, log 140). -/
def setGm (x : DomId) (g : Foreign) (s : State) : State :=
  let d := getDom x s
  let s' := modDom x (fun d => { d with gm := some g }) s
  match d.gm with
  | none => if d.st = .freerun then enterState x .acquire s' else s'
  | some old =>
    if old.ann.gm = g.ann.gm then s' else
    let s' := tbuEvent 10 s'
    match d.st with
    | .deadReckoning => modDom x (fun d => { d with dwell := some (.samples 16) }) s'
    | .acquire | .locked | .requalify => enterDr x .gmChange (.samples 16) s'
    | _ => s'

/-- An Announce for one domain (R84, R85). -/
def announceFor (x : DomId) (port num : Nat) (a : Announce) (s : State) : State :=
  if !(accepts x port num s) then s else
  let s := modDom x (fun d => { d with foreign := noteForeign port a s.tbu.free d.foreign }) s
  match bestOf (getDom x s).foreign s.tbu.free with
  | none => s
  | some g => setGm x g s

/-- 3 Announce intervals without an Announce of the grandmaster: FREERUN (R82). Every master heard is forgotten (DESIGN CHOICE, log 141). -/
def announceTimeout (x : DomId) (s : State) : State :=
  match (getDom x s).gm with
  | none => s
  | some g =>
    if s.tbu.free < (g.times.headD 0) + 3 * intervalFr g.ann.logInt then s else
    enterState x .freerun (modDom x (fun d => { d with gm := none, foreign := [], twoStep := none, dwell := none }) s)

/-- No Sync for 3 Sync intervals (R82, R84); before a domain's first Sync its interval is taken as 1 s (PRESUMED, log 142). -/
def syncTimeout (x : DomId) (s : State) : State :=
  let d := getDom x s
  let due := match d.lastSync with
    | none => true
    | some t => decide (t + 3 * intervalFr d.syncLog ≤ s.tbu.free)
  if due && (d.st = .acquire || d.st = .locked || d.st = .requalify) then enterDr x .syncLost .firstSync s else s

/-! Register writes with effects (R86, R87, R113) -/

/-- A write of TBU_CTRL (R87): AUTO_SEL first, with the switch that it may cause, then SEL (log 143). -/
def writeTbuCtrl (v : Word) (s : State) : State :=
  let y : DomId := if bitOf v 0 then .b else .a
  let s := { s with tbu := { s.tbu with ctrl := (s.tbu.ctrl &&& 1#32) ||| (v &&& 2#32), selWrite := some (s.tbu.free, y) } }
  let y' := otherDom (selId s)
  if bitOf s.tbu.ctrl 1 && (selDom s).st ≠ .locked && (getDom y' s).st = .locked then autoSelect s else takeSel y s

/-- The value TBU_DCFG takes: PROFILE keeps on 10 and 11, RWL fields keep after CONFIG_LOCK (R113). -/
def dcfgNext (old v : Word) (locked : Bool) : Word :=
  let en := v &&& 0x10000#32
  if locked then (old &&& 0xF3FF#32) ||| en else
  let prof := if fld v.toNat 9 8 ≤ 1 then v &&& 0x300#32 else old &&& 0x300#32
  (v &&& 0xF0FF#32) ||| prof ||| en

/-- A write of TBU_DCFG_X (R82, R113). -/
def writeDcfg (x : DomId) (v : Word) (s : State) : State :=
  let d := getDom x s
  let n := dcfgNext d.dcfg v s.sys.locked
  let was := d.enabled
  let s := modDom x (fun d => { d with dcfg := n }) s
  if was = bitOf n 16 then s else
  let s := modDom x (fun d => { d with
    gm := none, foreign := [], twoStep := none, dwell := none, removed := was }) s
  enterState x (if was then .disabled else .freerun) s

/-! PPS (R95 to R97) -/

/-- The whole second nearest to a time. -/
def nearestSec (t : Int) : Int := roundDiv t secFr * secFr

/-- PPS_IN gives its selected domain no further sample: that domain runs on its held frequency (R82, R88, R96). -/
def ppsUnassist (s : State) : State :=
  let f := s.tbu.free
  modDom (selId s) (fun d => d.holdFreq f) s

/-- An edge is 1 s ± 100 µs after `t` on TBU_FREE (R95). -/
def ppsOnTime (t free : Nat) : Bool := decide (t + secFr - 100000 * fr ≤ free) && decide (free ≤ t + secFr + 100000 * fr)

/-- TBU_PPS_IN_CNT with one more rejected or accepted edge. -/
def ppsCount (rejected : Bool) (w : Word) : Word :=
  if rejected then BitVec.ofNat 32 (satN 16 (fld w.toNat 31 16 + 1) <<< 16 + fld w.toNat 15 0)
  else BitVec.ofNat 32 (fld w.toNat 31 16 <<< 16 + satN 16 (fld w.toNat 15 0 + 1))

/-- An edge of PPS_IN that R95 sees (R95, R96, R90). An edge with no accepted edge before it to be measured from is rejected and kept as
the edge from which the next one is measured (DEDUCED, log 10). -/
def ppsEdge (s : State) : State :=
  let p := s.tbu.pps
  if bitOf p.cfg 1 = false then s else
  let f := s.tbu.free
  let ok := match p.lastAcc with
    | none => false
    | some t => ppsOnTime t f
  if !ok then
    { s with tbu := { s.tbu with pps := { p with
        inCnt := ppsCount true p.inCnt, lastAcc := p.lastAcc.orElse fun _ => some f, run := 0 } } }
  else
    let delay := p.inDelay.toInt * 65536
    let t := discTime s - delay
    let ta := domTimeAt s.tbu.domA f - delay
    let tb := domTimeAt s.tbu.domB f - delay
    let run := p.run + 1
    let s := { s with tbu := { s.tbu with pps := { p with
      inCnt := ppsCount false p.inCnt
      lastAcc := some f, run := run, valid := p.valid || decide (3 ≤ run)
      inDev := ofInt 32 (satI 32 (rneDiv (t - nearestSec t) 65536))
      diffA := ta - nearestSec ta, diffB := tb - nearestSec tb } } }
    let s := if bitOf p.cfg 3 && s.tbu.pps.valid && (selDom s).st = .deadReckoning then
        servo (selId s) (nearestSec t - t) secFr s
      else s
    crossCheck s

def noteRise (s : State) : State := { s with tbu := { s.tbu with pps := { s.tbu.pps with rise := some s.tbu.free } } }

/-- A rising edge of PPS_IN; one less than 500 ns after the rising edge before it is not an edge (R546). -/
def ppsInEdge (s : State) : State :=
  let near := match s.tbu.pps.rise with
    | some t => decide (s.tbu.free < t + 500 * fr)
    | none => false
  if near then noteRise s else ppsEdge (noteRise s)

/-- 2 s with no accepted edge (R95): the next edge starts anew (log 10), and PPS_IN no longer assists (R96). -/
def ppsInLost (s : State) : State :=
  let p := s.tbu.pps
  match p.lastAcc with
  | none => s
  | some t =>
    if s.tbu.free < t + 2 * secFr then s else
    let s := { s with tbu := { s.tbu with pps := { p with lastAcc := none, run := 0, valid := false } } }
    if p.valid then tbuEvent 9 (ppsUnassist s) else s

/-- Disciplined time crosses a whole second (R97). -/
def ppsOutSecond (s : State) : State :=
  let p := s.tbu.pps
  let sec := discTime s / (secFr : Int)
  let held := match p.holdTo with | some t => decide (sec * (secFr : Int) < t) | none => false
  if !(bitOf p.cfg 0) || !s.tbu.timeSet || held || decide (p.lastSec = some sec) then s else
  { s with tbu := { s.tbu with pps := { p with
      out := true, fallAt := some (s.tbu.free + fld p.cfg.toNat 31 12 * 1000 * fr), holdTo := none,
      lastSec := some sec } } }

/-- PPS_OUT has been high for WIDTH_US (R97). -/
def ppsOutFall (s : State) : State :=
  match s.tbu.pps.fallAt with
  | none => s
  | some t => if s.tbu.free < t then s else
    { s with tbu := { s.tbu with pps := { s.tbu.pps with out := false, fallAt := none } } }

/-- TBU_SNAP captures (R78). -/
def tbuSnap (v : Word) (s : State) : State :=
  if bitOf v 0 then
    { s with tbu := { s.tbu with
        snapEpoch := s.tbu.epoch, snapFree := s.tbu.free, snapTime := discTime s
        snapA := domTimeAt s.tbu.domA s.tbu.free, snapB := domTimeAt s.tbu.domB s.tbu.free } }
  else s

/-! Time quality of outputs (R106) -/

/-- Time since the selected domain left LOCKED, 2^-16 ns; 0 in LOCKED. -/
def outsideLocked (s : State) : Nat := match (selDom s).leftLocked with | none => 0 | some t => s.tbu.free - t

/-- Decade of the estimated error above 1 µs: 0 where e is at most 1 µs, then one more for each decade (R106); e in ns times 10. -/
def decadeOf (strict : Bool) : Nat → Nat → Nat → Nat
  | 0, _, _ => 0
  | k + 1, e, lim => if (if strict then decide (e < lim) else decide (e ≤ lim)) then 0 else 1 + decadeOf strict k e (lim * 10)

/-- The estimated error e = 200 ns + 100 ns/s × h, in 2^-16 ns (R106). -/
def estError (h : Nat) : Nat := 200 * fr + 100 * h / 1000000000

/-- Doublings of e above 1 µs, rounded up (R106: 1 less per doubling of e). -/
def doublingsOf : Nat → Nat → Nat → Nat
  | 0, _, _ => 0
  | k + 1, e, lim => if e ≤ lim then 0 else 1 + doublingsOf k e (2 * lim)

/-- The table of R106, at a commit. -/
def timeQuality (suspect : Bool) (s : State) : TimeQ :=
  if suspect then ⟨0xF, 1, 7, 3, 0, 31⟩ else
  if (selDom s).st = .locked then
    if maxN (selDom s).lastAbs < 100 * fr then ⟨0, 0, 1, 0, 2, 23⟩ else ⟨0, 0, 2, 0, 2, 20⟩
  else
    let h := outsideLocked s
    let e := estError h
    ⟨min 0xB (4 + decadeOf false 7 e (1000 * fr)), 0, min 7 (2 + decadeOf true 5 e (1000 * fr)),
     (if h < 10 * secFr then 0 else if h < 100 * secFr then 1 else if h < 1000 * secFr then 2 else 3), 2,
     20 - doublingsOf 20 e (1000 * fr)⟩

/-- The currentUtcOffset pair of the selected domain: value, valid, leap61, leap59 (TBU_UTC_OFFSET, R111). -/
def utcInfo (s : State) : Int × Bool × Bool × Bool :=
  match (selDom s).gm with
  | some g => (g.ann.utcOffset, g.ann.utcValid, g.ann.leap61, g.ann.leap59)
  | none => (0, false, false, false)

end Sys2Proof.Machine
end

