-- ==== Sys2Proof/Machine/Net.lean ====
section
/-! DEFINITION. The Ethernet ports: receive steps, queues, transmission, pause, preemption, PRP, bridge, downshift, low-power idle (R114 to R145, R108 to R110). -/

namespace Sys2Proof.Machine

def netEvent (k : Nat) (s : State) : State :=
  let up := newlySet s.net.event s.net.eventEn k
  let s := { s with net := { s.net with event := setBit s.net.event k } }
  if up then raiseBlock 3 s else s

def portOf (s : State) (p : Nat) : Port := nth s.net.ports p Port.reset
def modPort (p : Nat) (f : Port → Port) (s : State) : State :=
  { s with net := { s.net with ports := modAt s.net.ports p f } }
/-- NET_CNT[p][k] plus `n` (R141). -/
def netCnt (p k n : Nat) (s : State) : State := modPort p (fun q => { q with cnt := modAt q.cnt k (satAdd · n) }) s

def Port.mode (q : Port) : Nat := fld q.cfg.toNat 2 0
def Port.fec (q : Port) : Nat := fld q.cfg.toNat 11 10
def Port.anEn (q : Port) : Bool := bitOf q.cfg 9
def Port.deliverBad (q : Port) : Bool := bitOf q.cfg 16
def Port.pauseRxEn (q : Port) : Bool := bitOf q.cfg 17
def Port.max (q : Port) : Nat := fld q.maxFrame.toNat 13 0
def Port.dsEn (q : Port) : Bool := bitOf q.ds 0

/-- Bit rate of a mode in Mb/s (R114). -/
def mbpsOf (mode : Nat) : Nat :=
  if mode = 1 then 1000 else if mode = 2 ∨ mode = 3 then 10000 else if mode = 0 then 0 else 25000

/-- Time of `bytes` on the line in 2^-16 ns, rounded up. -/
def lineFr (mode bytes : Nat) : Nat := ceilDiv (bytes * 8 * 1000 * fr) (max 1 (mbpsOf mode))

/-- A FEC value the mode allows; others store 00 (R114). -/
def fecAllowed (mode fec : Nat) : Bool :=
  match mode with
  | 3 => fec ≤ 1
  | 4 | 5 | 6 => fec ≤ 2
  | _ => fec = 0

/-- A write of NET_PCFG (R114, R143). RWL fields keep their values once the configuration is locked. -/
def pcfgNext (old v : Word) (locked : Bool) : Word :=
  let rw := v.toNat &&& 0x30000
  if locked then BitVec.ofNat 32 (rw + (old.toNat &&& 0xE07)) else
  let mode := if fld v.toNat 2 0 = 7 then fld old.toNat 2 0 else fld v.toNat 2 0
  let fec := if fld v.toNat 11 10 = 3 then fld old.toNat 11 10 else fld v.toNat 11 10
  let fec := if fecAllowed mode fec then fec else 0
  BitVec.ofNat 32 (rw + fec * 1024 + (v.toNat &&& 0x200) + mode)

/-- NET_PCFG[p].PTP_PORT (R138). -/
def ptpPort (s : State) (p : Nat) : Bool :=
  (s.tbu.domA.enabled && s.tbu.domA.onPort p) || (s.tbu.domB.enabled && s.tbu.domB.onPort p) ||
    (decide (2 ≤ p) && bitOf s.tbu.tcCfg 0)

/-- NET_PCFG[p] as it reads (R143). -/
def pcfgRead (s : State) (p : Nat) : Word :=
  let q := portOf s p
  BitVec.ofNat 32 ((q.cfg.toNat &&& 0x30E07) + b2n (ptpPort s p) * 2 ^ 18 + b2n q.alarmEgress * 2 ^ 19)

/-- The pair of a port where PRP is on (R133). -/
def paired (s : State) (p : Nat) : Bool := bitOf s.net.prpCfg (p / 2)
def mateOf (p : Nat) : Nat := if p % 2 = 0 then p + 1 else p - 1

/-- The TC bridge is on and the port is one of its two (R108). -/
def bridged (s : State) (p : Nat) : Bool := bitOf s.tbu.tcCfg 0 && (p = 2 || p = 3)

/-- Time paused up to an instant and not yet counted, in 2^-16 ns. -/
def Port.pausedFor (q : Port) (upTo : Nat) : Nat :=
  match q.pause with
  | none => q.pauseRem
  | some (a, e) => min upTo e - a + q.pauseRem

/-- Whole microseconds of a pause are counted up to an instant (R125). -/
def settlePause (p : Nat) (upTo : Nat) (s : State) : State :=
  let t := (portOf s p).pausedFor upTo
  modPort p (fun q => { q with pauseRem := t % (1000 * fr), pause := q.pause.map fun x => (max x.1 (min upTo x.2), x.2) })
    (netCnt p 22 (t / (1000 * fr)) s)

/-- A pause is in force (R124). -/
def pausedNow (s : State) (p : Nat) : Bool :=
  match (portOf s p).pause with
  | none => false
  | some (_, e) => decide (s.tbu.free < e)

/-- Replace `n` bytes from offset `o`. -/
def patch (l : List Byte) (o : Nat) (b : List Byte) : List Byte := l.take o ++ b ++ l.drop (o + b.length)

/-- Offset of the MAC payload: 14, or 18 with one tag (R119). -/
def ethOff (l : List Byte) : Nat := if beAt l 12 2 = 0x8100 then 18 else 14
def etherType (l : List Byte) : Nat := beAt l (ethOff l - 2) 2

/-! Handing frames to a port (R115, R126, R127, R133) -/

/-- Bytes on the line as R117 counts them of a frame of so many octets before the FCS. -/
def frameLen (n : Nat) : Nat := max 64 (n + 4)

/-- An IP address is an IPv4 one, held as IPv4-mapped. -/
def isV4 (a : Nat) : Bool := decide (a / 2 ^ 32 = 0xFFFF)
/-- Octets of a group's frames before the SPDU, and of their signature (R344). -/
def groupHeadLen (g : GroupSec) : Nat := 14 + (if isV4 g.dstIp then 20 else 40) + 8
def tagLen (auth : Nat) : Nat := if auth = 0 then 0 else 16

def TxFrame.plain (bytes : List Byte) : TxFrame :=
  { body := .raw bytes, len := frameLen bytes.length, rct := none, mark := .none, tick := none, held := false }

/-- A frame that becomes ready in low-power idle waits for the wake time (R140). -/
def wakePort (p : Nat) (s : State) : State :=
  let q := portOf s p
  if q.lpiTx then
    let w := if mbpsOf q.speed = 10000 then 5000 else 6000
    modPort p (fun q => { q with lpiTx := false, wakeAt := s.tbu.free + w * fr }) s
  else s

/-- The preemptable FIFO takes frames that wait for its room (R23, R176). -/
def Port.refill (q : Port) : Port :=
  let n := 64 - q.pre.length
  { q with pre := q.pre ++ q.todo.take n, todo := q.todo.drop n }

/-- Put a frame into one port's express or preemptable queue; a full preemptable FIFO lets it wait (R127, R176). -/
def queueFrame (p : Nat) (express : Bool) (f : TxFrame) (s : State) : State :=
  if !(portOf s p).linkUp then netCnt p 26 1 s
  else if express then
    if 64 + 1024 ≤ (portOf s p).express.length then netEvent 9 (netCnt p 25 1 s)
    else modPort p (fun q => { q with express := q.express ++ [f] }) (wakePort p s)
  else modPort p (fun q => { q with todo := q.todo ++ [f] }.refill) (wakePort p s)

/-- The redundancy control trailer: sequence number, LAN, LSDU size, suffix (R133; IEC 62439-3). -/
def rctOf (seq lan size : Nat) : Nat := seq * 2 ^ 32 + lan * 2 ^ 28 + (size % 4096) * 2 ^ 16 + 0x88FB

/-- A copy of a frame with its RCT; its LSDU reaches from the end of the header and tag to the end of the RCT (R133). -/
def withRct (f : TxFrame) (seq lan : Nat) : TxFrame :=
  { f with len := f.len + 6, rct := some (rctOf seq lan (f.len + 6 - 4 - ethOff f.body.bytes)) }

/-- The copies of a frame handed to a port, by port: on a paired port one for each of the pair, with one sequence number (R133). The use that a
frame's egress stamp has is that of the port it was handed to (log 13). -/
def copies (p : Nat) (f : TxFrame) (s : State) : List (Nat × TxFrame) × State :=
  if paired s p then
    let seq := nth s.net.prpSeq (p / 2) 0
    let f' := fun (e : Nat) => if e = p then f else { f with mark := .none }
    let even := p - p % 2
    ([(even, withRct (f' even) seq 0xA), (even + 1, withRct (f' (even + 1)) seq 0xB)],
     { s with net := { s.net with prpSeq := modAt s.net.prpSeq (p / 2) (fun n => (n + 1) % 65536) } })
  else ([(p, f)], s)

/-- Hand a frame to a port, and its copy to the other of a pair (R133). -/
def handFrame (p : Nat) (express : Bool) (f : TxFrame) (s : State) : State :=
  (copies p f s).1.foldl (fun s c => queueFrame c.1 express c.2 s) (copies p f s).2

/-- Frames of ticks, with one more of tick g. -/
def addShed (g : Nat) (f : TxFrame) (l : List (Nat × List TxFrame)) : List (Nat × List TxFrame) :=
  if l.any fun e => e.1 = g then l.map fun e => if e.1 = g then (g, e.2 ++ [f]) else e else l ++ [(g, [f])]

/-- A frame of tick g waits in SLACK for its port, and its copy for the other of a pair (R53, R115). -/
def shedFrame (p g : Nat) (f : TxFrame) (s : State) : State :=
  (copies p f s).1.foldl (fun s c =>
    if (portOf s c.1).linkUp then modPort c.1 (fun q => { q with shed := addShed g { c.2 with held := true } q.shed }) s else netCnt c.1 26 1 s)
    (copies p f s).2

/-- Frames of tick g leave SLACK for port p's transmit FIFO. -/
def unshedPort (p g : Nat) (s : State) : State :=
  let l := ((portOf s p).shed.filter fun e => e.1 = g).flatMap Prod.snd
  l.foldl (fun s f => queueFrame p false f s) (modPort p (fun q => { q with shed := q.shed.filter fun e => e.1 ≠ g }) s)

/-- Ticks held on a port, oldest first (R126). -/
def heldTicks (q : Port) : List Nat :=
  (((q.pre ++ q.todo).filter TxFrame.held).filterMap TxFrame.tick ++ q.shed.map Prod.fst).eraseDups

/-- Frames of tick g that wait in the port's transmit FIFO are held ones from now on (R53). -/
def markHeld (p g : Nat) (s : State) : State :=
  let h := fun (f : TxFrame) => if f.tick = some g then { f with held := true } else f
  modPort p (fun q => { q with pre := q.pre.map h, todo := q.todo.map h }) s

/-- Drop a held tick's frames that have not begun (R126). -/
def dropHeld (p g : Nat) (s : State) : State :=
  let isOld := fun (f : TxFrame) => f.held && f.tick = some g
  let n := (((portOf s p).pre ++ (portOf s p).todo).filter isOld).length + (((portOf s p).shed.filter fun e => e.1 = g).flatMap Prod.snd).length
  let s := modPort p (fun q => { q with
    pre := q.pre.filter fun f => !isOld f, todo := q.todo.filter fun f => !isOld f, shed := q.shed.filter fun e => e.1 ≠ g }.refill) s
  netEvent 8 (netCnt p 24 n (netCnt p 23 1 s))

/-- A ninth held tick drops the oldest (R126). -/
def limitHeld (p : Nat) (s : State) : State :=
  match heldTicks (portOf s p) with
  | g :: r => if 8 ≤ r.length then dropHeld p g s else s
  | [] => s

/-! Transmission (R103, R109, R110, R128 to R130) -/

/-- Add to a PTP correctionField, in 2^-16 ns; a saturated sum is counted (R110). -/
def addCorr (l : List Byte) (add : Int) (s : State) : List Byte × State :=
  let o := ethOff l + 8
  let old := (BitVec.ofNat 64 (beAt l o 8)).toInt
  let top : Int := 2 ^ 63 - 1
  let new := old + add
  if old = top ∨ top < new then
    (patch l o (toBE 8 top.toNat), { s with tbu := { s.tbu with tcSat := satAdd s.tbu.tcSat 1 } })
  else (patch l o (toBE 8 (ofInt 64 new).toNat), s)

/-- RATE of the domain whose number matches; 0 where neither does (R109). -/
def tcRate (s : State) (num : Nat) : Int :=
  if s.tbu.domA.number = num then s.tbu.domA.rate else if s.tbu.domB.number = num then s.tbu.domB.rate else 0

/-- Residence plus, for a Sync, link delay and asymmetry, rounded once (R109). -/
def tcAdd (s : State) (num freeIn : Nat) (link : Int) : Int :=
  let d : Int := (s.tbu.free : Int) - freeIn
  rneDiv ((d + link) * 2 ^ 32 + d * tcRate s num) (2 ^ 32)

/-- Sequence number and source of a PTP frame. -/
def ptpSeq (l : List Byte) : Nat := beAt l (ethOff l + 30) 2
def ptpSrc (l : List Byte) : PortId :=
  ⟨BitVec.ofNat 64 (beAt l (ethOff l + 20) 8), BitVec.ofNat 16 (beAt l (ethOff l + 28) 2)⟩
def ptpDomain (l : List Byte) : Nat := beAt l (ethOff l + 4) 1
def ptpType (l : List Byte) : Nat := beAt l (ethOff l) 1 % 16
def ptpTwoStep (l : List Byte) : Bool := (nth l (ethOff l + 6) 0#8).getLsbD 1

def tcFwd (s : State) : State := { s with tbu := { s.tbu with tcFwd := satAdd s.tbu.tcFwd 1 } }

/-- An entry of a two-step Sync; the table holds 16 per direction, the oldest leaves (R109). -/
def tcRemember (e : TcEntry) (s : State) : State :=
  let same := s.tbu.tc.filter fun x => x.dir = e.dir
  let tc := if 16 ≤ same.length then
      match same with
      | o :: _ => s.tbu.tc.erase o
      | [] => s.tbu.tc
    else s.tbu.tc
  { s with tbu := { s.tbu with tc := tc ++ [e] } }

/-- Header of a PTP message over Ethernet (IEEE 1588): type, version 2, length, domain, flags, correction, source, sequence. -/
def ptpHead (mac typ len domain flags corr port seq ctl : Nat) : List Byte :=
  toBE 6 0x0180C200000E ++ toBE 6 mac ++ toBE 2 0x88F7 ++
    toBE 1 typ ++ toBE 1 2 ++ toBE 2 len ++ toBE 1 domain ++ toBE 1 0 ++ toBE 2 flags ++ toBE 8 corr ++ toBE 4 0 ++
    toBE 3 (mac >>> 24) ++ toBE 2 0xFFFE ++ toBE 3 (mac % 2 ^ 24) ++ toBE 2 port ++ toBE 2 seq ++ toBE 1 ctl ++ toBE 1 0x7F

/-- A timestamp of 6 octets of seconds and 4 of nanoseconds from a time in 2^-16 ns. -/
def ptpStamp (t : Int) : List Byte := toBE 6 (secOf t) ++ toBE 4 (nsOf t)

def portIdBytes (p : PortId) : List Byte := toBE 8 p.clock.toNat ++ toBE 2 p.port.toNat

/-- What the egress of a marked frame does: its final content and its effect on state (R79, R109). -/
def egress (p : Nat) (f : TxFrame) (s : State) : TxBody × State :=
  match f.body, f.mark with
  | .raw l, .sync inp freeIn =>
    let add := tcAdd s (ptpDomain l) freeIn (meanLink s inp + asymFr s inp)
    if ptpTwoStep l then (.raw l, tcRemember ⟨inp, ptpSrc l, ptpSeq l, add, s.tbu.free⟩ s)
    else let (l, s) := addCorr l add (tcFwd s); (.raw l, s)
  | .raw l, .delayReq freeIn =>
    let (l, s) := addCorr l (tcAdd s (ptpDomain l) freeIn 0) (tcFwd s)
    (.raw l, s)
  | .raw l, .followUp inp =>
    match s.tbu.tc.find? fun e => e.dir = inp && e.source = ptpSrc l && e.seq = ptpSeq l with
    | some e =>
      let (l, s) := addCorr l e.add { s with tbu := { s.tbu with tc := s.tbu.tc.erase e } }
      (.raw l, s)
    | none => (.raw l, { s with tbu := { s.tbu with tcUnm := satAdd s.tbu.tcUnm 1 } })
  | b, .pdelayReq seq =>
    (b, { s with tbu := { s.tbu with pdelay := modAt s.tbu.pdelay p fun d =>
        { d with seq := seq, t1 := some s.tbu.free, resp := none } } })
  | b, .pdelayResp src seq domain =>
    let fu := ptpHead (portOf s p).mac 0xA 54 domain 0 0 (p + 1) seq 5 ++ ptpStamp (discTime s) ++ portIdBytes src
    (b, handFrame p true (TxFrame.plain fu) s)
  | b, _ => (b, s)

/-- Start a frame on an idle line (R128). -/
def startFrame (p : Nat) (express : Bool) (f : TxFrame) (s : State) : State :=
  let (b, s) := egress p f s
  let s := modPort p (fun q => { q with
    line := some { frame := f, express := express, at_ := s.tbu.free, sent := 0, split := false }
    txOct := satN 64 (q.txOct + f.len), dsTx := q.dsTx + f.len }) s
  let s := netCnt p 17 1 s
  let s := if express then netCnt p 20 1 s else s
  emitOut (.frame p b f.rct) s

/-- Instant at which the present frame or fragment leaves the line free. -/
def lineEnd (q : Port) (t : TxLine) : Nat := t.at_ + lineFr q.speed (t.frame.len - t.sent + 20)

/-- Bytes of the present fragment sent by now. -/
def fragSent (q : Port) (t : TxLine) (now : Nat) : Nat :=
  (now - t.at_) * mbpsOf q.speed / (8000 * fr)

def preemptActive (q : Port) : Bool :=
  q.linkUp && bitOf q.preempt 0 && (bitOf q.preempt 1 || q.verify = .succeeded)

/-- The point at which an express frame may interrupt (R130). -/
def mayPreempt (q : Port) (t : TxLine) (now : Nat) : Bool :=
  let f := fragSent q t now
  preemptActive q && !t.express && decide (64 * (1 + fld q.preempt.toNat 5 4) ≤ f + 4) &&
    decide (t.sent + f + 64 ≤ t.frame.len)

/-- The line is free: the next frame starts or a preempted one resumes (R128, R130). -/
def nextFrame (p : Nat) (s : State) : State :=
  let q := portOf s p
  let s := modPort p (fun q => { q with line := none }) s
  match q.express, q.suspended, q.pre with
  | f :: r, _, _ => startFrame p true f (modPort p (fun q => { q with express := r }) s)
  | [], some t, _ => modPort p (fun q => { q with line := some { t with at_ := s.tbu.free }, suspended := none }) s
  | [], none, f :: r => startFrame p false f (modPort p (fun q => { q with pre := r }.refill) s)
  | [], none, [] => modPort p (fun x => { x with idleAt := match q.line with | some t => lineEnd q t | none => x.idleAt }) s

/-- A preemptable frame is interrupted (R130). -/
def interruptFrame (p : Nat) (t : TxLine) (s : State) : State :=
  let q := portOf s p
  let s := if t.split then s else netCnt p 21 1 s
  let s := modPort p (fun q' => { q' with
    suspended := some { t with sent := t.sent + fragSent q t s.tbu.free, split := true }, line := none }) s
  match q.express with
  | f :: r => startFrame p true f (modPort p (fun q => { q with express := r }) s)
  | [] => s

/-- Every frame that waits on a port whose link is down is discarded (R115). -/
def flushDown (p : Nat) (s : State) : State :=
  let q := portOf s p
  let s := netCnt p 26 (q.express.length + q.pre.length + q.todo.length) s
  modPort p (fun q => { q with express := [], pre := [], todo := [], dsPend := none, suspended := none, line := none }) s

/-! Link state (R114, R115, R129, R139, R140) -/

/-- The Clause 73 base page of a mode in effect and the FEC field of NET_PCFG (R114). -/
def basePage (mode cfgMode fec : Nat) : BasePage :=
  let kr25 := cfgMode = 5 ∨ cfgMode = 6
  { tech := mode, f0 := true, f1 := decide (1 ≤ fec), f2 := decide (fec = 2 ∧ kr25), f3 := decide (fec = 1 ∧ kr25) }

/-- FEC in effect under the resolution of IEEE 802.3 from both base pages (R114, log 124). -/
def fecResolve (mode fec : Nat) (b : Option BasePage) (l : LinkIn) : Nat :=
  match b with
  | none => fec
  | some b =>
    if mode = 3 then (if b.f0 && l.f0 && (b.f1 || l.f1) then 1 else 0)
    else if b.f2 || l.f2 then 2
    else if b.f3 || l.f3 then 1 else 0

/-- A port's mode runs Clause 73, Clause 37 included by the wider test. -/
def clause73 (mode : Nat) : Bool := mode = 3 || mode = 5 || mode = 6
def autoneg (mode : Nat) : Bool := clause73 mode || mode = 1

/-- Preemption verification starts anew (R129). -/
def startVerify (p : Nat) (s : State) : State :=
  let q := portOf s p
  if bitOf q.preempt 0 && !(bitOf q.preempt 1) && q.linkUp then
    emitOut (.mpacket p false) (modPort p (fun q => { q with
      verify := .verifying, attempts := 1
      verifyAt := s.tbu.free + fld q.preempt.toNat 15 8 * 1000000 * fr }) s)
  else modPort p (fun q => { q with verify := .disabled, attempts := 0 }) s

/-- LINK_UP: under Clause 73 the port has advertised its base page (R114). -/
def linkUp (p : Nat) (l : LinkIn) (s : State) : State :=
  let q := portOf s p
  if q.linkUp || q.mode = 0 then s else
  let mode := if q.dsActive then 3 else q.mode
  let an := q.anEn && autoneg mode
  let page := if q.anEn && clause73 mode then some (basePage mode q.mode q.fec) else none
  let s := match page with
    | some b => emitOut (.basePage p b) s
    | none => s
  let s := modPort p (fun q => { q with
    linkUp := true, anDone := an, speed := mode, fecAct := fecResolve mode q.fec page l
    eee := l.eee && an && decide (mode ≠ 1), idleAt := s.tbu.free, wakeAt := 0 }) s
  startVerify p (netEvent p s)

/-- LINK_DOWN (R115): pause, verification and held ticks are cleared. -/
def linkDown (p : Nat) (s : State) : State :=
  let q := portOf s p
  if !q.linkUp then s else
  let s := settlePause p s.tbu.free s
  let s := (heldTicks q).foldl (fun s g => dropHeld p g s) s
  let s := modPort p (fun q => { q with
    linkUp := false, anDone := false, speed := 0, fecAct := 0, pause := none, pauseRem := 0, verify := .disabled
    attempts := 0, assy := none, lpiTx := false, lpiRx := false, eee := false }) s
  netEvent p (flushDown p s)

/-- PREEMPT_VERIFY_TIMER (R129). -/
def verifyTimer (p : Nat) (s : State) : State :=
  let q := portOf s p
  if q.verify ≠ .verifying ∨ s.tbu.free < q.verifyAt then s
  else if q.attempts < 3 then
    emitOut (.mpacket p false) (modPort p (fun q => { q with
      attempts := q.attempts + 1, verifyAt := s.tbu.free + fld q.preempt.toNat 15 8 * 1000000 * fr }) s)
  else netEvent 7 (modPort p (fun q => { q with verify := .failed }) s)

/-- LPI_IDLE_TIMER (R140). -/
def lpiIdle (p : Nat) (s : State) : State :=
  let q := portOf s p
  let lineBusy := match q.line with | some t => decide (s.tbu.free < lineEnd q t) | none => false
  let since := match q.line with | some t => max q.idleAt (lineEnd q t) | none => q.idleAt
  if q.linkUp && bitOf q.lpi 0 && q.eee && !q.lpiTx && !lineBusy && q.suspended.isNone && q.express.isEmpty &&
      q.pre.isEmpty && q.todo.isEmpty && decide (10000 ≤ mbpsOf q.speed) &&
      decide (since + fld q.lpi.toNat 15 4 * 1000 * fr ≤ s.tbu.free) then
    netCnt p 27 1 (modPort p (fun q => { q with lpiTx := true }) s)
  else s

/-- PAUSE_TIMER_EXPIRY (R124). -/
def pauseExpiry (p : Nat) (s : State) : State :=
  match (portOf s p).pause with
  | none => s
  | some (_, e) => if s.tbu.free < e then s else modPort p (fun q => { q with pause := none }) (settlePause p e s)

/-- The link renegotiates (R139). -/
def renegotiate (p : Nat) (down : Bool) (s : State) : State :=
  let s := linkDown p s
  netEvent 6 (netCnt p 28 1 (modPort p (fun q => { q with dsActive := down, dsLow := 0, dsPend := none }) s))

/-- A frame is in transmission, an interrupted one included. -/
def sending (q : Port) (now : Nat) : Bool :=
  q.suspended.isSome || (match q.line with | some t => decide (now < lineEnd q t) | none => false)

/-- The port shifts at the end of the frame in transmission (R139). -/
def dsShift (p : Nat) (down : Bool) (s : State) : State :=
  if sending (portOf s p) s.tbu.free then modPort p (fun q => { q with dsPend := some down }) s else renegotiate p down s

/-- An interrupted frame goes on before a shift; then the link renegotiates. -/
def endForShift (p : Nat) (down : Bool) (s : State) : State :=
  match (portOf s p).suspended with
  | some t => modPort p (fun q => { q with line := some { t with at_ := s.tbu.free }, suspended := none }) s
  | none => renegotiate p down s

/-- The line is free: what comes next on it. -/
def lineFree (p : Nat) (s : State) : State :=
  match (portOf s p).dsPend with
  | some d => endForShift p d s
  | none => nextFrame p s

/-- PORT_FRAME_TRANSMIT. -/
def portTransmit (p : Nat) (s : State) : State :=
  let q := portOf s p
  if !q.linkUp then flushDown p s
  else if pausedNow s p || decide (s.tbu.free < q.wakeAt) then s
  else
    match q.line with
    | some t =>
      if lineEnd q t ≤ s.tbu.free then lineFree p s
      else if mayPreempt q t s.tbu.free && !q.express.isEmpty && q.dsPend.isNone then interruptFrame p t s
      else s
    | none => lineFree p s

/-- A port that may not be downshifted returns to 25 Gb/s (R41, R138). -/
def dsRevoke (p : Nat) (s : State) : State :=
  let q := portOf s p
  if !q.dsEn then s else
  let s := modPort p (fun q => { q with ds := q.ds &&& 0xFFFFFFFE#32 }) s
  let s := if q.dsActive then dsShift p false s else s
  netEvent 5 s

/-- Ports that gained PTP_PORT lose downshift (R138). -/
def dsCheck (s : State) : State :=
  (List.range 4).foldl (fun s p => if ptpPort s p then dsRevoke p s else s) s

/-- DS_INTERVAL (R139): traffic against 10 Gb/s over one second. -/
def dsInterval (p : Nat) (s : State) : State :=
  let q := portOf s p
  if s.tbu.free < q.dsAt + secFr then s else
  let s := modPort p (fun q => { q with dsAt := s.tbu.free, dsRx := 0, dsTx := 0 }) s
  let low := fun (o : Nat) => decide (o * 800 < fld q.ds.toNat 15 8 * 10000000000)
  let high := fun (o : Nat) => decide (fld q.ds.toNat 23 16 * 10000000000 < o * 800)
  if !(q.dsEn && q.anEn && (q.mode = 5 || q.mode = 6)) || q.dsPend.isSome then s
  else if q.dsActive then (if high q.dsRx || high q.dsTx then dsShift p false s else s)
  else
    let n := if low q.dsRx && low q.dsTx then q.dsLow + 1 else 0
    if fld q.ds.toNat 31 24 ≤ n then dsShift p true s else modPort p (fun q => { q with dsLow := n }) s

/-- Clamp of the fields of NET_DS_CFG into their stated ranges. -/
def dsFields (v : Word) : Word :=
  wordOf [(24, 8, max 1 (fld v.toNat 31 24)), (16, 8, min 100 (max 1 (fld v.toNat 23 16))),
    (8, 8, min 99 (max 1 (fld v.toNat 15 8))), (0, 1, fld v.toNat 0 0)]

/-- DS_ENABLE_WRITE: a write of NET_DS_CFG (R137). -/
def dsWrite (p : Nat) (v : Word) (s : State) : State :=
  let q := portOf s p
  if bitOf v 0 && decide (fld v.toNat 23 16 ≤ fld v.toNat 15 8) then netEvent 4 s
  else
    let no := !((q.mode = 5 || q.mode = 6) && q.anEn) || q.alarmEgress || ptpPort s p
    let w := dsFields v
    let w' := if bitOf v 0 && no then w &&& 0xFFFFFFFE#32 else w
    let s := modPort p (fun q => { q with ds := w', dsLow := if bitOf w' 0 then q.dsLow else 0 }) s
    let s := if bitOf w' 0 = false && q.dsActive then dsShift p false s else s
    if bitOf v 0 && no then netEvent 4 s else s

/-! Receive (R116 to R123, R559) -/

/-- 16-bit one's complement sum of big-endian words, an odd last byte padded. -/
def onesSum : List Byte → Nat
  | a :: b :: r => a.toNat * 256 + b.toNat + onesSum r
  | [a] => a.toNat * 256
  | [] => 0

def foldSum (n : Nat) : Nat :=
  let n := n % 65536 + n / 65536
  let n := n % 65536 + n / 65536
  n % 65536 + n / 65536

/-- The checksum of a sum: complement; UDP sends 0x0000 as 0xFFFF (R131). -/
def ipSum (l : List Byte) : Nat := 65535 - foldSum (onesSum l)

/-- Verdict of step 6 (R121). -/
inductive IpVerdict where
  | ok
  | ipErr
  | udpErr
  | frag
  deriving DecidableEq, Repr

/-- Judge a UDP datagram: `ip` its bytes to the end of the IP payload, `pseudo` the addresses. -/
def judgeUdp (v6 : Bool) (pseudo ip : List Byte) : IpVerdict :=
  let n := beAt ip 4 2
  if n < 8 ∨ ip.length < n then .udpErr
  else
    let ck := beAt ip 6 2
    if ck = 0 then (if v6 then .udpErr else .ok)
    else if foldSum (onesSum (pseudo ++ toBE 2 0 ++ toBE 2 17 ++ toBE 2 n) + onesSum (ip.take n)) = 65535 then .ok else .udpErr

/-- Walk IPv6 extension headers to UDP or a Fragment header: next header, remaining payload. Headers in units of 8 octets, and the authentication
header in units of 4 (RFC 8200, RFC 4302; log 125). -/
def walk6 : Nat → Nat → List Byte → Nat × List Byte
  | 0, nh, l => (nh, l)
  | k + 1, nh, l =>
    if l.length < 8 then (nh, l)
    else if [0, 43, 60, 135, 139, 140].contains nh then walk6 k (beAt l 0 1) (l.drop ((beAt l 1 1 + 1) * 8))
    else if nh = 51 then walk6 k (beAt l 0 1) (l.drop ((beAt l 1 1 + 2) * 4))
    else (nh, l)

/-- Step 6 of R116 for the bytes after the Ethernet header and tag, before RCT and FCS (R121). -/
def judgeIp (etype : Nat) (l : List Byte) : IpVerdict :=
  if etype = 0x0800 then
    let ihl := (beAt l 0 1 % 16) * 4
    let tot := beAt l 2 2
    if l.length < 20 ∨ ihl < 20 ∨ tot < ihl ∨ l.length < tot ∨ foldSum (onesSum (l.take ihl)) ≠ 65535 then .ipErr
    else if beAt l 6 2 % 16384 ≠ 0 then .frag
    else if beAt l 9 1 = 17 then judgeUdp false (sub l 12 8) ((l.take tot).drop ihl)
    else .ok
  else if etype = 0x86DD then
    let n := beAt l 4 2
    if l.length < 40 + n then .ipErr
    else
      let (nh, d) := walk6 n (beAt l 6 1) (sub l 40 n)
      if nh = 44 then .frag
      else if nh = 17 then judgeUdp true (sub l 8 32) d else .ok
  else .ok

/-- Status word of a frame before the steps have judged it. -/
def statOf (p : Nat) (l : List Byte) (reasm : Bool) (s : State) : RxStat :=
  let tag := decide (18 ≤ l.length) && decide (beAt l 12 2 = 0x8100)
  { ts32 := ts32 s, epoch := s.tbu.epoch, vid := if tag then beAt l 14 2 % 4096 else 0
    pcp := if tag then beAt l 14 2 / 8192 else 0, tagged := tag, port := p, lan := 0, rct := false, reasm := reasm
    udpErr := false, ipErr := false, fcsErr := false, oversize := false, runt := false, length := l.length }

/-- Step 8: the port receive FIFO (R122). True where the frame was written. -/
def rxDeliver (p : Nat) (l : List Byte) (st : RxStat) (s : State) : Bool × State :=
  if 64 ≤ (portOf s p).rx.length then (false, netEvent 11 (netCnt p 7 1 s))
  else (true, modPort p (fun q => { q with rx := q.rx ++ [{ bytes := l, st := st, arr := discTime s }] }) s)

/-- A flagged frame of step 2: delivered where DELIVER_BAD is set (R117, R118). -/
def rxFlagged (p k : Nat) (l : List Byte) (st : RxStat) (s : State) : State :=
  let s := netCnt p k 1 s
  if (portOf s p).deliverBad then (rxDeliver p l st s).2 else s

/-- RX_OK counts (R559). -/
def rxOk (p len : Nat) (s : State) : State :=
  modPort p (fun q => { q with rxOct := satN 64 (q.rxOct + len) }) (netCnt p 0 1 s)

/-- A PAUSE frame is acted on (R124, R125). -/
def rxPause (p quanta : Nat) (s : State) : State :=
  let q := portOf s p
  if !q.pauseRxEn then s else
  let s := settlePause p s.tbu.free s
  if quanta = 0 then modPort p (fun q => { q with pause := none }) s
  else
    let d := ceilDiv (quanta * 512 * 1000 * fr) (max 1 (mbpsOf q.speed))
    modPort p (fun q => { q with pause := some (s.tbu.free, s.tbu.free + d) }) s

/-- The bridge takes a PTP frame (R108, R109, R136). -/
def tcForward (p : Nat) (l : List Byte) (s : State) : State :=
  let f := fun (m : TxMark) => { TxFrame.plain l with mark := m }
  let o := mateOf p
  match ptpType l with
  | 0 => queueFrame o true (f (.sync p s.tbu.free)) s
  | 1 => queueFrame o true (f (.delayReq s.tbu.free)) s
  | 8 => queueFrame o true (f (.followUp p)) s
  | 2 | 3 | 10 => s
  | _ => queueFrame o true (f .none) s

/-- Step 7 for a frame that is not PTP (R136): forwarded, delivered locally. -/
def bridgeChoice (s : State) (p : Nat) (l : List Byte) : Bool × Bool :=
  let dst := beAt l 0 6
  if 0x0180C2000000 ≤ dst ∧ dst ≤ 0x0180C200000F then (false, true)
  else if dst = (portOf s p).mac then (false, true)
  else if (dst >>> 40) % 2 = 0 then (true, false)
  else (true, true)

/-- PTP frames at the head of a port's FIFO go to the Sextant (R116 step 8); what they do there is rows of their own. -/
def rxSextant (p : Nat) (s : State) : State :=
  modPort p (fun q => { q with rx := q.rx.dropWhile fun f => etherType f.bytes = 0x88F7 && !(f.st.fcsErr || f.st.runt || f.st.oversize) }) s

/-- Steps 7 and 8 for a frame without flags (R116, R136, R559). -/
def rxGood (p : Nat) (l : List Byte) (st : RxStat) (s : State) : State :=
  if etherType l = 0x88F7 then
    let s := if bridged s p then tcForward p (l.take (l.length - 4)) s else s
    let (del, s) := rxDeliver p l st s
    if del then rxOk p l.length (rxSextant p s) else s
  else
    let (fwd, loc) := if bridged s p then bridgeChoice s p l else (false, true)
    let s := if fwd then netCnt p 29 1 (queueFrame (mateOf p) false (TxFrame.plain (l.take (l.length - 4))) s) else s
    let (del, s) := if loc then rxDeliver p l st s else (false, s)
    if del || (fwd && !loc) then rxOk p l.length s else s

/-- A valid RCT: suffix, LAN and LSDU size (R133; IEC 62439-3). -/
def rctAt (l : List Byte) : Option (Nat × Nat) :=
  let o := l.length - 10
  let lan := beAt l (o + 2) 2 / 4096
  if 24 ≤ l.length ∧ beAt l (o + 4) 2 = 0x88FB ∧ (lan = 10 ∨ lan = 11) ∧
      beAt l (o + 2) 2 % 4096 = (l.length - 4 - ethOff l) % 4096
  then some (beAt l o 2, lan) else none

/-- Drop entries older than NET_PRP_FORGET (R134). -/
def prpForget (i : Nat) (s : State) : State :=
  let lim := fld s.net.prpForget.toNat 15 0 * 1000000 * fr
  { s with net := { s.net with prp := modAt s.net.prp i fun t => t.filter fun e => decide (s.tbu.free < e.2.2 + lim) } }

/-- Two copies of one cycle: that of the even port counts as the first (R134). A copy that the odd port delivered in this cycle is taken back and
counted as the duplicate. -/
def prpSwap (p mac seq : Nat) (s : State) : Bool × State :=
  let q := portOf s (p + 1)
  let fresh := p % 2 = 0 && !((nth s.prior.net.prp (p / 2) []).any fun e => e.1 = mac && e.2.1 = seq)
  match q.rx.getLast? with
  | some f =>
    if fresh && f.st.rct && beAt f.bytes 6 6 = mac && (rctAt f.bytes).map Prod.fst = some seq then
      (true, netCnt (p + 1) 15 1 (modPort (p + 1) (fun q => { q with
        rx := q.rx.dropLast, cnt := modAt q.cnt 0 (· - 1#32), rxOct := q.rxOct - f.bytes.length }) s))
    else (false, s)
  | none => (false, s)

/-- Enter a first copy, evicting the oldest where the table is full (R134). -/
def prpEnter (i mac seq : Nat) (s : State) : State :=
  let t := nth s.net.prp i []
  let full := decide (32768 ≤ t.length)
  let ev := s.net.prpEvict.toNat
  let ev := if !full then ev else if i = 0 then ev / 65536 * 65536 + satN 16 (ev % 65536 + 1)
    else satN 16 (ev / 65536 + 1) * 65536 + ev % 65536
  { s with net := { s.net with
      prp := setAt s.net.prp i ((if full then t.drop 1 else t) ++ [(mac, seq, s.tbu.free)])
      prpEvict := BitVec.ofNat 32 ev } }

/-- Verdict of step 6 on a frame. -/
def ipVerdict (l : List Byte) (st : RxStat) : IpVerdict :=
  judgeIp (etherType l) ((l.take (l.length - 4 - (if st.rct then 6 else 0))).drop (ethOff l))

/-- Steps 6 to 8 (R121). -/
def rxIp (p : Nat) (l : List Byte) (st : RxStat) (s : State) : State :=
  match ipVerdict l st with
  | .ok => rxGood p l st s
  | .frag => netCnt p 14 1 s
  | .ipErr => rxFlagged p 12 l { st with ipErr := true } s
  | .udpErr => rxFlagged p 13 l { st with udpErr := true } s

/-- Step 5 (R133, R134). A frame that step 6 will flag is not entered in the table (R118). -/
def rxPrp (p : Nat) (l : List Byte) (st : RxStat) (s : State) : State :=
  match if paired s p then rctAt l else none with
  | none => rxIp p l st s
  | some (seq, lan) =>
    let i := p / 2
    let s := if lan = 10 + p % 2 then s else netEvent 10 (netCnt p 16 1 s)
    let s := prpForget i s
    let mac := beAt l 6 6
    let st := { st with lan := lan - 9, rct := true }
    if (nth s.net.prp i []).any fun e => e.1 = mac && e.2.1 = seq then
      let (first, s) := prpSwap p mac seq s
      if first then rxIp p l st s else netCnt p 15 1 s
    else
      let v := ipVerdict l st
      rxIp p l st (if v = .ipErr ∨ v = .udpErr then s else prpEnter i mac seq s)

/-- Steps 3 and 4 (R119, R120). -/
def rxVlan (p : Nat) (l : List Byte) (st : RxStat) (s : State) : State :=
  let t1 := beAt l 12 2
  let t2 := beAt l 16 2
  if t1 = 0x88A8 ∨ (t1 = 0x8100 ∧ (t2 = 0x8100 ∨ t2 = 0x88A8)) then netCnt p 10 1 s
  else if etherType l = 0x8808 then
    let o := ethOff l
    let dst := beAt l 0 6
    if beAt l o 2 = 1 ∧ (dst = 0x0180C2000001 ∨ dst = (portOf s p).mac) then
      rxPause p (beAt l (o + 2) 2) (netCnt p 8 1 s)
    else netCnt p 9 1 s
  else rxPrp p l st s

/-- Step 2: size and FCS (R117). -/
def rxFrame (p : Nat) (bytes : List Byte) (reasm : Bool) (s : State) : State :=
  let l := bytes.take 16383
  let n := l.length
  let good := decide (4 ≤ n) && decide ((crc32 (l.take (n - 4))).toNat = leNat (l.drop (n - 4)))
  let st := statOf p l reasm s
  let mx := (portOf s p).max
  let s := modPort p (fun q => { q with dsRx := q.dsRx + n }) s
  if n < 14 then netCnt p 6 1 s
  else if n < 64 then rxFlagged p 3 l { st with runt := true, fcsErr := !good } s
  else if mx < n then rxFlagged p 4 (l.take mx) { st with oversize := true, fcsErr := !good, length := mx } s
  else if !good then rxFlagged p 5 l { st with fcsErr := true } s
  else rxVlan p l st s

/-- CRC-32 of octets, as the last four octets of a frame hold it, first octet lowest. -/
def fcsOf (l : List Byte) : Nat := (crc32 l).toNat

/-- One more mPacket of the frame in assembly: an mCRC, with its last two octets inverted, ends every one but the last (R130; IEEE 802.3, log 136). -/
def assemble (p : Nat) (a : Assy) (b : List Byte) (more : Bool) (s : State) : State :=
  if more then
    let d := a.bytes ++ b.take (b.length - 4)
    if leNat (b.drop (b.length - 4)) = fcsOf d ^^^ 0xFFFF0000 then
      modPort p (fun q => { q with assy := some { a with bytes := d, frag := (a.frag + 1) % 4 } }) s
    else netCnt p 11 1 (modPort p (fun q => { q with assy := none }) s)
  else rxFrame p (a.bytes ++ b) (!a.bytes.isEmpty) (modPort p (fun q => { q with assy := none }) s)

/-- The first mPacket of a frame; one that was still in assembly is incomplete (R130). -/
def assyFirst (p cnt : Nat) (b : List Byte) (more : Bool) (s : State) : State :=
  let s := if (portOf s p).assy.isSome then netCnt p 11 1 s else s
  assemble p { cnt := cnt % 4, frag := 3, bytes := [] } b more (modPort p (fun q => { q with assy := none }) s)

/-- A continuation: without a start, or out of sequence, it is discarded with the rest of its frame (R130). -/
def assyCont (p cnt frag : Nat) (b : List Byte) (more : Bool) (s : State) : State :=
  match (portOf s p).assy with
  | some a =>
    if a.cnt = cnt % 4 ∧ a.frag = frag % 4 then assemble p a b more s
    else netCnt p 11 1 (modPort p (fun q => { q with assy := none }) s)
  | none => netCnt p 11 1 s

/-- PORT_FRAME_RECEIVE. A port whose link is down or whose mode is 000 receives nothing (R114). -/
def portReceive (p : Nat) (r : RxIn) (s : State) : State :=
  if !(portOf s p).linkUp then s else
  match r with
  | .frame b => rxFrame p b false s
  | .first cnt b more => if preemptActive (portOf s p) then assyFirst p cnt b more s else s
  | .cont cnt frag b more => if preemptActive (portOf s p) then assyCont p cnt frag b more s else s
  | .verify => emitOut (.mpacket p true) s
  | .response =>
    if (portOf s p).verify = .verifying then modPort p (fun q => { q with verify := .succeeded }) s else s
  | .lpi on => if 10000 ≤ mbpsOf (portOf s p).speed then modPort p (fun q => { q with lpiRx := on }) s else s

/-- TC_ENTRY_EXPIRE (R109): entries older than 2 s are freed. -/
def tcExpire (s : State) : State :=
  { s with tbu := { s.tbu with tc := s.tbu.tc.filter fun e => decide (s.tbu.free ≤ e.at_ + 2 * secFr) } }

/-! Pdelay (R84, R108) -/

/-- The port answers and initiates Pdelay: it is in a PORT_MASK, or one of the bridge (R84, R108). -/
def pdelayOn (s : State) (p : Nat) : Bool := s.tbu.domA.onPort p || s.tbu.domB.onPort p || bridged s p

/-- PDELAY_REQUEST_TIMER. -/
def pdelayRequest (p : Nat) (s : State) : State :=
  if !(pdelayOn s p && (portOf s p).linkUp) then s else
  let seq := ((nth s.tbu.pdelay p Pdelay.reset).seq + 1) % 65536
  let dom := if s.tbu.domA.onPort p then s.tbu.domA.number else s.tbu.domB.number
  let b := ptpHead (portOf s p).mac 2 54 dom 0 0 (p + 1) seq 5 ++ toBE 10 0 ++ toBE 10 0
  let s := { s with tbu := { s.tbu with pdelay := modAt s.tbu.pdelay p fun d => { d with seq := seq, t1 := none, resp := none } } }
  handFrame p true { TxFrame.plain b with mark := .pdelayReq seq } s

/-- A measured mean link delay: ((t4 − t1) − (t3 − t2) − corrections) / 2. -/
def pdelayDone (p : Nat) (t1 : Nat) (t4 : Nat) (turn : Int) (s : State) : State :=
  let m := rneDiv ((t4 : Int) - t1 - turn) 2
  { s with tbu := { s.tbu with pdelay := modAt s.tbu.pdelay p fun d => { d with mean := m, t1 := none, resp := none } } }

/-- PDELAY_RECEIVE: answered in two steps (log 14), or used to measure meanLinkDelay. -/
def pdelayReceive (p : Nat) (m : PdelayIn) (s : State) : State :=
  if !(pdelayOn s p && (portOf s p).linkUp) then s else
  let d := nth s.tbu.pdelay p Pdelay.reset
  match m with
  | .req src seq dom =>
    let b := ptpHead (portOf s p).mac 3 54 dom 0x0200 0 (p + 1) seq 5 ++ ptpStamp (discTime s) ++ portIdBytes src
    handFrame p true { TxFrame.plain b with mark := .pdelayResp src seq dom } s
  | .resp seq t2 corr twoStep =>
    match d.t1 with
    | some t1 =>
      if d.seq ≠ seq then s
      else if twoStep then
        { s with tbu := { s.tbu with pdelay := modAt s.tbu.pdelay p fun d => { d with resp := some (ptpFr t2, s.tbu.free, corr) } } }
      else pdelayDone p t1 s.tbu.free corr s
    | none => s
  | .respFollowUp seq t3 corr =>
    match d.t1, d.resp with
    | some t1, some (t2, t4, c) => if d.seq ≠ seq then s else pdelayDone p t1 t4 (ptpFr t3 - t2 + corr + c) s
    | _, _ => s

end Sys2Proof.Machine
end

