-- ==== Sys2Proof/Machine/Ingest.lean ====
section
/-! DEFINITION. Ingest: judging frames, time and value conversion, authentication, HXG reports, GOOSE, ingest FIFOs (R146 to R185). -/

namespace Sys2Proof.Machine

def ingEvent (k : Nat) (s : State) : State :=
  let up := newlySet s.ing.event s.ing.eventEn k
  let s := { s with ing := { s.ing with event := setBit s.ing.event k } }
  if up then raiseBlock 4 s else s
def ingCnt (k n : Nat) (s : State) : State := { s with ing := { s.ing with cnt := modAt s.ing.cnt k (satAdd · n) } }
def engFrames (e n : Nat) (s : State) : State := { s with ing := { s.ing with frames := modAt s.ing.frames e (satAdd · n) } }

/-! Static entries (R170) and channel descriptors (R171) -/
def EpEntry.f (e : EpEntry) (hi lo : Nat) : Nat := fld e.entry.toNat hi lo
def EpEntry.addr (e : EpEntry) : Nat := e.f 511 384
def EpEntry.hash (e : EpEntry) : Nat := e.f 383 320
def EpEntry.cfgSig (e : EpEntry) : Nat := e.f 319 288
def EpEntry.srcPort (e : EpEntry) : Nat := e.f 287 272
def EpEntry.idcode (e : EpEntry) : Nat := e.f 271 256
def EpEntry.timeBase (e : EpEntry) : Nat := e.f 255 232
def EpEntry.block (e : EpEntry) : Nat := e.f 227 223
def EpEntry.vid (e : EpEntry) : Nat := e.f 222 211
def EpEntry.vidCheck (e : EpEntry) : Bool := e.f 210 210 = 1
def EpEntry.portMask (e : EpEntry) : Nat := e.f 209 206
def EpEntry.statOff (e : EpEntry) : Nat := e.f 205 192
def EpEntry.id (e : EpEntry) : Nat := e.f 191 160
def EpEntry.zone (e : EpEntry) : Nat := e.f 159 148
def EpEntry.system (e : EpEntry) : Nat := e.f 147 144
def EpEntry.weight (e : EpEntry) : Nat := e.f 143 136
def EpEntry.nchan (e : EpEntry) : Nat := e.f 135 127
def EpEntry.chanBase (e : EpEntry) : Nat := e.f 126 109
def EpEntry.proto (e : EpEntry) : Nat := e.f 108 106
def EpEntry.auth (e : EpEntry) : Nat := e.f 105 103
def EpEntry.slotCur (e : EpEntry) : Nat := e.f 102 97
def EpEntry.slotNext (e : EpEntry) : Nat := e.f 96 91
def EpEntry.valid (e : EpEntry) : Bool := e.f 90 90 = 1

def chType (d : Dword) : Nat := fld d.toNat 63 56
def chOff (d : Dword) : Nat := fld d.toNat 55 42
def chEnc (d : Dword) : Nat := fld d.toNat 41 40
def chQual (d : Dword) : Nat := fld d.toNat 39 32
def chScale (d : Dword) : Nat := fld d.toNat 31 0

/-- Octets of a value (R159, R161). -/
def chBytes (d : Dword) : Nat :=
  match chType d, chEnc d with
  | 0, 0 => 8
  | 0, 1 => 8
  | 0, _ => 4
  | 1, 0 => 4
  | 1, _ => 2
  | 2, 0 => 4
  | 2, _ => 2
  | 3, 2 => 2
  | 3, _ => 4
  | 4, _ => 2
  | _, _ => 1

/-- Entry number of a fast index and of an injected index (R169). -/
def fastEntry (i : Nat) : Nat := i
def injEntry (i : Nat) : Nat := 8192 + i % 8192
/-- The entry a valid ENDPOINT_ID of class 00 or 10 occupies. -/
def entryOfId (id : Nat) : Option Nat :=
  let idx := fld id 29 0
  match fld id 31 30 with
  | 0 => if idx ≤ 16383 then some (fastEntry idx) else none
  | 2 => if idx ≤ 16383 then some (injEntry idx) else none
  | _ => none

def epOf (s : State) (e : Nat) : Option EpEntry := (lookupK s.ing.eps e).filter EpEntry.valid
def modEp (e : Nat) (f : EpRt → EpRt) (s : State) : State :=
  match lookupK s.ing.eps e with
  | some x => { s with ing := { s.ing with eps := insertK s.ing.eps e { x with rt := f x.rt } } }
  | none => s

/-- Lookup by source address and IDCODE or hash (R172). Block 0 of a stream is found. -/
def findEp (s : State) (addr : Nat) (p : EpEntry → Bool) : Option Nat :=
  (s.ing.eps.find? fun e => e.2.valid && decide (e.2.addr = addr) && p e.2).map Prod.fst

def findC37 (s : State) (addr id : Nat) : Option Nat :=
  findEp s addr fun e => decide (e.proto = 1 ∧ e.block = 0 ∧ e.idcode = id)
def findHash (s : State) (addr proto hash : Nat) : Option Nat :=
  findEp s addr fun e => decide (e.proto = proto ∧ e.hash = hash)

/-- The entries of a stream from its block 0 on (R157). -/
def streamBlocks (s : State) (e0 : Nat) : List Nat :=
  match epOf s e0 with
  | none => []
  | some x => (List.range 32).filterMap fun k =>
      match epOf s (e0 + k) with
      | some y => if y.proto = x.proto ∧ y.addr = x.addr ∧ y.idcode = x.idcode ∧ y.block = k then some (e0 + k) else none
      | none => none

/-! IP and UDP of a delivered frame -/

/-- A UDP datagram as ingest sees it: source address in the form of SRC_ADDR, ports, payload. -/
structure Udp where
  src   : Nat
  sport : Nat
  dport : Nat
  data  : List Byte
  deriving DecidableEq, Repr

def udpIn (src : Nat) (l : List Byte) : Udp :=
  ⟨src, beAt l 0 2, beAt l 2 2, (l.take (beAt l 4 2)).drop 8⟩

/-- The datagram of a frame without its FCS and RCT. -/
def udpOf (l : List Byte) (rct : Bool) : Option Udp :=
  let b := (l.take (l.length - 4 - (if rct then 6 else 0))).drop (ethOff l)
  if etherType l = 0x0800 then
    if beAt b 9 1 = 17 then
      some (udpIn (0xFFFF * 2 ^ 32 + beAt b 12 4) ((b.take (beAt b 2 2)).drop (beAt b 0 1 % 16 * 4)))
    else none
  else if etherType l = 0x86DD then
    let (nh, d) := walk6 (beAt b 4 2) (beAt b 6 1) (sub b 40 (beAt b 4 2))
    if nh = 17 then some (udpIn (beAt b 8 16) d) else none
  else none

/-- Engine of a stream (R147). -/
def hashEngine (u : Udp) : Nat := (crc32 (toBE 16 u.src ++ toBE 2 u.sport)).toNat % 16

/-! Time (R154) -/

/-- U in force: TBU_UTC_OFFSET where VALID, else ING_UTC_OFFSET_DEF. -/
def utcOffset (s : State) : Int :=
  let (u, v, _, _) := utcInfo s
  if v then u else (fld s.ing.utcDef.toNat 15 0 : Nat)

/-- Keep the offsets of a leap until 2 s after the end of its UTC day. -/
def leapUpdate (s : State) : State :=
  let t := discNs s
  let (_, _, l61, l59) := utcInfo s
  let set := fun (l : Option (Int × Int × Int)) => { s with ing := { s.ing with leap := l } }
  let fresh := fun (_ : Unit) =>
    if l61 || l59 then
      let u := utcOffset s
      let u2 := if l61 then u + 1 else u - 1
      let utc := t / 1000000000 - u2
      set (some (((utc / 86400 + 1) * 86400 + u2) * 1000000000, u, u2))
    else set none
  match s.ing.leap with
  | some (e, _, _) => if e ≤ t ∧ t ≤ e + 2000000000 then s else fresh ()
  | none => fresh ()

/-- Measurement time of UTC seconds and ns for a frame with arrival stamp `arr`, 2^-16 ns (R154). -/
def tmOf (sec f : Nat) (arr : Int) (s : State) : Int :=
  let at_ := fun (u : Int) => ((sec : Int) + u) * 1000000000 + f
  match s.ing.leap with
  | some (_, u, u2) =>
    let a := at_ u
    let b := at_ u2
    if (b * 65536 - arr).natAbs < (a * 65536 - arr).natAbs then b else a
  | none => at_ (utcOffset s)

/-- ns of a fraction, rounded to nearest, ties to even. -/
def fracNs (n d : Nat) : Nat := (rneDiv ((n * 1000000000 : Nat) : Int) (max 1 d)).toNat

/-! Values (R161) -/

/-- A slot from its two binary32 parts. -/
def slotPair (re im : Nat) : Dword := BitVec.ofNat 64 (re + im * 2 ^ 32)
def fromInt (i : Int) : Nat := fofInt f64 i
def i16 (n : Nat) : Int := (BitVec.ofNat 16 n).toInt
def i32 (n : Nat) : Int := (BitVec.ofNat 32 n).toInt
/-- Binary64 of the constants 0.001, 10^-4 and 100. -/
def milli64 : Nat := fofRat f64 1 1000
def tenK64 : Nat := fofRat f64 1 10000

/-- One channel's slot from the data its OFFSET is measured in; `c37` the protocol, `fnom` in mHz. -/
def convert (c37 : Bool) (fnom : Nat) (d : Dword) (l : List Byte) : Dword :=
  let o := chOff d
  let sc := to64 (chScale d)
  let mul := fun (x : Nat) => to32 (fmul f64 sc x)
  let nan32 := fun (x : Nat) => fisNan f32 x
  let hole := fun (x : Nat) => c37 && x = 0x8000
  match chType d, chEnc d with
  | 0, 0 =>
    let a := beAt l o 4
    let b := beAt l (o + 4) 4
    if nan32 a || nan32 b then nanSlot else slotPair (mul (to64 a)) (mul (to64 b))
  | 0, 1 =>
    let m := beAt l o 4
    let a := beAt l (o + 4) 4
    if nan32 m || nan32 a then nanSlot else
    let p := fmul f64 sc (to64 m)
    let an := to64 a
    slotPair (to32 (fmul f64 p (cos64 an))) (to32 (fmul f64 p (sin64 an)))
  | 0, 2 =>
    let a := beAt l o 2
    let b := beAt l (o + 2) 2
    if hole a || hole b then nanSlot else slotPair (mul (fromInt (i16 a))) (mul (fromInt (i16 b)))
  | 0, _ =>
    let m := beAt l o 2
    let a := beAt l (o + 2) 2
    if hole a then nanSlot else
    let p := fmul f64 sc (fromInt m)
    let an := fmul f64 (fromInt (i16 a)) tenK64
    slotPair (to32 (fmul f64 p (cos64 an))) (to32 (fmul f64 p (sin64 an)))
  | 1, 0 => let a := beAt l o 4; if nan32 a then nanSlot else slotPair a 0
  | 1, _ =>
    let a := beAt l o 2
    if hole a then nanSlot else
    slotPair (to32 (fadd f64 (fofRat f64 fnom 1000) (fmul f64 (fromInt (i16 a)) milli64))) 0
  | 2, 0 => let a := beAt l o 4; if nan32 a then nanSlot else slotPair a 0
  | 2, _ =>
    let a := beAt l o 2
    if hole a then nanSlot else slotPair (to32 (fdiv f64 (fromInt (i16 a)) (fromInt 100))) 0
  | 3, 0 => let a := beAt l o 4; if nan32 a then nanSlot else slotPair (mul (to64 a)) 0
  | 3, 1 => slotPair (mul (fromInt (i32 (beAt l o 4)))) 0
  | 3, _ => let a := beAt l o 2; if hole a then nanSlot else slotPair (mul (fromInt (i16 a))) 0
  | _, _ => slotPair (beAt l o 2) 0

/-- Step 9's bounds: each value and its Quality lie wholly inside the data (R171). -/
def fits (chans : List Dword) (n : Nat) (qual : Bool) : Bool :=
  chans.all fun d => decide (chOff d + chBytes d ≤ n) &&
    (!qual || chQual d = 0 || decide (chOff d + chQual d + 4 ≤ n))

/-- Nominal frequency of a system in mHz, from the image's HIERARCHY section. -/
def fnomOf (s : State) (system : Nat) : Nat := nth s.ing.fnom system 0

/-! FIFO (R176 to R182) -/

def fifoOf (s : State) (n : Nat) : Fifo := nth s.ing.fifos n Fifo.reset
/-- Entries of a packet (R181). -/
def Pkt.words (p : Pkt) : Nat := 1 + ceilDiv p.vals.length 4
/-- Entries in the FIFO: whole packets and what is in of the one being pushed. -/
def Fifo.level (f : Fifo) : Nat := sumN (f.pkts.map Pkt.words) + (match f.part with | some (_, k) => k | none => 0)
/-- Entries an ingest FIFO holds: tail, middle, head (R180). -/
def fifoCap : Nat := 524416
/-- FULL; both ends are in CORE, so it is exact (R176). -/
def Fifo.full (f : Fifo) : Bool := decide (fifoCap ≤ f.level)
/-- The engine of FIFO n can accept a frame: it holds no packet that the FIFO has not taken (R147, R180). -/
def engineFree (s : State) (n : Nat) : Bool := (fifoOf s n).part.isNone && (fifoOf s n).wait.isEmpty

/-- Where the entries of a FIFO are: head and tail register files and the middle, with the entries spilled (R180). -/
structure Fill where
  head  : Nat
  mid   : Nat
  tail  : Nat
  spill : Nat
  deriving DecidableEq, Repr

/-- The head refills from the middle while it holds 16 entries or fewer, one burst of 32 or what the middle holds (R180; log 144). -/
def Fill.refill (x : Fill) : Fill :=
  if x.head ≤ 16 then { x with head := x.head + min 32 x.mid, mid := x.mid - min 32 x.mid } else x
/-- With the middle empty, entries pass from the tail to the head. -/
def Fill.bypass (x : Fill) : Fill :=
  if x.mid = 0 then { x with head := x.head + min x.tail (64 - x.head), tail := x.tail - min x.tail (64 - x.head) } else x
/-- The tail drains to the middle in bursts of 32. -/
def Fill.spillBurst (x : Fill) : Fill :=
  if 32 ≤ x.tail ∧ x.mid + 32 ≤ 524288 then { x with mid := x.mid + 32, tail := x.tail - 32, spill := x.spill + 32 } else x
def Fill.settle (x : Fill) : Fill := x.refill.bypass.spillBurst

/-- `k` entries enter, or leave, one after the other. -/
def Fill.push : Nat → Fill → Fill
  | 0, x => x
  | k + 1, x => Fill.push k { x with tail := x.tail + 1 }.settle
def Fill.pop : Nat → Fill → Fill
  | 0, x => x
  | k + 1, x => Fill.pop k { x with head := x.head - 1 }.settle

def Fifo.fill (f : Fifo) : Fill := ⟨f.head, f.mid, f.level - f.head - f.mid, 0⟩

/-- The engine pushes what it holds until the FIFO is full; with the entries spilled (R176, R180). -/
def Fifo.drive : Nat → Fifo → Fifo × Nat
  | 0, f => (f, 0)
  | n + 1, f =>
    match f.part with
    | some (p, k) =>
      let j := min (p.words - k) (fifoCap - f.level)
      let x := f.fill.push j
      let f := { f with head := x.head, mid := x.mid }
      if p.words ≤ k + j then
        let (f, sp) := Fifo.drive n { f with pkts := f.pkts ++ [p], part := none }
        (f, x.spill + sp)
      else ({ f with part := some (p, k + j) }, x.spill)
    | none =>
      match f.wait with
      | p :: r => Fifo.drive n { f with part := some (p, 0), wait := r }
      | [] => (f, 0)

/-- FIFO n takes what its engine holds: spill count, watermark and full events (R180, R182). -/
def fifoDrive (n : Nat) (f : Fifo) (s : State) : State :=
  let (f', sp) := f.drive (2 * f.wait.length + 2)
  let wm := fld s.ing.wm.toNat 19 0
  let s := { s with ing := { s.ing with fifos := setAt s.ing.fifos n f', spill := satAdd s.ing.spill sp } }
  let s := if f.level ≤ wm ∧ wm < f'.level then ingEvent 7 { s with ing := { s.ing with wmEvent := setBit s.ing.wmEvent n } } else s
  if !f.full && f'.full then ingEvent 8 s else s

/-- Write a packet (step 11 of R150). -/
def fifoPush (n : Nat) (p : Pkt) (s : State) : State :=
  let f := fifoOf s n
  fifoDrive n { f with wait := f.wait ++ [p] } s

/-- `m` whole packets from place `k` on leave a FIFO. A stalled engine goes on where entries became free (R177, R180). -/
def fifoDrop (n k m : Nat) (flush : Option Nat) (s : State) : State :=
  let f := fifoOf s n
  let x := f.fill.pop (sumN (((f.pkts.drop k).take m).map Pkt.words))
  fifoDrive n { f with pkts := f.pkts.take k ++ f.pkts.drop (k + m), head := x.head, mid := x.mid, flush := flush }
    { s with ing := { s.ing with spill := satAdd s.ing.spill x.spill } }

/-- A request to flush FIFO n (R179): every whole packet pushed before is to be discarded. -/
def fifoFlushReq (n : Nat) (s : State) : State :=
  let f := fifoOf s n
  { s with ing := { s.ing with fifos := setAt s.ing.fifos n { f with flush := some f.pkts.length } } }

def ingFlush (v : Word) (s : State) : State :=
  (List.range 16).foldl (fun s n => if bitOf v n then fifoFlushReq n s else s) s

/-- The discard of a flush ends (R179). -/
def flushDone (n : Nat) (s : State) : State :=
  let f := fifoOf s n
  match f.flush with
  | none => s
  | some k => ingEvent 9 (fifoDrop n 0 k none s)

/-! The journal (R443) -/

/-- Bytes of an item: a packet as an ingest FIFO holds it (R181), a status write as its entry (R312). -/
def JItem.bytes : JItem → Nat
  | .pkt j => 32 * j.pkt.words
  | .status _ _ _ _ => 16
def intervalBytes (l : List JItem) : Nat := sumN (l.map JItem.bytes)

/-- Intervals that fit beside what is kept, newest first. -/
def keepIntervals : Nat → List (List JItem) → List (List JItem)
  | _, [] => []
  | used, l :: r => if used + intervalBytes l ≤ 33554432 then l :: keepIntervals (used + intervalBytes l) r else []

/-- The journal as far as its 32 MiB allow: the oldest intervals are released first; the present one alone may overflow. -/
def journalFit (s : State) : State :=
  match s.aln.journal with
  | [] => s
  | a :: r =>
    let s := { s with aln := { s.aln with journal := a :: keepIntervals (intervalBytes a) (r.take 15) } }
    if decide (33554432 < intervalBytes a) && !s.aln.overflow then
      { s with aln := { s.aln with overflow := true }, flt := { s.flt with cnt := modAt s.flt.cnt 7 (satAdd · 1) } }
    else s

/-- The journal takes an item of the present commit interval, in ATOMIC and BOTH. -/
def journalAdd (i : JItem) (s : State) : State :=
  if s.sys.guarEff = 0 then s else
  journalFit { s with aln := { s.aln with journal := match s.aln.journal with
    | [] => [[i]]
    | a :: r => (a ++ [i]) :: r } }

/-! Captures (R152, R371) -/

def statBits (t : RxStat) : Nat :=
  packFields [(96, 32, t.ts32), (88, 8, t.epoch), (52, 12, t.vid), (49, 3, t.pcp), (48, 1, b2n t.tagged), (46, 2, t.port),
    (44, 2, t.lan), (43, 1, b2n t.rct), (42, 1, b2n t.reasm), (41, 1, b2n t.udpErr), (40, 1, b2n t.ipErr),
    (39, 1, b2n t.fcsErr), (38, 1, b2n t.oversize), (37, 1, b2n t.runt), (0, 14, t.length)]

/-- The instant on TBU_FREE of an arrival stamped in disciplined time. -/
def freeOf (arr : Int) (s : State) : Nat := s.tbu.free - (discTime s - arr).toNat

/-- Copy a frame to a CAPTURE record. -/
def capture (reason : Nat) (f : RxFrame) (s : State) : State :=
  let us := bytesToUnits 256 f.bytes
  let n := 1 + us.length
  let u0 := unitOf (hdr 4 n (liveMarks s) ++ [(384, 128, statBits f.st), (376, 8, reason), (362, 14, f.bytes.length)])
  handRec (fld s.ing.cfg.toNat 13 8) 4 (u0 :: us) (some (freeOf f.arr s)) none s

def captureIf (bit reason : Nat) (f : RxFrame) (s : State) : State :=
  if bitOf s.ing.cfg bit && s.sys.runState = .run then capture reason f s else s

/-! ARP and Neighbor Discovery (R151) -/

/-- The answer to a request for an interface address of the port, without FCS. A solicitation from the unspecified address is answered to all
nodes, with the solicited flag clear (PRESUMED: RFC 4861; log 145). -/
def arpAnswer (s : State) (p : Nat) (l : List Byte) : Option (List Byte) :=
  let o := ethOff l
  let b := l.drop o
  let mac := toBE 6 (portOf s p).mac
  let tag := if o = 18 then sub l 12 4 else []
  let mine := fun (a : Nat) => (nth s.ing.ifaces p []).contains a
  if etherType l = 0x0806 ∧ beAt b 0 6 = 0x000108000604 ∧ beAt b 6 2 = 1 then
    if mine (0xFFFF * 2 ^ 32 + beAt b 24 4) then
      some (sub b 8 6 ++ mac ++ tag ++ toBE 2 0x0806 ++ toBE 6 0x000108000604 ++ toBE 2 2 ++ mac ++ sub b 24 4 ++ sub b 8 10)
    else none
  else if etherType l = 0x86DD ∧ beAt b 6 1 = 58 ∧ beAt b 40 1 = 135 ∧ beAt b 7 1 = 255 then
    if mine (beAt b 48 16) then
      let dad := decide (beAt b 8 16 = 0)
      let dst := if dad then toBE 16 0xFF020000000000000000000000000001 else sub b 8 16
      let flags := if dad then 0x20000000 else 0x60000000
      let na := fun (ck : Nat) => toBE 1 136 ++ toBE 1 0 ++ toBE 2 ck ++ toBE 4 flags ++ sub b 48 16 ++ toBE 2 0x0201 ++ mac
      let ck := ipSum (sub b 48 16 ++ dst ++ toBE 4 32 ++ toBE 4 58 ++ na 0)
      some ((if dad then toBE 6 0x333300000001 else sub l 6 6) ++ mac ++ tag ++ toBE 2 0x86DD ++ toBE 4 0x60000000 ++ toBE 2 32 ++
        toBE 1 58 ++ toBE 1 255 ++ sub b 48 16 ++ dst ++ na ck)
    else none
  else none

/-! Judging one block or ASDU (R150 steps 5 to 11) -/

/-- What a frame brings to the block steps. -/
structure Arrive where
  port   : Nat
  sport  : Nat
  st     : RxStat
  arr    : Int
  inject : Bool
  /-- Engine, and so FIFO, of the frame. -/
  eng    : Nat
  deriving DecidableEq, Repr

/-- Step 5 (R150). -/
def portOk (a : Arrive) (e : EpEntry) : Bool :=
  a.inject || ((e.portMask >>> a.port) % 2 = 1 && (e.srcPort = 0 || e.srcPort = a.sport) &&
    (!e.vidCheck || e.vid = a.st.vid))

/-- Values are taken now: RUN (R153). -/
def intake (s : State) : Bool := s.sys.runState = .run

/-- A rejection: its counter and event. -/
def ingReject (k : Nat) (ev : Option Nat) (s : State) : State :=
  let s := ingCnt k 1 s
  match ev with | some e => ingEvent e s | none => s

/-- Step 9 fails: CFG_MISMATCH (R150, R171). -/
def rejectMisfit (s : State) : State := ingReject 15 none { s with ing := { s.ing with misfits := s.ing.misfits + 1 } }

/-- A packet is accepted (steps 10 and 11). -/
def acceptPkt (k : Nat) (a : Arrive) (ep : Nat) (tm : Int) (vals : List Dword) (flags : Nat) (s : State) : State :=
  let s := ingCnt k 1 s
  let s := modEp ep (fun r => { r with
    accepted := satAdd r.accepted 1, lastTs := a.st.ts32, lastEpoch := a.st.epoch, lastFlags := flags }) s
  fifoPush a.eng {
    ep := ep, tm := tm.toNat, vals := vals, flags := BitVec.ofNat 8 flags, arrTs := a.st.ts32,
    arrEpoch := a.st.epoch, arrFree := freeOf a.arr s, lan := a.st.lan, port := if a.inject then 0 else a.port, injected := a.inject, waited := false } s

/-- SRC_FLAGS of a C37.118.2 block (R162). -/
def c37Flags (s : State) (stat fracsec : Nat) (unauth : Bool) : Nat :=
  let tq := s.ing.tqTh.toNat
  packFields [(0, 1, b2n (decide (fld stat 15 14 ≠ 0))), (1, 1, fld stat 13 13),
    (2, 1, b2n (decide (fld tq 3 0 ≤ fld fracsec 27 24) || (decide (fld stat 8 6 ≠ 0) && decide (fld tq 6 4 ≤ fld stat 8 6)))),
    (3, 1, fld stat 9 9), (4, 1, fld stat 10 10), (5, 1, fld stat 11 11), (6, 1, b2n unauth)]

/-- One block of a data frame (R157): steps 5, then 9 to 11. AUTH is 0 for C37.118.2 (R163). -/
def c37Block (a : Arrive) (l : List Byte) (s : State) (ep : Nat) : State :=
  match epOf s ep with
  | none => s
  | some e =>
    if !(portOk a e) then ingReject 9 none s
    else if !(intake s) then s
    else
      let body := l.take (l.length - 2)
      if e.rt.mismatch || !(fits e.chans body.length false) || decide (body.length < e.statOff + 2) then rejectMisfit s
      else
        let stat := beAt l e.statOff 2
        let frac := beAt l 10 4
        let tm := tmOf (beAt l 6 4) (fracNs (frac % 2 ^ 24) e.timeBase) a.arr s
        let fl := c37Flags s stat frac true
        let vals := e.chans.map fun d => convert true (fnomOf s e.system) d body
        let s := if stat / 1024 % 2 = 1 then ingEvent 5 s else s
        acceptPkt (if a.inject then 2 else 0) a ep tm vals fl s

/-- A CFG-2 or CFG-3 frame (R156): judged once against block 0 at step 5, then compared with each endpoint. -/
def cfgFrame (a : Arrive) (l : List Byte) (f : RxFrame) (e0 : Nat) (s : State) : State :=
  match epOf s e0 with
  | none => s
  | some e =>
    if !(portOk a e) then ingReject 9 none s
    else if !(intake s) then s
    else
      let sig := (crc32 (sub l 4 2 ++ (l.take (l.length - 2)).drop 14)).toNat
      let s := (streamBlocks s e0).foldl (fun s k =>
        match epOf s k with
        | some x =>
          let bad := decide (x.cfgSig ≠ sig)
          let s := modEp k (fun r => { r with mismatch := bad }) s
          if bad then ingEvent 4 s else s
        | none => s) (ingCnt 19 1 s)
      if a.inject then s else captureIf 2 3 f s

/-- Framing of C37.118.2 (R155). -/
inductive C37Kind where
  | malformed
  | chkErr
  | other
  | data
  | cfg
  deriving DecidableEq, Repr

def c37Kind (l : List Byte) : C37Kind :=
  let n := l.length
  if beAt l 0 1 ≠ 0xAA ∨ n < 16 ∨ beAt l 2 2 ≠ n then .malformed
  else if (crcCcitt (l.take (n - 2))).toNat ≠ beAt l (n - 2) 2 then .chkErr
  else match beAt l 0 2 with
    | 0xAA01 | 0xAA02 => .data
    | 0xAA31 | 0xAA32 | 0xAA52 => .cfg
    | _ => .other

/-- Data frames rejected as CFG_MISMATCH are captured where asked (R152): one of the frame's blocks was. -/
def mismatched (s0 s : State) : Bool := decide (s0.ing.misfits < s.ing.misfits)

/-- Steps 3 to 11 for a C37.118.2 frame received on a port. -/
def judgeC37 (a : Arrive) (u : Udp) (f : RxFrame) (s : State) : State :=
  let l := u.data
  match c37Kind l with
  | .malformed => ingReject 6 none s
  | .chkErr =>
    let s := ingReject 7 none s
    match findC37 s u.src (beAt l 4 2) with
    | some e => modEp e (fun r => { r with chkErr := satN 16 (r.chkErr + 1) }) s
    | none => s
  | .other => ingReject 20 none s
  | k =>
    match findC37 s u.src (beAt l 4 2) with
    | none => ingReject 8 (some 6) s
    | some e0 =>
      if k = .cfg then cfgFrame a l f e0 s
      else
        let t := (streamBlocks s e0).foldl (c37Block a l) s
        if mismatched s t then captureIf 2 2 f t else t

/-! 61850-90-5 (R158 to R160, R163 to R165) -/

/-- Tag check of an SPDU under a key (R158). -/
def tagOk (alg : Nat) (key : List Byte) (p : Spdu) : Bool :=
  match alg with
  | 1 => decide (p.tag = (hmac256 key p.auth).take 10)
  | 2 => decide (p.tag = (hmac256 key p.auth).take 16)
  | 3 => decide (p.tag = hmac256 key p.auth)
  | 4 => decide (p.tag = (gmac (key.take 16) p.iv p.auth).take 8)
  | 5 => decide (p.tag = gmac (key.take 16) p.iv p.auth)
  | _ => false

/-- Replay judgement (R165): `none` where the number is older than the window. -/
def replayJudge (r : Replay) (gen n : Nat) : Option Replay :=
  let r := if r.used = false ∨ r.gen ≠ gen then { used := true, high := n, seen := 0, gen := gen } else r
  let d := (BitVec.ofNat 32 (n + 2 ^ 32 - r.high)).toInt
  if 0 < d then some { r with high := n, seen := (r.seen * 2 ^ d.toNat + 1) % 2 ^ 32 }
  else if (-32 : Int) < d then some { r with seen := r.seen ||| 2 ^ (-d).toNat }
  else none

/-- Serial arithmetic modulo 2^32: `a` is newer than `b`. -/
def newer (a b : Nat) : Bool := decide (0 < (BitVec.ofNat 32 (a + 2 ^ 32 - b)).toInt)

/-- Steps 6 to 8 for an endpoint: the outcome as a counter with its event, or the accepted window. -/
inductive AuthOut where
  | reject (cnt : Nat) (ev : Option Nat)
  | pass
  | window (slotNext : Bool) (r : Replay)
  deriving DecidableEq, Repr

def authSteps (s : State) (e : EpEntry) (p : Spdu) : AuthOut :=
  if e.auth = 0 then .pass else
  match resolveKey s [e.slotCur, e.slotNext] (if e.auth ≤ 3 then 1 else 2) p.keyId with
  | .unknown => .reject 12 (some 2)
  | .revoked => .reject 11 (some 3)
  | .found k =>
    if p.sigAlg ≠ e.auth ∨ tagOk e.auth (slotOfKey s k).val p = false then .reject 10 (some 0)
    else
      let nx := decide (k ≠ e.slotCur)
      match replayJudge (if nx then e.rt.next else e.rt.cur) (slotOfKey s k).gen p.num with
      | none => .reject 13 (some 1)
      | some r => .window nx r

/-- Apply the outcome of steps 6 to 8: true where the frame goes on. -/
def applyAuth (ep : Nat) (o : AuthOut) (s : State) : Bool × State :=
  match o with
  | .pass => (true, s)
  | .reject k ev =>
    let s := modEp ep (fun r => { r with
      authFail := if k = 10 then satN 16 (r.authFail + 1) else r.authFail
      replayN := if k = 13 then satN 16 (r.replayN + 1) else r.replayN }) s
    (false, ingReject k ev s)
  | .window nx w => (true, modEp ep (fun r => if nx then { r with next := w } else { r with cur := w }) s)

/-- SRC_FLAGS of a sampled-value ASDU (R162). -/
def svFlags (e : EpEntry) (q : SvAsdu) (t : UtcTime) : Nat :=
  let bad := e.chans.any fun d => decide (chQual d ≠ 0) && decide (beAt q.data (chOff d + chQual d) 4 % 4 ≠ 0)
  packFields [(0, 1, b2n bad), (1, 1, b2n (decide (q.smpSynch = 0) || t.unsync)), (2, 1, b2n t.failure),
    (6, 1, b2n (decide (e.auth = 0)))]

/-- One ASDU (R159). -/
def judgeAsdu (a : Arrive) (u : Udp) (p : Spdu) (s : State) (q : SvAsdu) : State :=
  match q.refrTm with
  | none => ingReject 16 none s
  | some t =>
    match findHash s u.src 2 q.hash with
    | none => ingReject 8 (some 6) s
    | some ep =>
      match epOf s ep with
      | none => s
      | some e =>
        if !(portOk a e) then ingReject 9 none s else
        let (ok, s) := applyAuth ep (authSteps s e p) s
        if !ok || !(intake s) then s
        else if q.confRev ≠ e.cfgSig ∨ fits e.chans q.data.length true = false then rejectMisfit s
        else
          let tm := tmOf t.sec (fracNs t.frac24 (2 ^ 24)) a.arr s
          acceptPkt 0 a ep tm (e.chans.map fun d => convert false (fnomOf s e.system) d q.data) (svFlags e q t) s

/-- Position a STATUS channel's value gives (R161, R313). -/
def statusPos (d : Dword) (l : List Byte) : Nat :=
  let b := beAt l (chOff d) 1
  if chEnc d = 0 then (if b = 0 then 1 else 2) else b / 64

/-- Point number of a STATUS channel (R171). -/
def chPoint (d : Dword) : Nat := fld d.toNat 16 0

/-- One GOOSE PDU (R160). Its time to live runs from its arrival. Outside RUN step 8 runs and nothing is written (R153). -/
def judgeGoose (a : Arrive) (u : Udp) (p : Spdu) (q : GoosePdu) (s : State) : State :=
  match findHash s u.src 3 q.hash with
  | none => ingReject 8 (some 6) s
  | some ep =>
    match epOf s ep with
    | none => s
    | some e =>
      if !(portOk a e) then ingReject 9 none s else
      let (ok, s) := applyAuth ep (authSteps s e p) s
      if !ok then s
      else
        let old := match e.rt.stNum with | some n => newer n q.stNum | none => false
        let fresh := match e.rt.stNum with | some n => newer q.stNum n | none => true
        if old then
          ingReject 13 (some 1) (modEp ep (fun r => { r with replayN := satN 16 (r.replayN + 1) }) s)
        else if !(intake s) then s
        else if fits e.chans q.data.length false = false then rejectMisfit s
        else
          let tm := tmOf q.t.sec (fracNs q.t.frac24 (2 ^ 24)) a.arr s
          let s := ingCnt 3 1 s
          let s := modEp ep (fun r => { r with
            accepted := satAdd r.accepted 1, lastTs := a.st.ts32, lastEpoch := a.st.epoch, stale := false
            stNum := some q.stNum, talAt := some (freeOf a.arr s + q.ttlMs * 1000000 * fr) }) s
          if fresh then
            let sec := (tm / 1000000000).toNat
            let ns := (tm % 1000000000).toNat
            e.chans.foldl (fun s d =>
              writePoint (chPoint d) (statusPos d q.data) sec ns (journalAdd (.status (chPoint d) (statusPos d q.data) sec ns) s)) s
          else s

/-- Steps 3 to 11 for a 61850-90-5 frame, given as decoded: `none` where it cannot be decoded. -/
def judge905 (a : Arrive) (u : Udp) (p : Option Spdu) (s : State) : State :=
  match p with
  | none => ingReject 6 none s
  | some p =>
    if p.session ≠ 0xA1 ∧ p.session ≠ 0xA2 then ingReject 6 none s
    else if p.enc then ingReject 14 none s
    else match p.body with
      | .sv l =>
        if p.session ≠ 0xA2 ∨ 8 < l.length ∨ l.isEmpty then ingReject 6 none s else l.foldl (judgeAsdu a u p) s
      | .goose l =>
        match l with
        | [q] => if p.session ≠ 0xA1 then ingReject 6 none s else judgeGoose a u p q s
        | _ => ingReject 6 none s

/-- A frame that may carry a PDU of the endpoint arrived by an instant and waits to be judged. -/
def pduWaits (s : State) (e : EpEntry) (t : Nat) : Bool :=
  s.net.ports.any fun q => q.rx.any fun f =>
    match udpOf f.bytes f.st.rct with
    | some u => decide (u.src = e.addr ∧ u.dport = fld s.ing.port905.toNat 15 0 ∧ freeOf f.arr s ≤ t)
    | none => false

/-- GOOSE_TAL_EXPIRY (R160): the endpoint's points become STALE. A PDU that arrived in time and still waits in its port's FIFO is judged first.
Outside RUN no status point is updated (R153), so the expiry waits for RUN (log 146). -/
def gooseTal (ep : Nat) (s : State) : State :=
  match epOf s ep with
  | none => s
  | some e =>
    match e.rt.talAt with
    | none => s
    | some t =>
      if decide (s.tbu.free < t) || !(intake s) || pduWaits s e t then s else
      let s := modEp ep (fun r => { r with talAt := none, stale := true }) s
      ingEvent 10 (ingCnt 18 1 (e.chans.foldl (fun s d => stalePoint (chPoint d) s) s))

/-! HXG (R166 to R168) -/

def slowAt (s : State) (i : Nat) : Option Unit512 := (lookupK s.ing.slow i).filter slowValid
def setSlow (i : Nat) (u : Unit512) (s : State) : State := { s with ing := { s.ing with slow := insertK s.ing.slow i u } }

/-- Count a report rejected at steps 5 to 9 in REJECTS (R173), which is slow endpoint state: not outside RUN (R153). -/
def slowReject (i k : Nat) (ev : Option Nat) (s : State) : State :=
  let s := ingReject k ev s
  if !(intake s) then s else
  match slowAt s i with
  | some u => setSlow i (putF u 191 176 (satN 16 (slowF u 191 176 + 1))) s
  | none => s

/-- Tag of a report under the meter key (R167). -/
def hxgTag (auth : Nat) (group : List Byte) (l : List Byte) : List Byte :=
  let mk := hmac256 group ([0x48#8, 0x58#8, 0x47#8, 0x31#8] ++ sub l 4 4)
  if auth = 1 then (hmac256 mk (l.take 80)).take 16
  else gmac (mk.take 16) (sub l 4 8 ++ sub l 18 4) (l.take 80)

/-- A report that passed authentication (R168). Outside RUN only its SEQ is judged (R153). It enters aggregation where it is judged: steps 3 to 10
of R150 are a report's, so the ingest FIFO that R16 names for it holds no entry of it (DEDUCED, log 147). -/
def hxgUpdate (i : Nat) (l : List Byte) (arr : Int) (u : Unit512) (s : State) : State :=
  let seq := beAt l 8 4
  let sec := beAt l 12 6
  let ns := beAt l 18 4
  let t : Int := (sec * 1000000000 + ns : Nat)
  let never := slowState u = 0
  let stale := if never then decide (t < s.ing.startNs - (3 * slowInterval u * 1000000000 : Nat)) else !(newer seq (slowSeq u))
  if stale then slowReject i 13 (some 1) s
  else if !(intake s) then s
  else if arr + 2 * secFr < t * 65536 then ingReject 17 none s
  else
    let typ := beAt l 3 1
    let u := putF (putF (putF u 511 480 seq) 479 432 sec) 431 400 ns
    let u := putF (putF (putF u 399 368 (beAt l 24 4)) 367 336 (beAt l 28 4)) 335 304 (beAt l 32 4)
    let u := putF (putF u 223 192 (satN 32 (slowF u 223 192 + 1))) 265 264 (if typ = 2 then 3 else 1)
    let w := fun (o : Nat) => BitVec.ofNat 32 (beAt l o 4)
    geReport sec ⟨i, typ, w 24, w 28, w 32, w 36, w 40⟩ (ingCnt 1 1 (setSlow i u s))

/-- One report of 96 bytes: steps 3 to 10 (R166). -/
def hxgReport (eng : Nat) (arr : Int) (s : State) (l : List Byte) : State :=
  let s := engFrames eng 1 s
  let typ := beAt l 3 1
  if beAt l 0 2 ≠ 0x4858 ∨ beAt l 2 1 ≠ 1 ∨ typ = 0 ∨ 3 < typ ∨ 1000000000 ≤ beAt l 18 4 then ingReject 6 none s
  else if beAt l 4 4 / 2 ^ 30 ≠ 1 then ingReject 8 (some 6) s
  else
    let i := beAt l 4 4 % 2 ^ 30
    match slowAt s i with
    | none => ingReject 8 (some 6) s
    | some u =>
      let auth := slowAuth u
      if auth = 0 then hxgUpdate i l arr u s
      else match resolveKey s [slowKey u] 1 (BitVec.ofNat 32 (beAt l 44 4)) with
        | .unknown => slowReject i 12 (some 2) s
        | .revoked => slowReject i 11 (some 3) s
        | .found k =>
          if hxgTag auth (slotOfKey s k).val l ≠ sub l 80 16 then slowReject i 10 (some 0) s
          else hxgUpdate i l arr u s

/-- Reports of a datagram, in order. -/
def chunks96 : Nat → List Byte → List (List Byte)
  | 0, _ => []
  | k + 1, l => if l.isEmpty then [] else l.take 96 :: chunks96 k (l.drop 96)

def judgeHxg (a : Arrive) (u : Udp) (s : State) : State :=
  let n := u.data.length
  let s := { s with ing := { s.ing with rr := (a.eng + 1) % 16 } }
  if n = 0 ∨ n % 96 ≠ 0 ∨ 1440 < n then ingReject 6 none (engFrames a.eng 1 s)
  else (chunks96 15 u.data).foldl (hxgReport a.eng a.arr) s

/-! The frame steps (R150) -/

def RxStat.flagged (t : RxStat) : Bool := t.udpErr || t.ipErr || t.fcsErr || t.oversize || t.runt

/-- The next engine from `n` on that can accept a frame (R147). -/
def freeEngine (s : State) : Nat → Nat → Option Nat
  | 0, _ => none
  | k + 1, n => if engineFree s (n % 16) then some (n % 16) else freeEngine s k (n + 1)

/-- What a frame without flags holds for ingest: an answer to give, or a datagram. -/
def answerOf (s : State) (f : RxFrame) : Option (List Byte) :=
  if !f.st.flagged && bitOf s.ing.cfg 3 then arpAnswer s f.st.port f.bytes else none

/-- The engine of a frame, if it can accept: streams go by their hash, other frames round-robin (R147; log 148). -/
def engineFor (s : State) (f : RxFrame) : Option Nat :=
  let any_ := freeEngine s 16 s.ing.rr
  if f.st.flagged || (answerOf s f).isSome then any_ else
  match udpOf f.bytes f.st.rct with
  | some u =>
    if u.dport = fld s.ing.portC37.toNat 15 0 ∨ u.dport = fld s.ing.port905.toNat 15 0 then
      (if engineFree s (hashEngine u) then some (hashEngine u) else none)
    else any_
  | none => any_

/-- Engine `e` judges one frame of a port receive FIFO. -/
def judgeFrame (e : Nat) (f : RxFrame) (p : Option Spdu) (s : State) : State :=
  let arrive := fun (sp : Nat) => { port := f.st.port, sport := sp, st := f.st, arr := f.arr, inject := false, eng := e : Arrive }
  if f.st.flagged then captureIf 0 0 f (ingReject 4 none (engFrames e 1 s))
  else
    match answerOf s f with
    | some b => ingCnt 21 1 (handFrame f.st.port false (TxFrame.plain b) (engFrames e 1 s))
    | none =>
      match udpOf f.bytes f.st.rct with
      | none => captureIf 1 1 f (ingReject 5 none (engFrames e 1 s))
      | some u =>
        if u.dport = fld s.ing.portC37.toNat 15 0 then judgeC37 (arrive u.sport) u f (engFrames e 1 s)
        else if u.dport = fld s.ing.port905.toNat 15 0 then
          let t := judge905 (arrive u.sport) u p (engFrames e 1 s)
          if mismatched s t then captureIf 2 2 f t else t
        else if u.dport = fld s.ing.portHxg.toNat 15 0 then judgeHxg (arrive u.sport) u s
        else captureIf 1 1 f (ingReject 5 none (engFrames e 1 s))

/-- INGEST_FRAME: the frame at the head of a port's receive FIFO is judged, or waits for its engine (R147, R180). -/
def ingestFrame (p : Nat) (spdu : Option Spdu) (s : State) : State :=
  match (portOf s p).rx with
  | [] => s
  | f :: r =>
    let s := leapUpdate s
    match engineFor s f with
    | some e => rxSextant p (judgeFrame e f spdu (modPort p (fun q => { q with rx := r }) s))
    | none => s

/-! INJECT (R174, R175) -/

/-- Status of an INJECT descriptor's frame, judged from step 3 (R174, R175). An ENDPOINT_ID of another class, or of an entry that is not VALID or
whose PROTO is not 4, names no injected endpoint: its frame is counted UNKNOWN_EP at step 4 (DEDUCED, log 149). -/
def injectJudge (id : Nat) (l : List Byte) (s : State) : Status × State :=
  let bad := fun (s : State) => (Status.param, ingCnt 22 1 s)
  let eng := id % 2 ^ 30 % 16
  let s := engFrames eng 1 (leapUpdate s)
  let ep := injEntry (id % 2 ^ 30)
  let hit := (epOf s ep).filter fun e => decide (id / 2 ^ 30 = 2 ∧ id % 2 ^ 30 < 16384 ∧ e.id = id)
  let st : RxStat := ⟨ts32 s, s.tbu.epoch, 0, 0, false, 0, 0, false, false, false, false, false, false, false, l.length⟩
  let a : Arrive := ⟨0, 0, st, discTime s, true, eng⟩
  let f : RxFrame := ⟨l, st, discTime s⟩
  match c37Kind l, hit.filter fun e => decide (e.proto = 4) with
  | .malformed, _ => bad (ingReject 6 none s)
  | .chkErr, none => bad (ingReject 7 none s)
  | .chkErr, some _ => bad (ingReject 7 none (modEp ep (fun r => { r with chkErr := satN 16 (r.chkErr + 1) }) s))
  | .other, _ => bad (ingReject 20 none s)
  | _, none => bad (ingReject 8 (some 6) s)
  | .cfg, some _ => (.ok, captureIf 2 3 f (cfgFrame a l f ep s))
  | .data, some _ =>
    let t := (streamBlocks s ep).foldl (c37Block a l) s
    (.ok, if mismatched s t then captureIf 2 2 f t else t)

/-- Intake for an INJECT frame: its engine can accept it and the target FIFO is not full (R147, R175). -/
def injectRoom (id : Nat) (s : State) : Bool :=
  let n := id % 2 ^ 30 % 16
  engineFree s n && !(fifoOf s n).full

end Sys2Proof.Machine
end

