-- ==== Sys2Proof/Machine/Churn.lean ====
section
/-! DEFINITION. The Churn: the grid, the front, placement, amendments, the committed view, FINAL (R186 to R217). -/

namespace Sys2Proof.Machine

def alnEvent (k : Nat) (s : State) : State :=
  let up := newlySet s.aln.event s.aln.eventEn k
  let s := { s with aln := { s.aln with event := setBit s.aln.event k } }
  if up then raiseBlock 5 s else s
def alnCnt (k n : Nat) (s : State) : State := { s with aln := { s.aln with cnt := modAt s.aln.cnt k (satAdd · n) } }

/-! The grid (R187, R193) -/

/-- F, in frames per second; 1 before any START. -/
def frate (s : State) : Nat := max 1 s.sys.rate
/-- A time in 2^-16 ns is at or after Tm(g) plus `extra`, exactly. -/
def tmReached (f g : Nat) (extra t : Int) : Bool := decide ((g * secFr : Int) + extra * f ≤ t * f)
/-- Largest grid index whose Tm is not later than a time. -/
def gridAt (f : Nat) (t : Int) : Nat := (t * f / secFr).toNat
/-- SNAP_TOL and SKEW_TOL in ns. -/
def snapTol (s : State) : Nat := fld s.aln.snapTol.toNat 19 0
def skewTol (s : State) : Nat := fld s.aln.skewTol.toNat 19 0
/-- The front as disciplined time alone gives it (R193). -/
def frontNow (s : State) : Nat := gridAt (frate s) (discTime s + (skewTol s * fr : Nat)) + 1
/-- Φ moves forward only (R193). -/
def advanceFront (s : State) : State := { s with aln := { s.aln with front := max s.aln.front (frontNow s) } }
/-- Position of a tick (R194). -/
def position (s : State) (g : Nat) : Nat := s.aln.front + 1 - g

/-! Ticks that hold storage -/

def tickOf (s : State) (g : Nat) : Option Tick := s.aln.ticks.find? fun t => t.g = g
def modTick (g : Nat) (f : Tick → Tick) (s : State) : State :=
  { s with aln := { s.aln with ticks := s.aln.ticks.map fun t => if t.g = g then f t else t } }
def dropTick (g : Nat) (s : State) : State :=
  { s with aln := { s.aln with ticks := s.aln.ticks.filter fun t => t.g ≠ g } }
/-- An open tick with nothing placed. -/
def newTick (g : Nat) : Tick :=
  { g := g, seq := 0, st := .opn, eps := [], view := [], commitTs := 0, epoch := 0, cause := 0, suspect := false,
    holdover := false, incomplete := false, finalAtCommit := false, amends := 0, revision := 0, resolveDropped := false, limitSeen := false,
    unobSeen := false, bind := Bind.reset, outZones := [], rsView := [], rsCover := 0, commitDone := false,
    tq := ⟨0, 0, 0, 0, 0, 0⟩, unlocked := false, digF := [] }
/-- Insert a tick in grid order. -/
def insertTick (t : Tick) : List Tick → List Tick
  | [] => [t]
  | u :: r => if t.g < u.g then t :: u :: r else if t.g = u.g then t :: r else u :: insertTick t r
def putTick (t : Tick) (s : State) : State := { s with aln := { s.aln with ticks := insertTick t s.aln.ticks } }
/-- The open tick g, made where no packet has reached it. -/
def openTick (g : Nat) (s : State) : Tick := (tickOf s g).getD (newTick g)

/-- TICK_MARKS of a tick's records as at writing, without TOPOLOGY_APPROX and DEFERRED, which only some records carry (R58). -/
def Tick.marks (t : Tick) : Nat :=
  (if t.st = .final then markFinal else 0) + (if t.incomplete then markIncomplete else 0) + (if t.suspect then markSuspect else 0)

/-! Endpoints of the aligned ticks: fast and injected ones; GOOSE endpoints carry no tick values (R160). -/

def EpEntry.inTicks (e : EpEntry) : Bool := e.valid && e.proto ≠ 3 && e.proto ≠ 0
def tickEps (s : State) : List (Nat × EpEntry) := s.ing.eps.filter fun e => e.2.inTicks
def absentIn (s : State) (l : List (Nat × EpVal)) (p : EpEntry → Bool) : Nat :=
  ((tickEps s).filter fun e => p e.2 && !(lookupK l e.1).isSome).length
/-- W_s (R197). -/
def weightIn (s : State) (l : List (Nat × EpVal)) (k : Nat) : Nat :=
  sumN ((tickEps s).map fun e => if e.2.system = k && (lookupK l e.1).isSome then e.2.weight else 0)

/-! Records (R214 to R216) -/

/-- Head of an ALIGNED record, and of an AMENDMENT record in bits [511:228] (R215). -/
def alignedHead (f g seq marks typ units dup : Nat) (e : EpEntry) (v : Option EpVal) (extra : List (Nat × Nat × Nat)) : Unit512 :=
  unitOf (hdr typ units marks ++ [(480, 32, e.id), (432, 48, tmSec f g), (400, 32, tmNs f g), (368, 32, seq),
    (336, 32, (v.map EpVal.arrTs).getD 0), (328, 8, (v.map EpVal.arrEpoch).getD 0),
    (320, 8, ((v.map EpVal.quality).getD 0#8).toNat), (312, 8, ((v.map EpVal.flags).getD 0#8).toNat), (303, 9, e.nchan),
    (276, 16, satN 16 dup), (244, 32, ifld 32 ((v.map EpVal.snap).getD 0)), (232, 12, e.zone),
    (228, 4, e.system)] ++ extra)

/-- Value blocks: channel c in bytes 8c to 8c + 7 (R214). -/
def valueBlocks (e : EpEntry) (v : Option EpVal) : List Unit512 :=
  let vals := (List.range e.nchan).map fun c => (nth ((v.map EpVal.vals).getD []) c nanSlot).toNat
  packUnits 64 vals

/-- ALIGNED record of one endpoint from the committed view, with the duplicates counted so far. -/
def alignedUnits (f : Nat) (t : Tick) (e : EpEntry) (v : Option EpVal) (dup : Nat) : List Unit512 :=
  let us := valueBlocks e v
  alignedHead f t.g t.seq 0 0x10 (1 + us.length) dup e v [] :: us

/-- AMENDMENT record (R215): RESOLVE, POSITION, CHANGED. -/
def amendUnits (f : Nat) (t : Tick) (pos resolve changed : Nat) (e : EpEntry) (v : EpVal) : List Unit512 :=
  let us := valueBlocks e (some v)
  alignedHead f t.g t.seq t.marks 0x11 (2 + us.length) v.dup e (some v)
    [(212, 16, satN 16 t.amends), (205, 7, pos), (203, 2, resolve)] :: unitOf [(0, 256, changed)] :: us

/-- FINALIZED record (R216). -/
def finalUnits (s : State) (t : Tick) (cause : Nat) : List Unit512 :=
  [unitOf (hdr 0x12 1 (t.marks ||| markFinal) ++ [(448, 16, satN 16 (absentIn s t.eps fun _ => true)), (432, 16, satN 16 t.amends),
    (428, 4, t.revision), (427, 1, b2n t.resolveDropped), (416, 2, cause), (384, 32, t.seq), (352, 32, tmNs (frate s) t.g),
    (304, 48, tmSec (frate s) t.g)])]

/-- A ring field of an OUT_RING register: [6] EN, [5:0] RING. -/
def ringSel (v : Nat) : Option Nat := if v / 64 % 2 = 1 then some (v % 64) else none
/-- Different rings named with EN = 1, first naming first. -/
def ringSet (l : List Nat) : List Nat :=
  l.foldl (fun a v => match ringSel v with | some n => if a.contains n then a else a ++ [n] | none => a) []

/-! Placement (R186 to R192) -/

/-- Outcome of the checks of R188. -/
inductive Verdict where
  | offGrid
  | future
  | late
  | dup (g : Nat)
  | waits
  | place (g : Nat) (snap : Int) (amend : Bool)
  deriving DecidableEq, Repr

/-- A tick that has been committed takes values while it is SPECULATIVE and Φ has not reached g + H (R190, R202). -/
def takesAmend (s : State) (t : Tick) : Bool := t.st = .spec && decide (s.aln.front < t.g + s.aln.horizon)

/-- The slot of tick g is free: tick g - 16 has released it (R195). -/
def slotFree (s : State) (g : Nat) : Bool :=
  if g < 16 then true else
  decide (g - 16 < s.aln.next) && match tickOf s (g - 16) with
    | some t => t.commitDone && !(gathering s t.g)
    | none => true

/-- A head that passed the checks goes on waiting until tick g's slot is free; at placement it is judged again (R189, R195). -/
def goesOnWaiting (s : State) (p : Pkt) (g : Nat) : Bool :=
  p.waited && s.aln.placing && decide (s.aln.next ≤ g) && !(slotFree s g)

/-- The tick whose time a packet's names (R187). -/
def pktTick (s : State) (p : Pkt) : Nat := (roundDiv ((p.tm * frate s : Nat) : Int) 1000000000).toNat

/-- The checks in their order (R188). -/
def judgePkt (s : State) (p : Pkt) : Verdict :=
  let f := frate s
  let g := pktTick s p
  let off : Int := ((p.tm * f : Nat) : Int) - ((g * 1000000000 : Nat) : Int)
  if goesOnWaiting s p g then .waits
  else if snapTol s * f < off.natAbs then .offGrid
  else if frontNow s < g then .future
  else
    let t := openTick g s
    let committed := decide (g < s.aln.next)
    if !s.aln.placing || (committed && !(takesAmend s t)) then .late
    else if (lookupK t.eps p.ep).isSome then .dup g
    else if !committed && !(slotFree s g) then .waits
    else .place g (rneDiv off f) committed

/-- The quality byte at placement (R212). -/
def qualityOf (suspect : Bool) (flags : Byte) (amend : Bool) : Byte :=
  let b := fun k => flags.getLsbD k
  BitVec.ofNat 8 (packFields [(7, 1, b2n suspect), (6, 1, b2n (b 6)), (5, 1, b2n (b 3 || b 4 || b 5)), (4, 1, b2n (b 2)),
    (3, 1, b2n (b 1)), (2, 1, b2n (b 0)), (1, 1, b2n amend), (0, 1, 1)])

def epValOf (suspect : Bool) (p : Pkt) (snap : Int) (amend : Bool) : EpVal :=
  { vals := p.vals, quality := qualityOf suspect p.flags amend, flags := p.flags, arrTs := p.arrTs, arrEpoch := p.arrEpoch,
    arrFree := p.arrFree, snap := snap, dup := 0 }

/-- DUP_COUNT of an endpoint in a tick. -/
def bumpDup (g ep : Nat) (s : State) : State :=
  let up := fun (e : Nat × EpVal) => if e.1 = ep then (e.1, { e.2 with dup := e.2.dup + 1 }) else e
  modTick g (fun t => { t with eps := t.eps.map up }) s

/-- A duplicate, already counted in DUPLICATE (R191). -/
def placeDup (g : Nat) (p : Pkt) (s : State) : State :=
  let differs := match lookupK (openTick g s).eps p.ep with
    | some v => decide (v.vals ≠ p.vals ∨ v.flags ≠ p.flags)
    | none => false
  let s := bumpDup g p.ep s
  if differs then alnEvent 3 (alnCnt 5 1 s) else s

/-- The re-solve of a tick is requested (R65, R208): READY takes nothing, a started one takes one pending re-ready. Without an estimator section no
LSE task runs (R251). -/
def requestResolve (g seq : Nat) (s : State) : State :=
  match findEntry (fun t => t.g = g && (t.work = .resolveA || t.work = .resolveB)) s with
  | some t => if t.work = .resolveA && !t.started then s else updEntry t (fun e => { e with reReady := true }) s
  | none => readyAll (fun w => w = .resolveA && s.lse.sec.isSome) g seq s

/-- Channels whose slot differs from the empty one (R207). -/
def changedMap (v : EpVal) : Nat := bitmap 256 fun c => decide (nth v.vals c nanSlot ≠ nanSlot)

/-- Keep a record for the digest of a FINAL tick (R502). -/
def keepFinal (g typ : Nat) (us : List Unit512) (s : State) : State :=
  if s.pair.st = .unpaired then s else modTick g (fun t => { t with digF := t.digF ++ [(typ, us)] }) s

/-- An amendment: values, record, request (R207 to R209). -/
def amendTick (g : Nat) (p : Pkt) (v : EpVal) (s : State) : State :=
  let t0 := openTick g s
  let t := { t0 with eps := insertK t0.eps p.ep v, amends := t0.amends + 1 }
  let s := alnEvent 7 (alnCnt 6 1 (putTick t s))
  let resolve := if !s.aln.resolve then 0 else if t.revision = 15 then 2 else 1
  let s := match epOf s p.ep with
    | none => s
    | some e =>
      match ringSel (nth s.aln.outRing e.system 0) with
      | none => s
      | some n =>
        let us := fun (v : EpVal) => amendUnits (frate s) t (position s g) resolve (changedMap v) e v
        keepFinal g 0x11 (us { v with arrTs := 0, arrEpoch := 0, dup := 0 }) (handRec n 0x11 (us v) (some p.arrFree) (some t.seq) s)
  match resolve with
  | 1 => requestResolve g t.seq (alnCnt 7 1 s)
  | 2 => alnEvent 5 (alnCnt 8 1 s)
  | _ => s

/-- A packet takes effect by its verdict (R188). -/
def placeAs (p : Pkt) (v : Verdict) (s : State) : State :=
  match v with
  | .offGrid => alnEvent 0 (alnCnt 1 1 s)
  | .future => alnEvent 1 (alnCnt 2 1 s)
  | .late => alnEvent 2 (alnCnt 3 1 s)
  | .dup g => placeDup g p (alnCnt 4 1 s)
  | .waits => s
  | .place g snap amend =>
    let v := epValOf s.tbu.suspect p snap amend
    let s := alnCnt 0 1 s
    if amend then amendTick g p v s
    else
      let t := openTick g s
      putTick { t with eps := insertK t.eps p.ep v } s

/-- A packet judged and, where it passes, placed (R188). A packet that waits for its slot is not handled here. -/
def placePkt (p : Pkt) (s : State) : State := placeAs p (judgePkt s p) s

/-- How a packet of the journal was first judged. -/
def Verdict.kind : Verdict → JKind
  | .place _ _ false => .placed
  | .place _ _ true => .amended
  | .dup _ => .duplicate
  | _ => .rejected

/-- The journal takes a packet. -/
def journalPkt (p : Pkt) (v : Verdict) (s : State) : State := journalAdd (.pkt { pkt := p, kind := v.kind, suspect := s.tbu.suspect }) s

/-- The head packet of FIFO n, where the Churn may read it: no flush is pending on it (R179), and it was not pushed in this very cycle: a pop of an
empty FIFO stalls (R177). -/
def headPkt (s : State) (n : Nat) : Option Pkt :=
  let f := fifoOf s n
  if f.flush.isSome then none else f.pkts.head?.filter fun p =>
    (nth s.prior.ing.fifos n Fifo.reset).pkts.any fun q => { q with waited := p.waited } = p

def popFifo (n : Nat) (s : State) : State := fifoDrop n 0 1 (fifoOf s n).flush s

/-- A head that must wait is counted once (R195). -/
def markWait (n : Nat) (p : Pkt) (s : State) : State :=
  if p.waited then s else
  let f := fifoOf s n
  alnEvent 6 (alnCnt 12 1 { s with ing := { s.ing with fifos := setAt s.ing.fifos n { f with
    pkts := { p with waited := true } :: f.pkts.drop 1 } } })

/-- The FIFO to serve, from the one after the last served (R186); heads that wait are passed by (R195). -/
def serveFifo : Nat → Nat → State → Option (Nat × Pkt) × State
  | 0, _, s => (none, s)
  | k + 1, n, s =>
    match headPkt s (n % 16) with
    | none => serveFifo k (n + 1) s
    | some p =>
      if judgePkt s p = .waits then serveFifo k (n + 1) (markWait (n % 16) p s)
      else (some (n % 16, p), s)

/-- Values of an amendment that was recorded before the fault, placed again without a second record (R444). -/
def reAmend (g : Nat) (p : Pkt) (v : EpVal) (s : State) : State :=
  let t := openTick g s
  putTick { t with eps := insertK t.eps p.ep v, amends := t.amends + 1 } s

/-- One packet of a replay is placed again (R444). Its first judgement was counted and, for an amendment, recorded; only what
is new is counted and recorded now. -/
def replayOne (j : JPkt) (s : State) : State :=
  match j.kind, judgePkt s j.pkt with
  | .placed, .place g snap false =>
    let t := openTick g s
    putTick { t with eps := insertK t.eps j.pkt.ep (epValOf j.suspect j.pkt snap false) } s
  | .placed, .place g snap true => amendTick g j.pkt (epValOf s.tbu.suspect j.pkt snap true) s
  | .placed, .late => alnEvent 2 (alnCnt 3 1 s)
  | .amended, .place g snap true => reAmend g j.pkt (epValOf j.suspect j.pkt snap true) s
  | .duplicate, .dup g => bumpDup g j.pkt.ep s
  | _, _ => s

/-- The next packet of a replay (R444); the replay ends with its last one. -/
def replayStep (s : State) : State :=
  match s.aln.replay with
  | some (j :: r, at_) => replayOne j { s with aln := { s.aln with replay := if r.isEmpty then none else some (r, at_) } }
  | _ => { s with aln := { s.aln with replay := none } }

/-- Packets left at the end of the replay budget are placed as new arrivals at that instant (R445). -/
def replayRest (s : State) : State :=
  match s.aln.replay with
  | some (l, _) => l.foldl (fun s j => replayOne j s) { s with aln := { s.aln with replay := none } }
  | none => s

/-- W_s is at least Q_s in every system with a quorum configured (R199). -/
def quorumMet (s : State) (t : Tick) : Bool :=
  (List.range 16).all fun k => decide (nth s.aln.quorum k 0 ≤ weightIn s t.eps k)

/-- The instant since which the oldest uncommitted tick meets its quorums, judged after every placement (R199). -/
def noteQuorum (s : State) : State :=
  let met := quorumMet s (openTick s.aln.next s)
  { s with aln := { s.aln with quorumAt := if met then (s.aln.quorumAt.orElse fun _ => some s.tbu.free) else none } }

/-- The packet that the service of the FIFOs gives leaves its FIFO and is judged. -/
def placeServed : Option (Nat × Pkt) × State → State
  | (none, s) => s
  | (some (n, p), s) =>
    let s := popFifo n { s with aln := { s.aln with rr := n } }
    noteQuorum (placePkt p (journalPkt p (judgePkt s p) s))

/-- R186 without its ECC check: one packet leaves a FIFO and is judged. -/
def placeNext (s : State) : State := placeServed (serveFifo 16 (s.aln.rr + 1) (advanceFront s))

/-! Commit (R196 to R201) -/

def anyQuorum (s : State) : Bool := s.aln.quorum.any (· ≠ 0)

/-- The first and the second condition of R199 at a time. -/
def readyQuorum (s : State) (g : Nat) : Bool :=
  tmReached (frate s) g (s.aln.waitMin * 1000 * fr : Nat) (discTime s) && quorumMet s (openTick g s)
def readyMax (s : State) (g : Nat) : Bool := tmReached (frate s) g (s.aln.waitMax * 1000 * fr : Nat) (discTime s)

/-- Disciplined time as it was at an instant on TBU_FREE, with these steps still to come. -/
def timeBefore (s : State) (at_ : Nat) (steps : List (Nat × Int)) : Int := domTimeAt (selDom s) at_ - (steps.map Prod.snd).foldl (· + ·) 0

/-- Disciplined time as it was at an instant since the latest commit. -/
def timeAt (s : State) (at_ : Nat) : Int := timeBefore s at_ (s.aln.steps.filter fun e => decide (at_ < e.1))

/-- What disciplined time passed through from an instant to now, without a step inside each part. -/
def timeSpans (s : State) (from_ : Nat) : List (Nat × Int) → List (Int × Int)
  | [] => [(timeBefore s from_ [], discTime s)]
  | e :: r => (timeBefore s from_ (e :: r), timeBefore s e.1 (e :: r)) :: timeSpans s e.1 r

/-- The first condition of R199 held before Tm + WAIT_MAX: since the quorum is met, time went through an instant between the two waits. -/
def quorumInTime (s : State) (g : Nat) : Bool :=
  match s.aln.quorumAt with
  | some q =>
    decide (s.aln.waitMin < s.aln.waitMax) && (timeSpans s q (s.aln.steps.filter fun e => decide (q < e.1))).any fun p =>
      !(tmReached (frate s) g (s.aln.waitMax * 1000 * fr : Nat) p.1) && tmReached (frate s) g (s.aln.waitMin * 1000 * fr : Nat) p.2
  | none => false

/-- The tick was ready before an instant on TBU_FREE (R200, first bullet). -/
def readyBefore (s : State) (g at_ : Nat) : Bool :=
  let t := timeAt s (at_ - 1)
  let early := match s.aln.quorumAt with
    | some q => decide (q < at_)
    | none => false
  decide (0 < at_) && ((tmReached (frate s) g (s.aln.waitMin * 1000 * fr : Nat) t && early) ||
    tmReached (frate s) g (s.aln.waitMax * 1000 * fr : Nat) t)

/-- COMMIT_CAUSE (R200): held where the tick was ready before the instant R40 allows. -/
def causeOf (s : State) (g : Nat) : Nat :=
  if readyBefore s g s.tkx.notBefore then 2
  else if readyQuorum s g && (!(readyMax s g) || quorumInTime s g) || !(anyQuorum s) then 0
  else 1

/-- ALN_CNT and ALN_EVENT of a cause. -/
def countCause (c : Nat) (s : State) : State :=
  match c with
  | 0 => alnCnt 9 1 s
  | 1 => alnEvent 4 (alnCnt 10 1 s)
  | 2 => alnCnt 11 1 s
  | _ => s

/-- The tick is FINAL at its commit (R202). -/
def finalNow (s : State) (g : Nat) : Bool := decide (g + s.aln.horizon ≤ s.aln.front)

/-- R201: the view is frozen and the registers of the latest commit are written. -/
def freezeView (g seq cause : Nat) (eps : List (Nat × EpVal)) (s : State) : State :=
  let s := advanceFront s
  let t0 := openTick g s
  let fin := finalNow s g
  let t := { t0 with
    seq := seq, st := if fin then .final else .spec, eps := eps, view := eps, commitTs := ts32 s, epoch := s.tbu.epoch,
    cause := cause, suspect := s.tbu.suspect, holdover := holdover s, finalAtCommit := fin, commitDone := false
    tq := timeQuality s.tbu.suspect s, unlocked := decide ((selDom s).st ≠ .locked) }
  let lat := ((discTime s * frate s - (g * secFr : Nat)) / ((frate s * 1000 * fr : Nat) : Int)).toNat
  putTick t { s with aln := { s.aln with
    next := g + 1
    commitLat := satN 20 lat
    lastWeight := (List.range 16).map fun k => weightIn s eps k
    sysAbsent := (List.range 16).map fun k => absentIn s eps fun e => e.system = k
    journal := if s.sys.guarEff = 0 then [] else [] :: s.aln.journal.take 15
    overflow := false, steps := [] } }

/-- Packets placed early into a tick that never commits normally are discarded (R205, R206). -/
def discardOpen (g : Nat) (s : State) : State :=
  match tickOf s g with
  | some t => if t.st = .opn then dropTick g (alnCnt 14 t.eps.length s) else s
  | none => s

/-! FINAL (R202 to R206) -/

/-- The tick's re-solve ends without a revision (R50, R271); a pending re-ready goes with it. -/
def dropResolve (g : Nat) (s : State) : State :=
  match findEntry (fun t => t.g = g && (t.work = .resolveA || t.work = .resolveB)) s with
  | none => s
  | some t =>
    let s := cancelOne 1 t s
    let s := { s with
      tkx := { s.tkx with shedCnt := modAt s.tkx.shedCnt 0 (satAdd · 1) }
      lse := { s.lse with rework := s.lse.rework.filter fun v => v.g ≠ g } }
    modTick g (fun t => { t with resolveDropped := true }) s

/-- A FINALIZED record on every ring the systems name, once per ring. -/
def writeFinalized (t : Tick) (cause : Nat) (s : State) : State :=
  let us := finalUnits s t cause
  let s := if (ringSet s.aln.outRing).isEmpty then s else keepFinal t.g 0x12 us s
  (ringSet s.aln.outRing).foldl (fun s n => handRec n 0x12 us none (some t.seq) s) s

/-- A deferred OSM update of tick g waits (R300). -/
def osmQueued (s : State) (g : Nat) : Bool := s.osm.sets.any fun e => e.2.queue.any fun x => x.g = g

/-- What later records of a tick need once its storage goes: its marks, for the Bell and for deferred OSM updates (R58, R303, R348). -/
def keepPast (t : Tick) (s : State) : State :=
  let s := if t.g = s.ala.lastG then { s with ala := { s.ala with lastMarks := t.marks } } else s
  let old := s.aln.past.filter fun e => osmQueued s e.1
  { s with aln := { s.aln with past := if osmQueued s t.g then insertK old t.g (t.suspect, t.incomplete) else old } }

/-- Storage of a FINAL tick goes once its work no longer reads it and its slot is released (R203, R195). -/
def releaseTick (g : Nat) (s : State) : State :=
  match tickOf s g with
  | some t => if t.st = .final && t.commitDone && (s.tkx.cur.map Cur.g) ≠ some g then dropTick g (keepPast t s) else s
  | none => s

/-- A SPECULATIVE tick becomes FINAL: R203, steps 1 to 3; its storage goes after the Bell's confirmations. -/
def finalizeTick (cause g : Nat) (s : State) : State :=
  match tickOf s g with
  | none => s
  | some t =>
    if t.st ≠ .spec then s else
    let s := modTick g (fun t => { t with st := .final }) s
    let s := dropResolve g s
    let s := alnCnt 13 1 s
    match tickOf s g with
    | some t => writeFinalized t cause s
    | none => s

/-- SPECULATIVE ticks whose FINAL instant has come, in tick order. -/
def dueFinals (s : State) : List Nat :=
  (s.aln.ticks.filter fun t => t.st = .spec && decide (t.g + s.aln.horizon ≤ s.aln.front)).map Tick.g

/-! ALN_STATUS (R219) -/

def specTicks (s : State) : Nat := (s.aln.ticks.filter fun t => t.st = .spec).length
/-- Ticks that have left their slot for the spill (R194, R195). -/
def dramTicks (s : State) : Nat := (s.aln.ticks.filter fun t => t.st = .spec && decide (16 < position s t.g) && t.commitDone && !(gathering s t.g)).length
/-- A head waits for a slot under R195, for that of tick g where given. -/
def waitsFor (s : State) (g : Option Nat) : Bool := (List.range 16).any fun n => match headPkt s n with
  | some p => p.waited && (judgePkt s p = .waits) && (match g with | some g => decide (pktTick s p = g) | none => true)
  | none => false
def slotWaiting (s : State) : Bool := waitsFor s none

/-- Priority at which the Helm runs an entry: a gather that a packet waits on goes at 1 (R195). -/
def urgency (s : State) (t : TEntry) : Nat := if slotHeld s t && waitsFor s (some (t.g + 16)) then 1 else t.prio

end Sys2Proof.Machine
end

