-- ==== Sys2Proof/Machine/Linear.lean ====
section
/-! DEFINITION. The decompositions of R288 in binary64: one-sided Jacobi, rank and pseudo-inverse from it, and shifted QR. The rule names the methods and
their limits; the pair order, the shift and the tolerances are not given: the first two are settled here, the tolerances are free (log 2, log 151). -/

namespace Sys2Proof.Machine

def a64 (x y : Nat) : Nat := fadd f64 x y
def m64 (x y : Nat) : Nat := fmul f64 x y
def s64 (x y : Nat) : Nat := fsub f64 x y
def d64 (x y : Nat) : Nat := fdiv f64 x y
def one64 : Nat := fofInt f64 1
def two64 : Nat := fofInt f64 2

def czero : C64 := (0, 0)
def cadd64 (a b : C64) : C64 := (a64 a.1 b.1, a64 a.2 b.2)
def csub64 (a b : C64) : C64 := (s64 a.1 b.1, s64 a.2 b.2)
def cmul64 (a b : C64) : C64 := (s64 (m64 a.1 b.1) (m64 a.2 b.2), a64 (m64 a.1 b.2) (m64 a.2 b.1))
def cconj64 (a : C64) : C64 := (a.1, fneg f64 a.2)
def cneg64 (a : C64) : C64 := (fneg f64 a.1, fneg f64 a.2)
def cabs2 (a : C64) : Nat := a64 (m64 a.1 a.1) (m64 a.2 a.2)
def cabs64 (a : C64) : Nat := fsqrt f64 (cabs2 a)
def cscale64 (k : Nat) (a : C64) : C64 := (m64 k a.1, m64 k a.2)
def cdiv64 (a b : C64) : C64 := let n := cmul64 a (cconj64 b); (d64 n.1 (cabs2 b), d64 n.2 (cabs2 b))
/-- The principal square root. -/
def csqrt64 (a : C64) : C64 :=
  let r := cabs64 a
  let half := fun (x : Nat) => fsqrt f64 (d64 x two64)
  let im := half (s64 r a.1)
  (half (a64 r a.1), if flt f64 a.2 0 then fneg f64 im else im)

/-- A real matrix, by rows or by columns as said. -/
abbrev Mat := List (List Nat)
def ent (m : Mat) (i j : Nat) : Nat := nth (nth m i []) j 0
/-- A sum of products in the order of the image. -/
def dotIn (img : Dword) (l : List (Nat × Nat)) : Nat := (Config.dot64 img (l.map fun x => (w64 x.1, w64 x.2))).toNat
def mulMat (img : Dword) (a b : Mat) (cols : Nat) : Mat :=
  a.map fun row => (List.range cols).map fun j => dotIn img (row.zipIdx.map fun x => (x.1, ent b x.2 j))
def flipMat (m : Mat) (cols : Nat) : Mat := (List.range cols).map fun j => m.map fun row => nth row j 0
def idMat (n : Nat) : Mat := (List.range n).map fun i => (List.range n).map fun j => if i = j then one64 else 0

/-! One-sided Jacobi (R288, step 2): W holds the columns that become U Σ, V those of V. -/

structure Jacobi where
  w     : Mat
  v     : Mat
  /-- The sweep has rotated a pair. -/
  moved : Bool

/-- Tolerance of a method: 0 Jacobi, 1 rank, 2 QR. -/
def tol64 (k : Nat) : Nat := (Config.tolerance k).toNat

/-- Columns p and q of a matrix turned by (c, s). -/
def turn (c s p q : Nat) (m : Mat) : Mat :=
  let x := nth m p []
  let y := nth m q []
  setAt (setAt m p ((x.zip y).map fun e => s64 (m64 c e.1) (m64 s e.2))) q ((x.zip y).map fun e => a64 (m64 s e.1) (m64 c e.2))

/-- One pair: turned until orthogonal, unless it is so within the tolerance. -/
def Jacobi.pair (img : Dword) (p q : Nat) (j : Jacobi) : Jacobi :=
  let x := nth j.w p []
  let y := nth j.w q []
  let al := dotIn img (x.zip x)
  let be := dotIn img (y.zip y)
  let ga := dotIn img (x.zip y)
  if fle f64 (fabs f64 ga) (m64 (tol64 0) (fsqrt f64 (m64 al be))) then j else
  let ze := d64 (s64 be al) (m64 two64 ga)
  let t0 := d64 one64 (a64 (fabs f64 ze) (fsqrt f64 (a64 one64 (m64 ze ze))))
  let t := if flt f64 ze 0 then fneg f64 t0 else t0
  let c := d64 one64 (fsqrt f64 (a64 one64 (m64 t t)))
  let s := m64 c t
  { w := turn c s p q j.w, v := turn c s p q j.v, moved := true }

/-- One sweep: every pair of columns, row by row. -/
def Jacobi.sweep (img : Dword) (n : Nat) (j : Jacobi) : Jacobi :=
  (List.range n).foldl (fun j p => ((List.range n).drop (p + 1)).foldl (fun j q => j.pair img p q) j) { j with moved := false }

/-- Sweeps until one turns no pair, so many at most: it has converged where the last one `moved` none. -/
def Jacobi.run (img : Dword) (n : Nat) : Nat → Jacobi → Jacobi
  | 0, j => j
  | k + 1, j => let j := j.sweep img n; if j.moved then Jacobi.run img n k j else j

/-- Singular triples by descending value, ties in column order: σ, the column of U, the column of V. -/
def insTriple (x : Nat × List Nat × List Nat) : List (Nat × List Nat × List Nat) → List (Nat × List Nat × List Nat)
  | [] => [x]
  | y :: l => if fgt f64 x.1 y.1 then x :: y :: l else y :: insTriple x l

/-- The singular value decomposition of a matrix given by its n columns, at most 64 sweeps: its triples, and whether it converged. -/
def svd64 (img : Dword) (cols : Mat) : List (Nat × List Nat × List Nat) × Bool :=
  let j := Jacobi.run img cols.length 64 ⟨cols, idMat cols.length, false⟩
  (((j.w.zip j.v).map fun x =>
    let sg := fsqrt f64 (dotIn img (x.1.zip x.1))
    (sg, (if feq f64 sg 0 then x.1 else x.1.map fun y => d64 y sg), x.2)).foldl (fun a t => insTriple t a) [], !j.moved)

/-- Singular values that count: above the tolerance of the greatest. -/
def rankOf (l : List (Nat × List Nat × List Nat)) : List (Nat × List Nat × List Nat) :=
  let s1 := (l.headD (0, [], [])).1
  l.filter fun t => fgt f64 t.1 (m64 (tol64 1) s1)

/-- The pseudo-inverse V Σ⁺ Uᵀ by rows, of a matrix of `rows` rows, from its triples. -/
def pinvOf (img : Dword) (rows cols : Nat) (l : List (Nat × List Nat × List Nat)) : Mat :=
  (List.range cols).map fun i => (List.range rows).map fun j =>
    dotIn img ((rankOf l).map fun t => (d64 (nth t.2.2 i 0) t.1, nth t.2.1 j 0))

/-! Shifted QR (R288, step 4) on a complex matrix by rows. -/

abbrev CMat := List (List C64)
def cent (m : CMat) (i j : Nat) : C64 := nth (nth m i []) j czero
def cid (n : Nat) : CMat := (List.range n).map fun i => (List.range n).map fun j => if i = j then (one64, 0) else czero
def csum (l : List C64) : C64 := l.foldl cadd64 czero
/-- The matrix with k added on its diagonal. -/
def shiftBy (k : C64) (m : CMat) : CMat := m.zipIdx.map fun r => r.1.zipIdx.map fun x => if r.2 = x.2 then cadd64 x.1 k else x.1

/-- A plane rotation of lines p and q: the first becomes c̄ x + s̄ y, the second c y - s x. -/
structure Plane where
  p : Nat
  q : Nat
  c : C64
  s : C64

/-- The rotation that clears the entry (q, k) against (p, k); none where it is 0. -/
def planeFor (p q k : Nat) (m : CMat) : Option Plane :=
  let x := cent m p k
  let y := cent m q k
  if feq f64 (cabs2 y) 0 then none else
  let n := fsqrt f64 (a64 (cabs2 x) (cabs2 y))
  some ⟨p, q, (d64 x.1 n, d64 x.2 n), (d64 y.1 n, d64 y.2 n)⟩

def Plane.rows (r : Plane) (m : CMat) : CMat :=
  let x := nth m r.p []
  let y := nth m r.q []
  setAt (setAt m r.p ((x.zip y).map fun e => cadd64 (cmul64 (cconj64 r.c) e.1) (cmul64 (cconj64 r.s) e.2))) r.q
    ((x.zip y).map fun e => csub64 (cmul64 r.c e.2) (cmul64 r.s e.1))

/-- The adjoint of the rotation on the columns. -/
def Plane.cols (r : Plane) (m : CMat) : CMat :=
  m.map fun row =>
    let x := nth row r.p czero
    let y := nth row r.q czero
    setAt (setAt row r.p (cadd64 (cmul64 x r.c) (cmul64 y r.s))) r.q (csub64 (cmul64 y (cconj64 r.c)) (cmul64 x (cconj64 r.s)))

/-- The upper triangle of the leading n lines, and the rotations that give it. -/
def triangle (n : Nat) (m : CMat) : CMat × List Plane :=
  (List.range n).foldl (fun a k => ((List.range n).drop (k + 1)).foldl (fun (b : CMat × List Plane) q =>
    match planeFor k q k b.1 with
    | some r => (r.rows b.1, b.2 ++ [r])
    | none => b) a) (m, [])

/-- The eigenvalue of the last 2 × 2 block of the leading n lines that lies nearer to the last entry. -/
def shiftOf (n : Nat) (t : CMat) : C64 :=
  let a := cent t (n - 2) (n - 2)
  let d := cent t (n - 1) (n - 1)
  let bc := cmul64 (cent t (n - 2) (n - 1)) (cent t (n - 1) (n - 2))
  let h := cscale64 (fofRat f64 1 2) (csub64 a d)
  let r := csqrt64 (cadd64 (cmul64 h h) bc)
  let mid := cscale64 (fofRat f64 1 2) (cadd64 a d)
  let x := cadd64 mid r
  let y := csub64 mid r
  if fle f64 (cabs64 (csub64 x d)) (cabs64 (csub64 y d)) then x else y

/-- The last of n lines stands apart from the others within the tolerance. -/
def standsApart (n : Nat) (t : CMat) : Bool :=
  let off := ((nth t (n - 1) []).take (n - 1)).foldl (fun a x => a64 a (cabs64 x)) 0
  fle f64 off (m64 (tol64 2) (a64 (cabs64 (cent t (n - 1) (n - 1))) (cabs64 (cent t (n - 2) (n - 2)))))

/-- Iterations until the last of n lines stands apart: those left over, the triangle, the columns' turn; `none` where they run out. -/
def qrLine (n : Nat) : Nat → CMat → CMat → Option (Nat × CMat × CMat)
  | 0, t, z => if standsApart n t then some (0, t, z) else none
  | k + 1, t, z =>
    if standsApart n t then some (k + 1, t, z) else
    let mu := shiftOf n t
    let (r, ps) := triangle n (shiftBy (cneg64 mu) t)
    qrLine n k (shiftBy mu (ps.foldl (fun m p => p.cols m) r)) (ps.foldl (fun m p => p.cols m) z)

/-- QR with deflation of the leading n lines in turn, in at most k iterations: the triangle and the columns' turn. -/
def qrRun : Nat → Nat → CMat → CMat → Option (CMat × CMat)
  | 0, _, t, z => some (t, z)
  | n + 1, k, t, z => if n = 0 then some (t, z) else (qrLine (n + 1) k t z).bind fun r => qrRun n r.1 r.2.1 r.2.2

/-- The eigenvector of the triangle for its entry k, by back substitution from line k up. -/
def backSub (t : CMat) (k : Nat) : Nat → List C64 → List C64
  | 0, y => y
  | i + 1, y =>
    let num := csum (y.zipIdx.map fun e => cmul64 (cent t i (i + 1 + e.2)) e.1)
    backSub t k i (cdiv64 (cneg64 num) (csub64 (cent t i i) (cent t k k)) :: y)

/-- The line from i on with the greatest entry in column i. -/
def pivotOf (m : CMat) (i : Nat) : Nat :=
  ((List.range m.length).drop i).foldl (fun b j => if fgt f64 (cabs64 (cent m j i)) (cabs64 (cent m b i)) then j else b) i

/-- The inverse by Gauss and Jordan with the greatest pivot of each column. -/
def cinv (m : CMat) : CMat :=
  let n := m.length
  let aug := (m.zip (cid n)).map fun r => r.1 ++ r.2
  ((List.range n).foldl (fun a i =>
    let p := pivotOf a i
    let a := setAt (setAt a p (nth a i [])) i (nth a p [])
    let lead := (nth a i []).map fun x => cdiv64 x (cent a i i)
    a.zipIdx.map fun r => if r.2 = i then lead else (r.1.zip lead).map fun x => csub64 x.1 (cmul64 (nth r.1 i czero) x.2)) aug).map
    fun r => r.drop n

/-- Eigenvalues with their columns of Ψ and rows of Ψ⁻¹, of a real matrix by rows; `none` where 30 n iterations do not suffice. -/
def eig64 (a : Mat) : Option (List (C64 × List C64 × List C64)) :=
  let n := a.length
  (qrRun n (30 * n) (a.map fun r => r.map fun x => (x, 0)) (cid n)).map fun tz =>
    let ys := (List.range n).map fun k => backSub tz.1 k k [(one64, 0)]
    let psi := tz.2.map fun row => ys.map fun y => csum ((row.zip y).map fun x => cmul64 x.1 x.2)
    let inv := cinv psi
    (List.range n).map fun k => (cent tz.1 k k, psi.map fun row => nth row k czero, nth inv k [])

end Sys2Proof.Machine
end

