-- ==== Sys2Proof/Machine/Oscillation.lean ====
section
/-! DEFINITION. The Oscillation Monitor: accumulation, identification, tracking, damping, forced oscillations and their location (R279 to R307). -/

namespace Sys2Proof.Machine

def osmEvent (k : Nat) (s : State) : State :=
  let up := newlySet s.osm.event s.osm.eventEn k
  let s := { s with osm := { s.osm with event := setBit s.osm.event k } }
  if up then raiseBlock 8 s else s
def osmCnt (k n : Nat) (s : State) : State := { s with osm := { s.osm with cnt := modAt s.osm.cnt k (satAdd · n) } }

/-! Fields of a set entry (R279) -/
def OsmSet.fd (e : OsmSet) (hi lo : Nat) : Nat := fld e.entry.toNat hi lo
def OsmSet.fLo (e : OsmSet) : Nat := to64 (e.fd 1023 992)
def OsmSet.fHi (e : OsmSet) : Nat := to64 (e.fd 991 960)
def OsmSet.svTh (e : OsmSet) : Nat := to64 (e.fd 959 928)
def OsmSet.matchHz (e : OsmSet) : Nat := to64 (e.fd 927 896)
def OsmSet.matchZ (e : OsmSet) : Nat := to64 (e.fd 895 864)
def OsmSet.forcedZ (e : OsmSet) : Nat := to64 (e.fd 863 832)
def OsmSet.forcedShare (e : OsmSet) : Nat := to64 (e.fd 831 800)
def OsmSet.windowS (e : OsmSet) : Nat := e.fd 799 789
def OsmSet.everyS (e : OsmSet) : Nat := e.fd 788 783
def OsmSet.phase (e : OsmSet) : Nat := e.fd 782 771
def OsmSet.locWin (e : OsmSet) : Nat := e.fd 770 764
def OsmSet.forcedHold (e : OsmSet) : Nat := e.fd 763 756
def OsmSet.confMin (e : OsmSet) : Nat := e.fd 755 748
def OsmSet.maxModes (e : OsmSet) : Nat := e.fd 747 741
def OsmSet.lags (e : OsmSet) : Nat := e.fd 740 735
def OsmSet.nRef (e : OsmSet) : Nat := e.fd 734 730
def OsmSet.nIn (e : OsmSet) : Nat := e.fd 729 719
def OsmSet.base (e : OsmSet) : Nat := e.fd 718 707
def OsmSet.system (e : OsmSet) : Nat := e.fd 706 703
def OsmSet.decim (e : OsmSet) : Nat := max 1 (e.fd 702 697)
def OsmSet.locate (e : OsmSet) : Bool := e.fd 696 696 = 1
def OsmSet.valid (e : OsmSet) : Bool := e.fd 695 695 = 1
/-- A field of band b: bits of R279 within its 160. -/
def OsmSet.band (e : OsmSet) (b hi lo : Nat) : Nat := e.fd (160 * b + hi) (160 * b + lo)
def OsmSet.bandEn (e : OsmSet) (b : Nat) : Bool := e.band b 0 0 = 1

/-- Samples of the input rate F / D in a number of seconds, rounded down. -/
def OsmSet.samplesIn (e : OsmSet) (f sec : Nat) : Nat := sec * f / e.decim
/-- WARMING: fewer than half a window's samples (R286). -/
def OsmSet.warming (e : OsmSet) (f : Nat) : Bool := decide (2 * e.samples * e.decim < e.windowS * f)
/-- f_o and λ in binary64 (R284). -/
def OsmSet.fo (e : OsmSet) (f : Nat) : Nat := fofRat f64 f e.decim
def lam64 (n d : Nat) : Nat := fsub f64 one64 (fdiv f64 one64 (fofRat f64 n d))
def OsmSet.lambda (e : OsmSet) (f : Nat) : Nat := lam64 (e.windowS * f) e.decim

/-- λ x + (1 - λ) v, each operation rounded. -/
def ema (lam x v : Nat) : Nat := a64 (m64 lam x) (m64 (fsub f64 one64 lam) v)

/-- A set after a reset (R286). -/
def OsmSet.clear (e : OsmSet) : OsmSet :=
  { e with
    samples := 0, mean := List.replicate e.nIn 0
    cov := List.replicate (2 * e.lags) (List.replicate e.nIn (List.replicate e.nRef 0))
    hist := [], vf := 0, tracks := [], nextId := 1, lastG := none, didReset := true, carry := false }

/-- One sample vector (R284). -/
def OsmSet.accumulate (e : OsmSet) (lam : Nat) (v : List (Option Nat)) : OsmSet :=
  let v := (List.range e.nIn).map fun j => nth v j none
  let d := (v.zip e.mean).map fun x => match x.1 with
    | some y => fsub f64 y x.2
    | none => 0
  let mean := (v.zip e.mean).map fun x => match x.1 with
    | some y => ema lam x.2 y
    | none => x.2
  let hist := (d.take e.nRef :: e.hist).take (2 * e.lags)
  let om := fsub f64 one64 lam
  let cov := e.cov.zipIdx.map fun rk =>
    let h := nth hist rk.2 []
    (rk.1.zip d).map fun row => row.1.zipIdx.map fun x => a64 (m64 lam x.1) (m64 (m64 om row.2) (nth h x.2 0))
  let good := (v.filter Option.isSome).length
  { e with mean := mean, hist := hist, cov := cov, vf := ema lam e.vf (fofRat f64 good (max 1 e.nIn)), samples := e.samples + 1 }

def OsmSet.missN (e : OsmSet) (lam : Nat) : Nat → OsmSet
  | 0 => e
  | k + 1 => (e.accumulate lam []).missN lam k

/-- VALID_FRAC as Q0.16, to the nearest and saturating (log 20). -/
def vfQ (vf : Nat) : Nat := satN 16 (ftoInt f64 (m64 vf (fofInt f64 65536))).toNat

/-! Identification (R288, R289) -/

/-- A candidate: f, ζ, e, shape. -/
structure Cand where
  f     : Nat
  z     : Nat
  e     : Nat
  share : Nat
  shape : List C64
  deriving DecidableEq, Repr

/-- H of step 1: block (a, b) is R_(a+b+1) on the reference rows. -/
def OsmSet.hankel (e : OsmSet) : Mat :=
  let n := e.lags * e.nRef
  (List.range n).map fun i => (List.range n).map fun j =>
    let rk := nth e.cov (i / e.nRef + j / e.nRef + 1) []
    nth (nth rk (i % e.nRef) []) (j % e.nRef) 0

/-- [R_1 … R_L], p rows. -/
def OsmSet.lagRow (e : OsmSet) : Mat :=
  (List.range e.nIn).map fun j => (List.range (e.lags * e.nRef)).map fun c =>
    nth (nth (nth e.cov (c / e.nRef + 1) []) j []) (c % e.nRef) 0

/-- [G, AG, …, A^(L-1) G] by rows. -/
def krylov (img : Dword) (a : Mat) (r : Nat) : Nat → Mat → List Mat
  | 0, _ => []
  | k + 1, g => g :: krylov img a r k (mulMat img a g r)

/-- Sum of products of a real and a complex list. -/
def cdot (img : Dword) (l : List (Nat × C64)) : C64 :=
  (dotIn img (l.map fun x => (x.1, x.2.1)), dotIn img (l.map fun x => (x.1, x.2.2)))

/-- Σ ψ_i γ_i, complex. -/
def ccdot (img : Dword) (l : List (C64 × C64)) : C64 :=
  (dotIn img ((l.map fun x => (x.1.1, x.2.1)) ++ (l.map fun x => (fneg f64 x.1.2, x.2.2))),
   dotIn img ((l.map fun x => (x.1.1, x.2.2)) ++ (l.map fun x => (x.1.2, x.2.1))))

/-- Steps 5 and 7 of one eigenvalue with Im μ > 0: its mode, of the shape of step 6. -/
def modeOf (img : Dword) (r fo : Nat) (c g : Mat) (x : C64 × List C64 × List C64) : Option Cand :=
  let (mu, psi, inv) := x
  if !(fgt f64 mu.2 0) then none else
  let re := m64 fo (ln64 (cabs64 mu))
  let im := m64 fo (arg64 mu.2 mu.1)
  let shape := c.map fun row => cdot img (row.zip psi)
  let gam : List C64 := (List.range r).map fun j => cdot img (inv.zipIdx.map fun y => (ent g y.2 j, y.1))
  some { f := d64 im (m64 two64 pi64), z := d64 (fneg f64 re) (cabs64 (re, im)),
         e := m64 two64 (cabs64 (ccdot img ((shape.take r).zip gam))), share := 0, shape := shape }

/-- Steps 1 to 7: model order and all modes; `none` an ID_FAIL. -/
def OsmSet.identify (e : OsmSet) (img : Dword) (f : Nat) : Option (Nat × List Cand) :=
  let r := e.nRef
  let tall := (e.lags - 1) * r
  let (sv, ok) := svd64 img (flipMat e.hankel (e.lags * r))
  if !ok then none else
  let s1 := (sv.headD (0, [], [])).1
  let no := min (min (sv.filter fun x => fge f64 x.1 (m64 e.svTh s1)).length tall) 128
  if no < 2 then some (no, []) else
  let half := (sv.take no).map fun x => (fsqrt f64 x.1, x.2.1, x.2.2)
  -- O by columns.
  let o := half.map fun x => x.2.1.map fun u => m64 u x.1
  let top := (svd64 img (o.map fun c => c.take tall)).1
  if (rankOf top).length < no then none else
  let a := mulMat img (pinvOf img tall no top) (flipMat (o.map fun c => c.drop r) tall) no
  let g := half.map fun x => (x.2.2.take r).map fun v => m64 x.1 v
  (eig64 a).map fun eigs =>
    let kry := krylov img a r e.lags g
    let wide : Mat := (List.range no).map fun i => kry.flatMap fun m => nth m i []
    -- The wide matrix by its transpose: its triples give the pseudo-inverse with the factors exchanged.
    let trip := (svd64 img wide).1.map fun t => (t.1, t.2.2, t.2.1)
    let c := mulMat img e.lagRow (pinvOf img no (e.lags * r) trip) no
    (no, eigs.filterMap (modeOf img r (e.fo f) c g))

/-- Insert by descending e, ties by lower f. -/
def insCand (c : Cand) : List Cand → List Cand
  | [] => [c]
  | d :: l => if fgt f64 c.e d.e || (feq f64 c.e d.e && flt f64 c.f d.f) then c :: d :: l else d :: insCand c l

/-- The candidates (R289). -/
def OsmSet.candidates (e : OsmSet) (l : List Cand) : List Cand :=
  let l := (l.filter fun c => fle f64 e.fLo c.f && fle f64 c.f e.fHi).foldl (fun a c => insCand c a) []
  let l := l.take e.maxModes
  let sum := l.foldl (fun a c => a64 a c.e) 0
  l.map fun c => { c with share := fdiv f64 c.e sum }

/-! Tracking (R290, R291) -/

def absDiff (x y : Nat) : Nat := fabs f64 (fsub f64 x y)

/-- The unmatched track a candidate matches. -/
def OsmSet.matchOf (e : OsmSet) (c : Cand) (ts : List Track) : Option Track :=
  ts.foldl (fun b t =>
    if !t.hit && fle f64 (absDiff t.f c.f) e.matchHz && fle f64 (absDiff t.z c.z) e.matchZ then
      match b with
      | none => some t
      | some u =>
        let dt := absDiff t.f c.f
        let du := absDiff u.f c.f
        if flt f64 dt du || (feq f64 dt du && decide (t.id < u.id)) then some t else some u
    else b) none

/-- CONFIDENCE (R291). -/
def confidence (vf : Nat) (t : Track) : Nat :=
  let q := fofRat f64 (vfQ vf) 65536
  let x := fdiv f64 (m64 (m64 (fdiv f64 (m64 (fofInt f64 255) (fofInt f64 (min t.age 8))) (fofInt f64 8)) q)
    (fofInt f64 (3 - t.misses))) (fofInt f64 3)
  (ffloorScaled f64 x 0).toNat

/-- Conditions of R294 on a matched track: `e0` is its e at the previous identification. -/
def OsmSet.forcedNow (e : OsmSet) (t : Track) (e0 : Option Nat) : Bool :=
  t.hit && fle f64 (fabs f64 t.z) e.forcedZ && fge f64 t.share e.forcedShare &&
    match e0 with
    | some x => fle f64 t.e (m64 (fofInt f64 2) x) && fle f64 x (m64 (fofInt f64 2) t.e)
    | none => false

/-- What an identification did, for counters and events: SET and RELEASE edges, new, lost, full, forced edges. -/
structure IdTally where
  set    : Nat
  rel    : Nat
  new    : Nat
  lost   : Nat
  full   : Nat
  fset   : Nat
  frel   : Nat
  deriving DecidableEq, Repr

def IdTally.zero : IdTally := ⟨0, 0, 0, 0, 0, 0, 0⟩

/-- One band of one track (R292); `gTm` is the identification's grid index. -/
def OsmSet.bandStep (e : OsmSet) (f gTm b : Nat) (t : Track) (x : BandSt) : BandSt × Nat × Nat :=
  if !(e.bandEn b) then (x, 0, 0) else
  let th := to64 (e.band b 95 64)
  let up := a64 th (to64 (e.band b 63 32))
  let inside := fle f64 (to64 (e.band b 159 128)) t.f && fle f64 t.f (to64 (e.band b 127 96))
  -- A track of an unmatched candidate was not matched (R290).
  let hit := t.hit && !t.new
  let elig := hit && inside && decide (e.confMin ≤ confidence e.vf t)
  if x.st then
    if hit && (fge f64 t.z up || !inside) then
      if e.band b 15 8 ≤ x.rel + 1 then (BandSt.reset, 0, 1) else ({ x with rel := x.rel + 1 }, 0, 0)
    else if elig && flt f64 t.z up then ({ x with rel := 0 }, 0, 0)
    else (x, 0, 0)
  else if elig && flt f64 t.z th then
    let g0 := x.below.getD gTm
    if e.band b 31 16 * f ≤ gTm - g0 then ({ st := true, below := some g0, rel := 0 }, 1, 0)
    else ({ x with below := some g0 }, 0, 0)
  else ({ x with below := none }, 0, 0)

/-- The bands of one track. -/
def OsmSet.bandsStep (e : OsmSet) (f gTm : Nat) (t : Track) : Track × Nat × Nat :=
  let l := t.bands.zipIdx.map fun x => e.bandStep f gTm x.2 t x.1
  ({ t with bands := l.map fun x => x.1 }, sumN (l.map fun x => x.2.1), sumN (l.map fun x => x.2.2))

/-- FORCED of one track (R294): the track, set edge, release edge. -/
def OsmSet.forcedStep (e : OsmSet) (t : Track) (e0 : Option Nat) : Track × Nat × Nat :=
  let ok := e.forcedNow t e0
  let n := if ok then t.forN + 1 else 0
  let m := if ok then 0 else t.forMiss + 1
  if t.forced then
    if 3 ≤ m then ({ t with forced := false, forN := n, forMiss := m }, 0, 1) else ({ t with forN := n, forMiss := m }, 0, 0)
  else if e.forcedHold ≤ n && ok then ({ t with forced := true, forN := n, forMiss := m }, 1, 0)
  else ({ t with forN := n, forMiss := m }, 0, 0)

/-- A new MODE_ID: the next one from 1 to 65,535 that no track uses. -/
def freeId (used : List Nat) : Nat → Nat → Nat
  | 0, n => n
  | k + 1, n => if used.contains n then freeId used k (if n = 65535 then 1 else n + 1) else n

/-- Matching and new tracks (R290): each candidate in order. Answers tracks, next ID, new, full. -/
def OsmSet.matchAll (e : OsmSet) : List Cand → List Track → Nat → Nat → Nat → List Track × Nat × Nat × Nat
  | [], ts, nid, n, fl => (ts, nid, n, fl)
  | c :: l, ts, nid, n, fl =>
    match e.matchOf c ts with
    | some t =>
      let t' := { t with f := c.f, z := c.z, e := c.e, share := c.share, shape := c.shape, age := min 255 (t.age + 1), misses := 0, hit := true }
      e.matchAll l (ts.map fun u => if u.id = t.id then t' else u) nid n fl
    | none =>
      if 64 ≤ ts.length then e.matchAll l ts nid n (fl + 1) else
      let id := freeId (ts.map Track.id) 64 nid
      let t : Track := ⟨id, c.f, c.z, c.e, c.share, c.shape, 1, 0, true, true, List.replicate 4 BandSt.reset, false, 0, 0⟩
      e.matchAll l (ts ++ [t]) (if id = 65535 then 1 else id + 1) (n + 1) fl

/-- Tracking, damping and FORCED of one identification that did not fail. Dropped tracks release what they hold. -/
def OsmSet.track (e : OsmSet) (f gTm : Nat) (cs : List Cand) : OsmSet × IdTally :=
  let old := e.tracks
  let (ts, nid, n, fl) := e.matchAll cs (old.map fun t => { t with hit := false }) e.nextId 0 0
  let ts := ts.map fun t => if t.hit then t else { t with misses := t.misses + 1 }
  let gone := ts.filter fun t => decide (3 ≤ t.misses)
  let kept := ts.filter fun t => decide (t.misses < 3)
  let stepped := kept.map fun t =>
    let (t, a, b) := e.bandsStep f gTm t
    let e0 := (old.find? fun (u : Track) => decide (u.id = t.id)).map Track.e
    let (t, c, d) := e.forcedStep t e0
    (t, a, b, c, d)
  let goneRel := sumN (gone.map fun t => (t.bands.filter BandSt.st).length)
  let goneFor := (gone.filter Track.forced).length
  ({ e with tracks := stepped.map fun x => x.1, nextId := nid },
   { set := sumN (stepped.map fun x => x.2.1), rel := sumN (stepped.map fun x => x.2.2.1) + goneRel, new := n, lost := gone.length, full := fl,
     fset := sumN (stepped.map fun x => x.2.2.2.1), frel := sumN (stepped.map fun x => x.2.2.2.2) + goneFor })

/-! Location (R295 to R298) -/

/-! Fields of a located-branch entry -/
def lbF (b : BitVec 128) (hi lo : Nat) : Nat := fld b.toNat hi lo
def lbSystem (b : BitVec 128) : Nat := lbF b 24 21
def lbValid (b : BitVec 128) : Bool := lbF b 20 20 = 1

def LocAcc.zero : LocAcc := ⟨czero, czero, czero, czero, 0⟩

/-- Entries of a slot: VALID ones of its set's system, with their table index. -/
def locEntries (o : Osm) (system : Nat) : List (Nat × BitVec 128) :=
  (o.located.zipIdx.filter fun b => lbValid b.1 && lbSystem b.1 = system).map fun b => (b.2, b.1)

/-- What location reads of a tick for every located branch (R297). -/
def locRead (o : Osm) (g : Nat) (view : List (Nat × EpVal)) : LocIn :=
  { g := g, vals := o.located.map fun b =>
      if !(lbValid b) then none else
      match lookupK view (lbF b 95 82) with
      | none => none
      | some v =>
        let a := nth v.vals (lbF b 81 74) nanSlot
        let i := nth v.vals (lbF b 73 66) nanSlot
        let fin := [re32 a, im32 a, re32 i, im32 i].all (fisFinite f32)
        if v.quality.getLsbD 2 || v.quality.getLsbD 3 || !fin || (feq f32 (re32 a) 0 && feq f32 (im32 a) 0) then none
        else some ((to64 (re32 a), to64 (im32 a)), (to64 (re32 i), to64 (im32 i))) }

/-- φ, exactly but for one rounding: 2π times the fractional part of f_L (g - g_L) / F. -/
def phi64 (fl : Nat) (n f : Nat) : Nat :=
  let q := (ratOf fl).getD 0 * (n : Rat) / (f : Rat)
  let x := q - (q.floor : Rat)
  m64 (m64 (fofInt f64 2) pi64) (fofRat f64 x.num x.den)

/-- X ← λ X + (1 - λ) 2 x e^(-jφ). -/
def demod (lam x c s : Nat) (acc : C64) : C64 :=
  let k := m64 (m64 (fsub f64 one64 lam) (fofInt f64 2)) x
  (a64 (m64 lam acc.1) (m64 k c), a64 (m64 lam acc.2) (m64 k (fneg f64 s)))

/-- One branch in one tick: the accumulator, and whether the sample was valid. -/
def locStep (lam f ks : Nat) (ph : Nat) (cur old : Option (C64 × C64)) (a : LocAcc) : LocAcc × Bool :=
  match cur, old with
  | some (v, i), some (v0, _) =>
    let k := to64 ks
    let vi := cmul64 v (cconj64 i)
    let ff := fofInt f64 f
    let dv := cmul64 v (cconj64 v0)
    let om := m64 ff (arg64 dv.2 dv.1)
    let l := m64 ff (fsub f64 (ln64 (cabs64 v)) (ln64 (cabs64 v0)))
    let c := cos64 ph
    let s := sin64 ph
    ({ p := demod lam (m64 k vi.1) c s a.p, q := demod lam (m64 k vi.2) c s a.q, w := demod lam om c s a.w,
       l := demod lam l c s a.l, frac := ema lam a.frac one64 }, true)
  | _, _ => ({ a with frac := ema lam a.frac 0 }, false)

/-- A slot processes one tick: the slot and the invalid samples. -/
def LocSlot.tick (s : LocSlot) (o : Osm) (f : Nat) (e : OsmSet) (prev : Option LocIn) (x : LocIn) : LocSlot × Nat :=
  let lam := lam64 (e.locWin * f) 1
  let ph := phi64 s.f (x.g - s.gL) f
  let old := match prev with
    | some p => if p.g + 1 = x.g then p.vals else []
    | none => []
  let r := ((locEntries o e.system).zip s.acc).map fun y =>
    locStep lam f (lbF y.1.2 127 96) ph (nth x.vals y.1.1 none) (nth old y.1.1 none) y.2
  ({ s with acc := r.map fun z => z.1, count := s.count + 1, last := x.g }, (r.filter fun z => !z.2).length)

/-- The valid fraction after m invalid samples. -/
def fracMiss (lam : Nat) : Nat → Nat → Nat
  | 0, x => x
  | k + 1, x => fracMiss lam k (ema lam x 0)

/-- The ticks from the slot's last one to g that it missed: all their samples are invalid, or, of more than a window, they restart the slot (R285).
Answers the slot, the invalid samples and whether it restarted. -/
def LocSlot.gap (s : LocSlot) (f : Nat) (e : OsmSet) (g : Nat) : LocSlot × Nat × Bool :=
  let m := g - s.last - 1
  if e.locWin * f < m then ({ s with gL := g, count := 0, acc := s.acc.map fun _ => LocAcc.zero }, 0, true) else
  let lam := lam64 (e.locWin * f) 1
  ({ s with acc := s.acc.map fun a => { a with frac := fracMiss lam m a.frac }, count := s.count + m }, m * s.acc.length, false)

/-- D of a branch (R298). -/
def LocAcc.d (a : LocAcc) : Nat :=
  let x := a64 (cmul64 a.p (cconj64 a.w)).1 (cmul64 a.q (cconj64 a.l)).1
  fdiv f64 x (fofInt f64 2)

/-- Insert a key and score by descending score, ties by lower key. -/
def insScore (e : Nat × Nat) : List (Nat × Nat) → List (Nat × Nat)
  | [] => [e]
  | x :: l => if fgt f64 e.2 x.2 || (feq f64 e.2 x.2 && decide (e.1 < x.1)) then e :: x :: l else x :: insScore e l

/-- OSM_LOCATION of a slot (R298, R306). -/
def LocSlot.units (s : LocSlot) (o : Osm) (f : Nat) (e : OsmSet) (num : Nat) (endd : Bool) (head : List (Nat × Nat × Nat)) (marks : Nat) :
    List Unit512 :=
  let warm := decide (s.count < e.locWin * f)
  let ent := locEntries o e.system
  let rows := (ent.zip s.acc).filter fun x => fge f64 x.2.frac (fofRat f64 1 2)
  let ds := rows.map fun x => (x.1.1, x.1.2, x.2.d, x.2.frac)
  let zones := (ent.flatMap fun x => [lbF x.2 48 37, lbF x.2 36 25]).foldl (fun a z => insertN z a) []
  let score := zones.map fun z => (z, ds.foldl (fun a x =>
    let mz := lbF x.2.1 48 37
    let oz := lbF x.2.1 36 25
    if mz = oz then a else if mz = z then a64 a x.2.2.1 else if oz = z then fsub f64 a x.2.2.1 else a) 0)
  let zs := if warm then [] else (score.foldl (fun a x => insScore x a) []).take 8
  let bs := if warm then [] else ((ds.map fun x => (x.1, x.2.2.1)).foldl (fun a x => insScore x a) []).take 16
  let u0 := unitOf (hdr 0x42 6 marks ++ head ++ [(384, 16, s.track), (352, 32, s.f), (320, 32, satN 32 s.count), (317, 3, s.set),
    (315, 2, num), (314, 1, b2n warm), (313, 1, b2n endd), (299, 14, if warm then 0 else ds.length)])
  let u1 := unitOf (zs.zipIdx.map fun x => (64 * x.2, 64, to32 x.1.2 * 2 ^ 32 + x.1.1 * 2 ^ 20 + 1))
  let lay := bs.zipIdx.map fun x =>
    let row := ds.find? fun d => d.1 = x.1.1
    let b := (row.map fun d => d.2.1).getD 0#128
    let fr := (row.map fun d => d.2.2.2).getD 0
    (x.2, packFields [(96, 32, to32 x.1.2), (83, 13, x.1.1), (66, 17, lbF b 65 49), (54, 12, lbF b 48 37), (42, 12, lbF b 36 25),
      (26, 16, vfQ fr), (0, 1, 1)])
  u0 :: u1 :: (List.range 4).map fun u => unitOf ((lay.filter fun x => x.1 / 4 = u).map fun x => (128 * (x.1 % 4), 128, x.2))

/-! Records (R303 to R307) -/

/-- The shape scaled so that its largest entry reads 1 + j0 (R305). -/
def scaleShape (l : List C64) : List Nat :=
  let big := l.foldl (fun b c => if fgt f64 (cabs64 c) (cabs64 b) then c else b) (l.headD czero)
  let n := a64 (m64 big.1 big.1) (m64 big.2 big.2)
  let k := (l.zipIdx.find? fun x => x.1 = big).map Prod.snd
  l.zipIdx.map fun x =>
    if some x.2 = k then to32 one64 else
    let c := cmul64 x.1 (cconj64 big)
    to32 (fdiv f64 c.1 n) + to32 (fdiv f64 c.2 n) * 2 ^ 32

/-- OSM_MODE of a track (R305). -/
def modeUnits (num : Nat) (e : OsmSet) (t : Track) (head : List (Nat × Nat × Nat)) (marks : Nat) : List Unit512 :=
  let us := packUnits 64 (scaleShape t.shape)
  unitOf (hdr 0x41 (1 + us.length) marks ++ head ++ [(384, 16, t.id), (352, 32, to32 t.f), (320, 32, to32 t.z), (288, 32, to32 t.e),
    (256, 32, to32 t.share), (248, 8, confidence e.vf t), (240, 8, t.age), (238, 2, t.misses),
    (234, 4, bitmap 4 fun b => (nth t.bands b BandSt.reset).st), (233, 1, b2n t.forced), (232, 1, b2n t.new),
    (231, 1, b2n (fgt f64 t.f (fofInt f64 4))), (228, 3, num), (217, 11, e.nIn)]) :: us

/-- Bits of a record that ID_DIGEST covers: the common header taken as 0 (R307). -/
def noHeader (l : List Unit512) : List Unit512 :=
  match l with
  | u :: r => ((u >>> 64) <<< 64) :: r
  | [] => []
def unitBytes (l : List Unit512) : List Byte := l.flatMap fun u => toLE 64 u.toNat
/-- Low 64 bits of SHA-256 over records (R307, R500), the digest read big-endian. -/
def digest64 (l : List (List Unit512)) : Nat := beNat ((sha256 ((l.map fun r => unitBytes (noHeader r)).flatten)).drop 24)

/-- Insert by ascending f, ties by lower MODE_ID (R303). -/
def insTrack (t : Track) : List Track → List Track
  | [] => [t]
  | u :: l => if flt f64 t.f u.f || (feq f64 t.f u.f && decide (t.id < u.id)) then t :: u :: l else u :: insTrack t l

/-- Outcome of an identification that was due. -/
inductive IdOut where
  | warming
  | failed
  | done (order : Nat)
  deriving DecidableEq, Repr

/-- The summary record of an identification: `modes` of them, the located slots `mine`, its digest. -/
def osmSummary (num modes order : Nat) (mine : List (Nat × LocSlot)) (warming failed : Bool) (e : OsmSet) (head : List (Nat × Nat × Nat))
    (marks dg : Nat) : Unit512 :=
  unitOf (hdr 0x40 1 marks ++ head ++ [(336, 64, dg), (304, 32, e.idSeq), (288, 16, vfQ e.vf),
    (272, 16, satN 16 e.dropped), (265, 7, modes), (257, 8, order), (253, 4, bitmap 4 fun k => mine.any fun x => x.1 = k),
    (250, 3, num), (246, 4, e.system), (240, 6, e.decim), (229, 11, e.windowS), (228, 1, b2n warming),
    (227, 1, b2n failed), (226, 1, b2n e.didReset)])

/-- TICK_SEQ and Tm of a record's tick. -/
def osmHead (f g seq : Nat) : List (Nat × Nat × Nat) := [(480, 32, seq), (432, 48, tmSec f g), (400, 32, tmNs f g)]

/-- Slots of a set, with their numbers. -/
def slotsOf (o : Osm) (num : Nat) : List (Nat × LocSlot) := o.slots.zipIdx.filterMap fun x => match x.1 with
  | some s => if s.set = num then some (x.2, s) else none
  | none => none

/-- The last OSM_LOCATION records of slots that a reset of their set frees, END set (R295; log 154). -/
def endRecords (o : Osm) (f num : Nat) (e : OsmSet) (head : List (Nat × Nat × Nat)) (marks : Nat) : List (Nat × List Unit512) :=
  (slotsOf o num).map fun x => (0x42, x.2.units o f e x.1 true head marks)

/-- The records of one identification in their order, ID_DIGEST included. `ends` names slots that end. -/
def osmRecords (o : Osm) (f num : Nat) (e : OsmSet) (out : IdOut) (head : List (Nat × Nat × Nat)) (marks : Nat) (ends : List Nat) :
    List (Nat × List Unit512) :=
  let modes := (e.tracks.foldl (fun a t => insTrack t a) []).map fun t => modeUnits num e t head marks
  let mine := slotsOf o num
  let locs := mine.map fun x => x.2.units o f e x.1 (ends.contains x.1) head marks
  let order := match out with
    | .done n => n
    | _ => 0
  let sum := fun (dg : Nat) => [osmSummary num modes.length order mine (decide (out = .warming)) (decide (out = .failed)) e head marks dg]
  let dg := digest64 (sum 0 :: (modes ++ locs))
  (0x40, sum dg) :: (modes.map fun u => (0x41, u)) ++ (locs.map fun u => (0x42, u))

/-! A set's update (R284 to R300) -/

/-- An identification is due at g (R287). -/
def OsmSet.idDue (e : OsmSet) (f g : Nat) : Bool :=
  decide (((g / e.decim : Int) - e.phase) % (max 1 (e.samplesIn f e.everyS) : Nat) = 0)

def osmSetOf (s : State) (k : Nat) : Option OsmSet := (lookupK s.osm.sets k).filter OsmSet.valid
def putSet (k : Nat) (e : OsmSet) (s : State) : State := { s with osm := { s.osm with sets := insertK s.osm.sets k e } }

/-- A set's conditions (R293). -/
def setConds (e : OsmSet) : Nat :=
  bitmap 8 fun b => if b < 4 then e.tracks.any fun t => (nth t.bands b BandSt.reset).st
    else decide (b = 4) && e.tracks.any Track.forced
def osmConds (s : State) : Nat := (List.range 8).foldl (fun a k => match osmSetOf s k with
  | some e => a + setConds e * 2 ^ (8 * k)
  | none => a) 0

/-- Free the slots of a set that no longer serve. -/
def freeSlots (p : LocSlot → Bool) (s : State) : State :=
  { s with osm := { s.osm with slots := s.osm.slots.map fun x => match x with
    | some l => if p l then none else some l
    | none => none } }

/-- A set is reset under R285 or by START or MAINT_EXIT (R286). -/
def resetSet (k : Nat) (e : OsmSet) (s : State) : State := freeSlots (fun l => l.set = k) (putSet k e.clear s)

/-- A FORCED track takes, keeps or restarts its slot (R295). -/
def slotFor (k g : Nat) (e : OsmSet) (s : State) (t : Track) : State :=
  let start := fun (i : Nat) (s : State) => osmCnt 10 1 { s with osm := { s.osm with slots := setAt s.osm.slots i (some
    { set := k, track := t.id, f := to32 t.f, gL := g + 1, last := g, count := 0, acc := (locEntries s.osm e.system).map fun _ => LocAcc.zero }) } }
  match s.osm.slots.zipIdx.find? fun x => match x.1 with
    | some l => l.set = k && l.track = t.id
    | none => false with
  | some (some l, i) =>
    if fgt f64 (absDiff t.f (to64 l.f)) (fdiv f64 (fofRat f64 1 2) (fofInt f64 e.locWin)) then start i s else s
  | _ =>
    match s.osm.slots.zipIdx.find? fun x => x.1.isNone with
    | some (_, i) => start i s
    | none => osmEvent 4 (osmCnt 11 1 s)

/-- Counters and events of an identification. -/
def tally (n : IdTally) (s : State) : State :=
  let s := osmCnt 6 n.new (osmCnt 7 n.lost (osmCnt 8 n.set (osmCnt 9 n.fset (osmCnt 14 n.full s))))
  let ev := fun (k c : Nat) (s : State) => if c = 0 then s else osmEvent k s
  ev 0 n.set (ev 1 n.rel (ev 2 n.fset (ev 3 n.frel (ev 7 n.new (ev 8 n.lost (ev 10 n.full s))))))

/-- The end of an identification: its records, what it leaves in the set, slots that end. -/
def finishId (k f : Nat) (head : List (Nat × Nat × Nat)) (marks : Nat) (e : OsmSet) (out : IdOut) (ends : List Nat) (s : State) :
    State × List (Nat × List Unit512) :=
  let recs := osmRecords s.osm f k e out head marks ends
  let e := { e with dropped := 0, didReset := false, tracks := match out with
    | .done _ => e.tracks.map fun t => { t with new := false }
    | _ => e.tracks }
  (freeSlots (fun l => l.set = k && !(e.tracks.any fun t => t.id = l.track && t.forced)) (putSet k e s), recs)

/-- Slots of a set whose track is forced no longer. -/
def endedSlots (k : Nat) (e : OsmSet) (s : State) : List Nat := s.osm.slots.zipIdx.filterMap fun x => match x.1 with
  | some l => if l.set = k && !(e.tracks.any fun t => t.id = l.track && t.forced) then some x.2 else none
  | none => none

/-- Modes that were found take effect: tracks, counts, slots of forced ones. -/
def takeModes (k g : Nat) (n : IdTally) (e : OsmSet) (s : State) : State :=
  let s := tally n (osmCnt 1 1 (putSet k e s))
  if e.locate then (e.tracks.filter Track.forced).foldl (slotFor k g e) s else s

/-- An identification by its outcome: order and candidates, or none found (R288 to R293). -/
def identifyBy (k g f : Nat) (head : List (Nat × Nat × Nat)) (marks : Nat) (e : OsmSet) (found : Option (Nat × List Cand)) (s : State) :
    State × List (Nat × List Unit512) :=
  match found with
  | none => finishId k f head marks { e with order := 0 } .failed [] (osmEvent 6 (osmCnt 2 1 s))
  | some (no, cs) =>
    let (e, n) := ({ e with order := no }).track f g (e.candidates cs)
    let s := takeModes k g n e s
    finishId k f head marks e (.done no) (endedSlots k e s) s

/-- The identification of set k for boundary g: state and records. -/
def identifySet (k g seq marks : Nat) (s : State) : State × List (Nat × List Unit512) :=
  match osmSetOf s k with
  | none => (s, [])
  | some e =>
    let f := frate s
    let head := osmHead f g seq
    let e := { e with idSeq := e.idSeq + 1, idTick := seq, carry := false }
    if e.warming f then finishId k f head marks { e with order := 0 } .warming [] (osmCnt 1 1 s)
    else identifyBy k g f head marks e (e.identify s.hif.digest f) s

/-- An update of set k with the inputs of one boundary (R284, R285, R287): state and records. -/
def updateSet (k : Nat) (x : OsmIn) (marks : Nat) (s : State) : State × List (Nat × List Unit512) :=
  match osmSetOf s k with
  | none => (s, [])
  | some e =>
    let f := frate s
    let lam := e.lambda f
    let m := match e.lastG with
      | some g0 => (x.g - g0) / e.decim - 1
      | none => 0
    let long := decide (e.windowS * f < m * e.decim)
    let ended := if long then endRecords s.osm f k e (osmHead f x.g x.seq) marks else []
    let s := if long then osmEvent 9 (osmCnt 13 1 (resetSet k e s)) else osmCnt 5 (m * e.nIn) s
    let e := if long then { e.clear with carry := e.carry } else e.missN lam m
    let e := { (e.accumulate lam x.vals) with lastG := some x.g }
    let bad := ((List.range e.nIn).filter fun j => (nth x.vals j none).isNone).length
    let s := osmCnt 0 1 (osmCnt 5 bad (putSet k e s))
    let (s, l) := if e.idDue f x.g || e.carry then identifySet k x.g x.seq marks s else (s, [])
    (s, ended ++ l)

/-- Inputs of set k at a boundary: output samples of the tick in progress (R283). -/
def osmInputs (s : State) (e : OsmSet) (g seq : Nat) : OsmIn :=
  { g := g, seq := seq, vals := (List.range e.nIn).map fun j =>
      match s.dfc.outs.find? fun o => o.chain = nth s.osm.inputs (e.base + j) 0 with
      | some o => if o.flags % 2 = 1 && o.flags / 64 % 2 = 0 then some (to64 o.value.toNat) else none
      | none => none }

/-- A set has a boundary at g (R283). -/
def osmBoundary (s : State) (k g : Nat) : Bool := match osmSetOf s k with
  | some e => decide (g % e.decim = 0)
  | none => false

def locActive (s : State) : Bool := s.osm.slots.any Option.isSome

/-- Location processes one tick in every active slot (R297). -/
def locationTick (x : LocIn) (s : State) : State :=
  let r := s.osm.slots.map fun o => match o with
    | none => (none, 0, false)
    | some l => match (osmSetOf s l.set).filter fun _ => decide (l.gL ≤ x.g) with
      | none => (some l, 0, false)
      | some e =>
        let (l, a, re) := l.gap (frate s) e x.g
        let (l, b) := l.tick s.osm (frate s) e s.osm.prev x
        (some l, a + b, re)
  osmCnt 10 (r.filter fun y => y.2.2).length <| osmCnt 12 (sumN (r.map fun y => y.2.1)) { s with osm := { s.osm with slots := r.map fun y => y.1, prev := some x } }

/-! Deferral (R300, R301) -/

/-- An update of set k is queued; a 17th drops the oldest, whose identification is carried. -/
def deferSet (k : Nat) (x : OsmIn) (s : State) : State :=
  match osmSetOf s k with
  | none => s
  | some e =>
    let s := osmCnt 3 1 s
    match e.queue with
    | o :: q =>
      if 16 ≤ e.queue.length then
        osmEvent 5 (osmCnt 4 1 (putSet k { e with queue := q ++ [x], dropped := e.dropped + 1, carry := e.carry || e.idDue (frate s) o.g } s))
      else putSet k { e with queue := e.queue ++ [x] } s
    | [] => putSet k { e with queue := [x] } s

/-- A tick's location is queued. -/
def deferLoc (x : LocIn) (s : State) : State :=
  let s := osmCnt 3 1 s
  if 16 ≤ s.osm.locQueue.length then
    osmEvent 5 (osmCnt 4 1 { s with osm := { s.osm with locQueue := s.osm.locQueue.drop 1 ++ [x] } })
  else { s with osm := { s.osm with locQueue := s.osm.locQueue ++ [x] } }

/-- An update of a tick was cancelled: an identification due in it is carried (R301). -/
def carryId (k g : Nat) (s : State) : State :=
  match osmSetOf s k with
  | some e => if e.idDue (frate s) g then putSet k { e with carry := true } s else s
  | none => s

/-- Queued updates are discarded (R301, MAINT_ENTER). -/
def dropQueues (s : State) : State :=
  let n := sumN (s.osm.sets.map fun e => e.2.queue.length) + s.osm.locQueue.length
  let s := { s with osm := { s.osm with
    sets := s.osm.sets.map fun e => (e.1, { e.2 with queue := [], dropped := e.2.dropped + e.2.queue.length })
    locQueue := [] } }
  if n = 0 then s else osmEvent 5 (osmCnt 4 n s)

/-- Every set is reset (START, MAINT_EXIT). -/
def resetSets (s : State) : State :=
  { s with osm := { s.osm with
    sets := s.osm.sets.map fun e => (e.1, e.2.clear)
    slots := [none, none, none, none], prev := none } }

end Sys2Proof.Machine
end

