-- ==== Sys2Proof/Machine/Separation.lean ====
section
/-! DEFINITION. The Separation Detector: topology islands, divergence clusters, declarations and their records (R314 to R325). -/

namespace Sys2Proof.Machine

/-! Fields of a zone entry (R317) -/
def Zone.fd (z : Zone) (hi lo : Nat) : Nat := fld z.entry.toNat hi lo
def Zone.system (z : Zone) : Nat := z.fd 64 61
def Zone.divOn (z : Zone) : Bool := z.fd 65 65 = 1 && z.fd 66 66 = 1

/-- A reference serves: PRESENT, not DATA_INVALID, not UNSYNC (R318). -/
def refOk (view : List (Nat × EpVal)) (ep : Nat) : Option EpVal :=
  (lookupK view ep).filter fun v => v.quality.getLsbD 0 && !(v.quality.getLsbD 2) && !(v.quality.getLsbD 3)

/-- What a zone takes from a tick (R318): f_z and δ_z, the reference and its voltage. -/
structure ZoneNow where
  f    : Option Word
  d    : Option Word
  alt  : Bool
  v    : Option Dword
  deriving DecidableEq, Repr

/-- A slot is finite and not zero. -/
def liveSlot (v : Dword) : Bool :=
  fisFinite f32 (re32 v) && fisFinite f32 (im32 v) && !(feq f32 (re32 v) 0 && feq f32 (im32 v) 0)

/-- δ_z of two voltages K ticks apart, rounded to binary32 (R318). -/
def driftOf (f k : Nat) (v w : Dword) : Word :=
  let c := cmul64 (to64 (re32 v), to64 (im32 v)) (cconj64 (to64 (re32 w), to64 (im32 w)))
  let a := m64 (fofInt f64 f) (arg64 c.2 c.1)
  BitVec.ofNat 32 (to32 (fdiv f64 a (m64 (m64 (fofInt f64 2) pi64) (fofInt f64 k))))

def zoneNow (f k g : Nat) (view : List (Nat × EpVal)) (z : Zone) : ZoneNow :=
  let pick := match refOk view (z.fd 127 114) with
    | some v => some (false, v, z.fd 113 106, z.fd 105 98)
    | none => if z.fd 67 67 = 0 then none else (refOk view (z.fd 97 84)).map fun v => (true, v, z.fd 83 76, z.fd 75 68)
  match pick with
  | none => ⟨none, none, false, none⟩
  | some (alt, v, fc, vc) =>
    let fz := re32 (nth v.vals fc nanSlot)
    let vz := nth v.vals vc nanSlot
    let old := z.hist.find? fun h => decide (h.g + k = g) && h.alt == alt
    let d := match old with
      | some h => if liveSlot vz && liveSlot h.v then some (driftOf f k vz h.v) else none
      | none => none
    ⟨if fisFinite f32 fz then some (BitVec.ofNat 32 fz) else none, d, alt, some vz⟩

/-! Divergence (R319) -/

def insVal (e : Nat × Word) : List (Nat × Word) → List (Nat × Word)
  | [] => [e]
  | x :: l => if flt f32 e.2.toNat x.2.toNat || (feq f32 e.2.toNat x.2.toNat && decide (e.1 < x.1)) then e :: x :: l else x :: insVal e l

/-- Two values differ by more than a threshold, exactly. -/
def apart (a b th : Word) : Bool :=
  match ratOf a.toNat, ratOf b.toNat, ratOf th.toNat with
  | some x, some y, some t => decide (t < x - y ∨ t < y - x)
  | _, _, _ => false

/-- Clusters of zones by one measure (R319, steps 1 and 2). -/
def clusterBy (th : Word) (l : List (Nat × Word)) : List (List Nat) :=
  let l := l.foldl (fun a e => insVal e a) []
  (l.foldl (fun (a : List (List Nat) × Option Word) e =>
    match a.1, a.2 with
    | c :: r, some w => if apart e.2 w th then ([e.1] :: c :: r, some e.2) else ((c ++ [e.1]) :: r, some e.2)
    | r, _ => ([e.1] :: r, some e.2)) ([], none)).1

/-- Join a set of zones with the sets it meets (R319, step 3). -/
def joinSet (c : List Nat) (l : List (List Nat)) : List (List Nat) :=
  let meets := l.filter fun x => x.any c.contains
  let rest := l.filter fun x => !(x.any c.contains)
  ((c :: meets).flatten.foldl (fun a z => insertN z a) []) :: rest

/-- Insert a set by its lowest zone. -/
def insSet (c : List Nat) : List (List Nat) → List (List Nat)
  | [] => [c]
  | x :: l => if c.headD 0 < x.headD 0 then c :: x :: l else x :: insSet c l

def sortSets (l : List (List Nat)) : List (List Nat) := l.foldl (fun a c => insSet c a) []

/-! One system of one tick -/

/-- What the SEP finds in a system (R316, R319). -/
structure SepFind where
  partition : Bool
  split     : Bool
  /-- Topology islands and zones that are DEAD. -/
  islands   : List (List Nat)
  dead      : List Nat
  /-- Qualifying clusters, and zones in none. -/
  clusters  : List (List Nat)
  loose     : List Nat
  deriving DecidableEq, Repr

/-- Topology of system k (R316): `lab` labels each bus with its component. -/
def topoFind (im : LseImage) (lab : List Nat) (zones : List Nat) (k : Nat) : Bool × Bool × List (List Nat) × List Nat :=
  let buses := im.buses.zipIdx.filter fun b => b.1.system = k
  let anch : List Nat := (buses.filter fun b => b.1.anchor).foldl (fun a b => insertN (nth lab b.2 0) a) []
  let home : Nat → Option Nat := fun z =>
    let mine := buses.filter fun b => b.1.zone = z
    match mine.find? fun b => b.1.anchor with
    | some b => some (nth lab b.2 0)
    | none => (mine.find? fun b => anch.contains (nth lab b.2 0)).map fun b => nth lab b.2 0
  let split := zones.any fun z =>
    decide (2 ≤ ((buses.filter fun b => b.1.zone = z && anch.contains (nth lab b.2 0)).foldl (fun a b => insertN (nth lab b.2 0) a) []).length)
  let islands := (anch.map fun (c : Nat) => zones.filter fun z => home z == some c).filter fun l => !l.isEmpty
  (decide (2 ≤ anch.length), split, sortSets islands, zones.filter fun z => (home z).isNone)

/-- Divergence of a system: qualifying clusters, and measured zones outside them. -/
def divFind (df dr : Word) (minZones : Nat) (now : List (Nat × ZoneNow)) : List (List Nat) × List Nat :=
  let fs := now.filterMap fun e => e.2.f.map fun w => (e.1, w)
  let ds := now.filterMap fun e => e.2.d.map fun w => (e.1, w)
  let all := (clusterBy df fs ++ clusterBy dr ds).foldl (fun a c => joinSet c a) []
  let q := sortSets (all.filter fun c => decide (minZones ≤ c.length))
  (q, (now.map Prod.fst).filter fun z => !(q.any fun c => c.contains z))

/-- Lower median of binary32 values. -/
def lowerMedian (l : List Word) : Option Word :=
  let l := (l.foldl (fun a w => insVal (a.length, w) a) []).map Prod.snd
  if l.isEmpty then none else some (nth l ((l.length - 1) / 2) 0#32)

/-! Records (R322 to R324) -/

/-- SEP_ISLAND (R324). -/
def islandUnits (head : List (Nat × Nat × Nat)) (k src num : Nat) (merged : Bool) (zones : List Nat) (now : List (Nat × ZoneNow)) (fnom : Nat) :
    List Unit512 :=
  let mine := now.filter fun e => zones.contains e.1
  let fs := mine.filterMap fun e => e.2.f
  let ds := mine.filterMap fun e => e.2.d
  let fq := match lowerMedian fs with
    | some w => w.toNat
    | none => match lowerMedian (ds.map fun w => BitVec.ofNat 32 (fadd f32 (fofRat f32 fnom 1000) w.toNat)) with
      | some w => w.toNat
      | none => nan32
  let dq := match lowerMedian ds with
    | some w => w.toNat
    | none => nan32
  unitOf (hdr 0x51 9 0 ++ head ++ [(396, 4, k), (393, 3, src), (385, 8, num), (384, 1, b2n merged), (371, 13, zones.length),
    (358, 13, (mine.filter fun e => e.2.f.isSome || e.2.d.isSome).length), (326, 32, fq), (294, 32, dq)]) ::
  (List.range 8).map fun u => unitOf ((zones.filter fun z => z / 512 = u).map fun z => (z % 512, 1, 1))

/-- Islands of a source numbered from 0; island 255 holds every remaining zone (R322). -/
def numbered (src : Nat) (l : List (List Nat)) : List (Nat × Nat × Bool × List Nat) :=
  ((l.take 255).zipIdx.map fun e => (src, e.2, false, e.1)) ++
    (if 255 < l.length then [(src, 255, true, (l.drop 255).flatten.foldl (fun a z => insertN z a) [])] else [])

/-- Islands to write, with their sources. -/
def sepIslands (x : SepFind) (declared : Bool) (out : List Nat) : List (Nat × Nat × Bool × List Nat) :=
  (if x.partition then numbered 0 x.islands else []) ++ (if declared then numbered 1 x.clusters else []) ++
  (if out.isEmpty then [] else [(2, 0, false, out)]) ++ (if x.partition && !x.dead.isEmpty then [(3, 0, false, x.dead)] else []) ++
  (if declared && !x.loose.isEmpty then [(4, 0, false, x.loose)] else [])

/-- KIND of a SEP_DECLARE. -/
inductive SepKind where
  | declare
  | update
  | clear
  | report
  deriving DecidableEq, Repr

def SepKind.code : SepKind → Nat
  | .declare => 0
  | .update => 1
  | .clear => 2
  | .report => 3

/-- One system's turn in a tick (R320 to R322): its new state, the records, the KIND written. -/
def sepSystem (k persist reportTicks fnom : Nat) (head : List (Nat × Nat × Nat)) (uncertain : Bool) (now : List (Nat × ZoneNow))
    (x : SepFind) (out : List Nat) (y : SepSys) : SepSys × List (Nat × List Unit512) × Option SepKind :=
  let part := decide (2 ≤ x.clusters.length)
  let c := if part = y.declared then 0 else y.count + 1
  let flip := decide (persist ≤ c)
  let declared := if flip then !y.declared else y.declared
  let sepn := x.partition || declared
  let outage := !out.isEmpty
  let isl := sepIslands x declared out
  let members := isl.map fun e => (e.1, e.2.2.2)
  let differs := decide (sepn ≠ y.separation ∨ outage ≠ y.outage ∨ x.partition ≠ y.topo ∨ declared ≠ y.div ∨ members ≠ y.members)
  let kind :=
    if differs then some (if sepn && !y.separation then SepKind.declare else if !sepn && y.separation then .clear else .update)
    else if (sepn || outage) && decide (reportTicks ≤ y.sinceRec + 1) then some .report
    else none
  match kind with
  | none => ({ y with count := if flip then 0 else c, declared := declared, sinceRec := y.sinceRec + 1 }, [], none)
  | some kd =>
    let isl := if kd = .clear then [] else isl
    let u := unitOf (hdr 0x50 1 0 ++ head ++ [(396, 4, k), (394, 2, kd.code), (393, 1, b2n sepn), (392, 1, b2n outage), (391, 1, b2n x.partition),
      (390, 1, b2n declared), (389, 1, b2n uncertain), (388, 1, b2n x.split), (384, 4, satN 4 c), (376, 8, satN 8 x.islands.length),
      (368, 8, satN 8 x.clusters.length), (355, 13, out.length), (345, 10, isl.length)])
    ({ separation := sepn, outage := outage, topo := x.partition, div := declared, members := members,
       count := if flip then 0 else c, declared := declared, sinceRec := 0 },
     (0x50, [u]) :: isl.map (fun e => (0x51, islandUnits head k e.1 e.2.1 e.2.2.1 e.2.2.2 now fnom)), some kd)

/-! The task (R325) -/

/-- Island number of a zone in a list of islands, 0xFF for none. -/
def islandOf (l : List (List Nat)) (z : Nat) : Nat := ((l.zipIdx.find? fun e => e.1.contains z).map Prod.snd).getD 0xFF

/-- What the SEP finds in system k of tick t. -/
def sepFind (s : State) (lab : Option (LseImage × List Nat)) (now : List (Nat × ZoneNow)) (k : Nat) : SepFind :=
  let zones := (s.sep.zones.filter fun z => z.2.system = k).map Prod.fst
  let (p, sp, isl, dead) := match lab with
    | some (im, l) => if im.buses.any fun b => b.system = k then topoFind im l zones k else (false, false, [], [])
    | none => (false, false, [], [])
  let mine := now.filter fun e => zones.contains e.1
  let (q, loose) := divFind s.sep.dfTh s.sep.drTh (fld s.sep.divCfg.toNat 5 0) mine
  { partition := p, split := sp, islands := isl, dead := dead, clusters := q, loose := loose }

/-- The SEP task of tick t: state and records (R316 to R325). -/
def sepTask (t : Tick) (s : State) : State × List (Nat × List Unit512) :=
  let f := frate s
  let k := fld s.sep.divCfg.toNat 19 16
  let now := (s.sep.zones.filter fun z => z.2.divOn).map fun z => (z.1, zoneNow f k t.g t.view z.2)
  let lab := s.lse.sec.map fun im => (im, components im t.bind.inService fun _ => true)
  let head := [(480, 32, t.seq), (432, 48, tmSec f t.g), (400, 32, tmNs f t.g)]
  let found := (List.range 16).map fun j => sepFind s lab now j
  let outs := fun (j : Nat) => s.sep.outSample.filter fun z => zoneSystem s z = j
  let res := (found.zip s.sep.systems).zipIdx.map fun e =>
    sepSystem e.2 (fld s.sep.divCfg.toNat 11 8) (fld s.sep.repTicks.toNat 15 0) (nth s.ing.fnom e.2 0) head t.bind.uncertain
      (now.filter fun z => zoneSystem s z.1 = e.2) e.1.1 (outs e.2) e.1.2
  let systems := res.map fun r => r.1
  let zones := s.sep.zones.map fun z =>
    let x := nth found z.2.system ⟨false, false, [], [], [], []⟩
    let n := (lookupK now z.1).getD ⟨none, none, false, none⟩
    let hist := match n.v with
      | some v => ({ g := t.g, alt := n.alt, v := v } :: z.2.hist).take 16
      | none => z.2.hist
    (z.1, { z.2 with hist := hist, f := n.f, d := n.d, alt := n.alt, topo := islandOf x.islands z.1, div := islandOf x.clusters z.1 })
  let kinds := res.filterMap fun r => r.2.2
  let decl := (kinds.filter (· = .declare)).length
  let clr := (kinds.filter (· = .clear)).length
  let was := s.sep.outNow
  let outNow := bitmap 16 fun j => !(outs j).isEmpty
  let rose := (List.range 16).any fun j => outNow.testBit j && !(was.testBit j)
  let fell := (List.range 16).any fun j => !(outNow.testBit j) && was.testBit j
  let anyP := found.any SepFind.partition
  let anyD := found.any fun x => decide (2 ≤ x.clusters.length)
  let anyS := found.any SepFind.split
  let s := { s with sep := { s.sep with
    zones := zones, systems := systems
    sepNow := bitmap 16 fun j => let x := nth found j ⟨false, false, [], [], [], []⟩
                                 x.partition || (nth systems j SepSys.reset).declared
    outNow := outNow
    topoNow := bitmap 16 fun j => (nth found j ⟨false, false, [], [], [], []⟩).partition } }
  let s := sepCnt 0 1 (sepCnt 1 (b2n anyP) (sepCnt 2 (b2n anyD) (sepCnt 3 decl (sepCnt 4 clr (sepCnt 5 (b2n anyS)
    (sepCnt 6 (now.filter fun e => e.2.v.isNone).length s))))))
  let ev := fun (b : Bool) (k : Nat) (s : State) => if b then sepEvent k s else s
  let s := ev (decide (0 < decl)) 0 (ev (decide (0 < clr)) 1 (ev anyP 2 (ev anyD 3 (ev anyS 4 (ev rose 5 (ev fell 6 s))))))
  (s, res.flatMap fun r => r.2.1)

end Sys2Proof.Machine
end

