-- ==== Sys2Proof/Machine/Spdu.lean ====
section
/-! DEFINITION. UDP datagrams and IEC 61850-90-5 SPDUs that the module originates (R106, R131, R344, R345). -/

namespace Sys2Proof.Machine

/-! Time in frames (R345) -/

/-- UtcTime of a grid point: seconds, 24-bit fraction, TimeQuality (R345, R106). -/
def utcOfTick (s : State) (t : Tick) : Nat :=
  let f := frate s
  let sec := ((tmSec f t.g : Int) - utcOffset s).toNat
  let frac := (t.g % f) * 2 ^ 24 / f
  let (_, v, _, _) := utcInfo s
  packFields [(32, 32, sec), (8, 24, frac), (7, 1, b2n v), (6, 1, b2n t.suspect), (5, 1, b2n t.unlocked), (0, 5, t.tq.acc)]

/-- Lengths and checksums of a UDP datagram over IP, filled in over the whole frame (R131). -/
def fillUdp (l : List Byte) : List Byte :=
  let o := ethOff l
  let v6 := etherType l = 0x86DD
  let hl := if v6 then 40 else 4 * (beAt l o 1 % 16)
  let n := l.length - o - hl
  let l := if v6 then patch l (o + 4) (toBE 2 n) else patch (patch l (o + 2) (toBE 2 (n + hl))) (o + 10) [0#8, 0#8]
  let l := if v6 then l else patch l (o + 10) (toBE 2 (ipSum (sub l o hl)))
  let l := patch (patch l (o + hl + 4) (toBE 2 n)) (o + hl + 6) [0#8, 0#8]
  let pseudo := (if v6 then sub l (o + 8) 32 else sub l (o + 12) 8) ++ toBE 4 17 ++ toBE 4 n
  let c := ipSum (pseudo ++ sub l (o + hl) n)
  patch l (o + hl + 6) (toBE 2 (if c = 0 then 0xFFFF else c))

/-! SPDUs: their octets up to the signature are those of the standard (log 12) -/

def spduBytes (o : SpduOut) (n : Nat) : List Byte := (List.range n).map (Config.spduOctet o.session o)

/-- The signature: none, or a 128-bit tag of HMAC-SHA-256 or AES-128-GMAC (R344). -/
def signature (auth : Nat) (key : List Byte) (o : SpduOut) (l : List Byte) : List Byte :=
  match auth with
  | 0 => []
  | 1 => (hmac256 key (l.drop Config.signedFrom)).take 16
  | _ => gmac (key.take 16) (Config.spduIv o) (l.drop Config.signedFrom)

def TxFrame.spdu (o : SpduOut) (bytes : List Byte) : TxFrame := { TxFrame.plain bytes with body := .spdu o bytes }

/-- The address of port p's interface in the family of a destination. -/
def srcFor (dst p : Nat) (s : State) : Nat :=
  ((nth s.ing.ifaces p []).find? fun a => isV4 a == isV4 dst).getD 0

/-- Header of a group's frames from destination address to UDP checksum, lengths and checksums 0: the next-hop address, the destination, port 102
(R344). It has groupHeadLen octets. -/
def groupHead (g : GroupSec) (p : Nat) (s : State) : List Byte :=
  let hf := fun (n k : Nat) => toBE n (Config.headerField k).toNat
  let src := srcFor g.dstIp p s
  let ip := if isV4 g.dstIp then
      toBE 2 0x0800 ++ toBE 1 0x45 ++ hf 1 0 ++ toBE 2 0 ++ hf 2 1 ++ toBE 2 ((Config.headerField 5).toNat % 2 * 2 ^ 14) ++ hf 1 2 ++ toBE 1 17 ++
        toBE 2 0 ++ toBE 4 src ++ toBE 4 g.dstIp
    else
      toBE 2 0x86DD ++ toBE 4 (packFields [(28, 4, 6), (20, 8, (Config.headerField 0).toNat), (0, 20, (Config.headerField 3).toNat)]) ++ toBE 2 0 ++
        toBE 1 17 ++ hf 1 2 ++ toBE 16 src ++ toBE 16 g.dstIp
  toBE 6 g.hopMac ++ toBE 6 (portOf s p).mac ++ ip ++ hf 2 4 ++ toBE 2 102 ++ toBE 4 0

end Sys2Proof.Machine
end

