-- ==== Sys2Proof/Machine/Bell.lean ====
section
/-! DEFINITION. The Alarm Arbiter, the Bell: conditions, limits, rules, instances, ALM balls, alarm frames and records (R331 to R348). -/

namespace Sys2Proof.Machine

def alaEvent (k : Nat) (s : State) : State :=
  let up := newlySet s.ala.event s.ala.eventEn k
  let s := { s with ala := { s.ala with event := setBit s.ala.event k } }
  if up then raiseBlock 9 s else s
def alaCnt (k n : Nat) (s : State) : State := { s with ala := { s.ala with cnt := modAt s.ala.cnt k (satAdd · n) } }

/-! The module's part in a pair (R490) -/

/-- The module sends frames and takes descriptors: unpaired, SOLO or ACTIVE. -/
def emits (s : State) : Bool := s.pair.st ≠ .syncing && s.pair.st ≠ .standby
/-- The module is paired in the present run. -/
def inPair (s : State) : Bool := s.pair.st ≠ .unpaired
def yokeUp (s : State) : Bool := s.pair.lane0 || s.pair.lane1
def yokeSend (m : YokeOut) (s : State) : State := if yokeUp s then emitOut (.yoke m) s else s

/-! Conditions (R331) -/

/-- Value of a condition. -/
def condVal (c : Conds) (id : Nat) : Bool :=
  if id < 0x2000 then c.dfc.contains id
  else if id < 0x2040 then c.osm.testBit (id - 0x2000)
  else if id < 0x2110 then c.sep.testBit (id - 0x2100)
  else if id < 0x2120 then c.out.testBit (id - 0x2110)
  else if id < 0x2125 then c.fixed.testBit (id - 0x2120)
  else c.lims.contains (id - 0x2400)
/-- IDs the table names. -/
def condKnown (id : Nat) : Bool :=
  decide (id < 0x2040) || decide (0x2100 ≤ id ∧ id < 0x2125) || decide (0x2400 ≤ id ∧ id < 0x2800)
/-- Decided at D2; revisable. -/
def condD2 (id : Nat) : Bool := decide (0x2000 ≤ id ∧ id < 0x2040) || decide (0x2121 ≤ id)
def condRev (id : Nat) : Bool := decide (id = 0x2121 ∨ id = 0x2123 ∨ id = 0x2124) || decide (0x2400 ≤ id)
/-- The limit a condition is, if it is one. -/
def condLimit (id : Nat) : Option Nat := if 0x2400 ≤ id then some (id - 0x2400) else none

/-! LSE limits (R332, R333) -/

/-- The value a limit watches, binary64. -/
def limitValue (l : BitVec 128) (r : LseRes) : Nat :=
  let k := fld l.toNat 63 61
  let i := fld l.toNat 58 43
  let fl := nth r.flows i ⟨nan32, nan32, nan32, false, false⟩
  match k with
  | 0 => let v := nth r.x i (nan32, nan32); cabs64 (to64 v.1, to64 v.2)
  | 1 => to64 fl.p
  | 2 => to64 fl.q
  | 3 => to64 fl.i
  | _ => cabs64 (to64 fl.p, to64 fl.q)

/-- One limit's next state (R333). -/
def limitStep (l : BitVec 128) (st : Bool) (v : Nat) : Bool :=
  let level := to64 (fld l.toNat 127 96)
  let hyst := to64 (fld l.toNat 95 64)
  if fisNan f64 v then st
  else if fld l.toNat 60 60 = 0 then
    if st then !(flt f64 v (fsub f64 level hyst)) else fgt f64 v level
  else
    if st then !(fgt f64 v (a64 level hyst)) else flt f64 v level

/-- Limits in state 1 after a result, from those before it. -/
def limitsAfter (a : Ala) (before : List Nat) (r : LseRes) : List Nat :=
  (a.limits.filter fun l => fld l.2.toNat 59 59 = 1 && limitStep l.2 (before.contains l.1) (limitValue l.2 r)).map Prod.fst

/-- Fixed conditions that a result revises: CHI_FAIL, UNOBSERVABLE, BAD_DATA. -/
def fixedOf (r : LseRes) : Nat :=
  packFields [(1, 1, b2n (decide (r.chi = 2))), (3, 1, b2n (!r.unobZones.isEmpty)), (4, 1, b2n (!r.removals.isEmpty))]

/-- Conditions after a result: revisable ones from the states before it. -/
def revisedConds (a : Ala) (before c : Conds) (r : LseRes) : Conds :=
  { c with fixed := (c.fixed &&& 5) + fixedOf r, lims := limitsAfter a before.lims r }

/-! Rules (R334, R335) -/

def ruleF (r : BitVec 256) (hi lo : Nat) : Nat := fld r.toNat hi lo
def ruleValid (r : BitVec 256) : Bool := ruleF r 163 163 = 1
/-- Condition IDs used, OP0 first. -/
def ruleOps (r : BitVec 256) : List Nat :=
  (List.range (ruleF r 187 186 + 1)).map fun i => ruleF r (255 - 16 * i) (240 - 16 * i)
def ruleDecide (r : BitVec 256) : Bool := (ruleOps r).any condD2
def ruleRevisable (r : BitVec 256) : Bool := (ruleOps r).any condRev
/-- Operand values as a number, bit i operand i. -/
def opBits (l : List Bool) : Nat := bitmap 4 fun i => nth l i false

/-- The rule value from its operand values (R335). -/
def ruleEval (r : BitVec 256) (ops : Nat) : Bool :=
  let n := ruleF r 187 186 + 1
  let c := ((List.range n).filter fun i => ops.testBit i != (ruleF r 191 188).testBit i).length
  match ruleF r 185 184 with
  | 0 => decide (0 < c)
  | 1 => decide (c = n)
  | _ => decide (ruleF r 183 182 + 1 ≤ c)

def ruleOf (s : State) (k : Nat) : BitVec 256 := (lookupK s.ala.rules k).getD 0#256
def rulesWhere (s : State) (p : BitVec 256 → Bool) : List (Nat × BitVec 256) := s.ala.rules.filter fun r => ruleValid r.2 && p r.2
def opsOf (r : BitVec 256) (c : Conds) : Nat := opBits ((ruleOps r).map (condVal c))
/-- Prior limit states of the limit operands. -/
def priorOf (r : BitVec 256) (before : Conds) : Nat :=
  opBits ((ruleOps r).map fun id => match condLimit id with
    | some j => before.lims.contains j
    | none => false)
/-- INFO: FLAGS of the DFC operands (R335). -/
def infoOf (s : State) (r : BitVec 256) : Nat :=
  (ruleOps r).foldl (fun a id => if id < 0x2000 then a ||| (lookupK s.ala.info (id / 2)).getD 0 else a) 0

/-! ALM balls (R340 to R343) -/

def Pin.hold (p : Pin) : Nat := fld p.cfg.toNat 5 4
def Pin.safeOn (p : Pin) : Bool := bitOf p.cfg 1
/-- The driven level, true high. -/
def Pin.level (p : Pin) : Bool := p.asserted == bitOf p.cfg 0
def followMin : Nat := 10000000 * fr

/-- Rules that name ball k and have value 1. -/
def holders (s : State) (k : Nat) : List Nat := s.ala.values.filter fun r => (ruleF (ruleOf s r) 179 172).testBit k

/-- A ball is to be asserted (R33, R341, R490). -/
def pinWanted (s : State) (k : Nat) (p : Pin) : Bool :=
  if s.sys.runState ≠ .run then p.safeOn
  else if s.pair.st = .syncing then false
  else match p.hold with
    | 0 => p.latched
    | 1 => s.ala.active.any fun i => i.conf && (ruleF (ruleOf s i.rule) 179 172).testBit k
    | 2 => !(holders s k).isEmpty || (p.asserted && decide (s.tbu.free < p.at_ + followMin))
    | _ => false

/-- A ball takes its level. -/
def Pin.drive (now : Nat) (w : Bool) (p : Pin) : Pin :=
  let q := { p with asserted := w, at_ := if w && !p.asserted then now else p.at_ }
  { q with driven := q.level, changed := if q.level = p.driven then p.changed else some now }

/-- Every ball takes its level. -/
def drivePins (s : State) : State :=
  { s with ala := { s.ala with pins := s.ala.pins.zipIdx.map fun x => x.1.drive s.tbu.free (pinWanted s x.2 x.1) } }

def pinState (s : State) : Nat := bitmap 8 fun k => (nth s.ala.pins k Pin.reset).asserted

/-! Alarm frames (R344 to R346) -/

/-- A group's dataset now: BOOLEAN, validity, UtcTime. -/
def datasetOf (s : State) (g : Group) : List (Bool × Nat × Nat) :=
  g.sec.rules.map fun r =>
    let safe := decide (s.sys.runState = .safe)
    if s.ala.values.contains r then
      match s.ala.active.find? fun i => i.rule = r with
      | some i => (true, if safe then 1 else if i.conf then 0 else 3, i.utc)
      | none => (true, if safe then 1 else 0, s.ala.lastUtc)
    else (false, if safe then 1 else 0, s.ala.lastUtc)

/-- Two datasets differ: BOOLEAN or Quality, or the time of a rule that is 1; a rule's time at 0 follows each decision and is no change by
itself (DEDUCED, log 21). The first member that differs. -/
def dataChange : List (Bool × Nat × Nat) → List (Bool × Nat × Nat) → Option (Bool × Nat × Nat)
  | a :: l, b :: m =>
    if a.1 ≠ b.1 ∨ a.2.1 ≠ b.2.1 ∨ (b.1 ∧ a.2.2 ≠ b.2.2) then some b else dataChange l m
  | [], b :: _ => some b
  | _, [] => none

def modGroup (k : Nat) (f : Group → Group) (s : State) : State := { s with ala := { s.ala with groups := modAt s.ala.groups k f } }
def retxMs (s : State) : Nat := fld s.ala.retx.toNat 15 0

/-- A group's slot signs its frames: it has none, or the slot is VALID, of the type of AUTH, and carries ALARM_TX (R464, R469). -/
def groupSigns (s : State) (g : Group) : Bool :=
  let x := slotOfKey s g.sec.slot
  g.sec.auth = 0 || (x.st = .valid && x.typ = g.sec.auth && x.usage.testBit 1)

/-- The instant of a group's next transmission. -/
def setNext (k : Nat) (s : State) : State := modGroup k (fun g => { g with nextAt := some (s.tbu.free + g.every * 1000000 * fr) }) s

/-- What the group's next frame says. -/
def groupSpdu (k : Nat) (g : Group) (s : State) : SpduOut :=
  .goose { group := k, gocbRef := g.sec.gocbRef, datSet := g.sec.datSet, goId := g.sec.goId, confRev := g.sec.confRev, auth := g.sec.auth
           keyId := (slotOfKey s g.sec.slot).keyId, spdu := g.spdu, stNum := g.stNum, sqNum := g.sqNum, ttl := 3 * g.every, t := g.t, data := g.data }

/-- Its frame on a port (R131, R344). -/
def groupFrame (k : Nat) (g : Group) (p : Nat) (s : State) : TxFrame :=
  let o := groupSpdu k g s
  let l := spduBytes o g.sec.len
  TxFrame.spdu o (fillUdp (groupHead g.sec p s ++ l ++ signature g.sec.auth (slotOfKey s g.sec.slot).val o l))

/-- Hand a group's frame to the express queue of each of its ports (R344, R346); a pair of PRP ports gets its two copies once (R133). -/
def handGroup (k : Nat) (g : Group) (s : State) : State :=
  let frame := fun (p : Nat) => groupFrame k g p s
  let s := alaCnt 6 1 (modGroup k (fun g => { g with spdu := (g.spdu + 1) % 2 ^ 32 }) (setNext k s))
  (List.range 4).foldl (fun s p =>
    if g.sec.ports.testBit p && !(paired s p && decide (p % 2 = 1) && g.sec.ports.testBit (p - 1)) then handFrame p true (frame p) s else s) s

/-- A group's frame falls due: it is sent, or its slot refuses and it is counted in SIGN_REFUSED (R469, R486). -/
def sendGroup (k : Nat) (s : State) : State :=
  match s.ala.groups[k]? with
  | none => s
  | some g => if groupSigns s g then handGroup k g s else kstEvent 6 (kstCnt 5 1 (setNext k s))

/-- A new stNum with the dataset as it is (R346); a FRAME_MARK goes first (R497). The frame that entry to SAFE sends is not reported. -/
def newState (k st : Nat) (t : Nat) (s : State) : State :=
  match s.ala.groups[k]? with
  | none => s
  | some g =>
    let s := modGroup k (fun g => { g with stNum := st % 2 ^ 32, sqNum := 0, t := t, data := datasetOf s g, every := min 2 (retxMs s) }) s
    let s := if inPair s && s.sys.runState ≠ .safe then yokeSend (.frameMark k (st % 2 ^ 32)) s else s
    if g.sec.rules.isEmpty then s else sendGroup k s

/-- Groups whose dataset changed send; a standby only keeps the dataset (R344). -/
def refreshGroup (k : Nat) (s : State) : State :=
  match s.ala.groups[k]? with
  | none => s
  | some g =>
    match dataChange g.data (datasetOf s g) with
    | none => s
    | some m => if emits s then newState k (g.stNum + 1) m.2.2 s else modGroup k (fun g => { g with data := datasetOf s g }) s

def refreshGroups (s : State) : State := (List.range 8).foldl (fun s k => refreshGroup k s) s

/-- A retransmission falls due (R346). -/
def groupRetx (k : Nat) (s : State) : State :=
  match s.ala.groups[k]? with
  | none => s
  | some g =>
    match g.nextAt with
    | none => s
    | some t =>
      if s.tbu.free < t ∨ !(emits s) then s else
      let s := modGroup k (fun g => { g with every := min (2 * g.every) (retxMs s) }) s
      if groupSigns s g then alaCnt 7 1 (sendGroup k (modGroup k (fun g => { g with sqNum := (g.sqNum + 1) % 2 ^ 32 }) s)) else sendGroup k s

/-- Entry to SAFE: each group sends one frame with every Quality invalid (R346, R506). -/
def invalidFrames (s : State) : State :=
  if !(emits s) then s else
  (List.range s.ala.groups.length).foldl (fun s k =>
    match s.ala.groups[k]? with
    | some g => newState k (g.stNum + 1) (((dataChange g.data (datasetOf s g)).map fun m => m.2.2).getD s.ala.lastUtc) s
    | none => s) s

/-! Alarm records (R348) -/

/-- The four alarm records. -/
inductive AlarmTyp where
  | set
  | release
  | confirm
  | retract
  deriving DecidableEq, Repr

def AlarmTyp.code : AlarmTyp → Nat
  | .set => 0x60
  | .release => 0x61
  | .confirm => 0x62
  | .retract => 0x63

/-- One alarm event, of event tick `g`. -/
structure AEv where
  typ     : AlarmTyp
  inst    : Inst
  g       : Nat
  seq     : Nat
  ops     : Nat
  rev     : Nat
  cause   : Nat
  reissue : Nat
  deriving DecidableEq, Repr

/-- The record of an event (R348) but for marks of its tick; `pins` is PIN_STATE. -/
def alarmUnits (s : State) (e : AEv) (marks pins : Nat) : List Unit512 :=
  let i := e.inst
  let r := ruleOf s i.rule
  [unitOf (hdr e.typ.code 1 marks ++ [(480, 32, i.id), (448, 32, i.seq), (400, 48, tmSec (frate s) i.g), (368, 32, tmNs (frate s) i.g),
    (336, 32, e.seq), (327, 9, i.rule), (325, 2, ruleF r 181 180), (324, 1, b2n i.conf), (323, 1, b2n i.dec2), (319, 4, e.ops),
    (315, 4, i.prior), (311, 4, e.rev), (310, 1, b2n ((e.typ = .confirm || e.typ = .retract) && i.released)), (308, 2, e.cause),
    (276, 32, e.reissue), (268, 8, pins), (264, 4, i.info)])]

/-- The OSM conditions of a set. -/
def osmOperand (k id : Nat) : Bool := decide (0x2000 + 8 * k ≤ id ∧ id < 0x2008 + 8 * k)

/-- Marks of an event tick; DEFERRED where D2 took the condition of an operand from a deferred identification (R293). -/
def eventMarks (s : State) (e : AEv) : Nat :=
  ((tickOf s e.g).map Tick.marks).getD s.ala.lastMarks |||
    (if (e.typ = .set || e.typ = .release) && e.cause ≠ 2 &&
        (ruleOps (ruleOf s e.inst.rule)).any (fun id => s.osm.deferMark.any fun k => osmOperand k id) then markDeferred else 0)

/-- The Bell's local part of a tick digest: SET and RELEASE of cause 0, PIN_STATE taken as 0 (R500). -/
def AEv.inDigest (e : AEv) : Bool := (e.typ = .set || e.typ = .release) && e.cause = 0

/-- Keep a record for the digest of the tick in progress (R500). -/
def keepDigest (typ : Nat) (us : List Unit512) (s : State) : State :=
  if !(inPair s) then s else
  match s.tkx.cur with
  | some c => { s with tkx := { s.tkx with cur := some { c with dig := c.dig ++ [(typ, us)] } } }
  | none => s

/-- A ring received a record of the tick in progress (R60). -/
def noteRing (n seq : Nat) (s : State) : State :=
  match s.tkx.cur with
  | some c => if c.seq = seq && !(c.rings.contains n) then { s with tkx := { s.tkx with cur := some { c with rings := c.rings ++ [n] } } } else s
  | none => s

/-- Write one event's record and count it. -/
def writeAlarm (s : State) (e : AEv) : State :=
  let us := alarmUnits s e (eventMarks s e) (pinState s)
  let s := if e.inDigest then keepDigest e.typ.code (alarmUnits s e (eventMarks s e) 0) s else s
  let s := match ringSel s.ala.outRing with
    | some n => handRec n e.typ.code us none (some e.seq) (noteRing n e.seq s)
    | none => s
  match e.typ with
  | .set =>
    let s := alaEvent 0 (alaCnt 0 1 s)
    if e.cause = 1 then alaEvent 4 (alaCnt 4 1 s) else if e.cause = 2 then alaCnt 10 1 s else s
  | .release => alaEvent 1 (alaCnt 1 1 s)
  | .confirm => let s := alaEvent 2 (alaCnt 2 1 s)
                if e.cause = 1 then alaEvent 5 (alaCnt 5 1 s) else s
  | .retract => alaEvent 3 (alaCnt 3 1 s)

/-- A SET latches the LATCH balls its rule names (R341). -/
def latchPins (evs : List AEv) (s : State) : State :=
  let mask := evs.foldl (fun m e => if e.typ = .set then m ||| ruleF (ruleOf s e.inst.rule) 179 172 else m) 0
  { s with ala := { s.ala with pins := s.ala.pins.zipIdx.map fun x => { x.1 with latched := x.1.latched || mask.testBit x.2 } } }

/-- The outcome of a set of events: balls and records (R338: balls are judged after all of them); frames follow when the cycle ends (R346). -/
def publish (evs : List AEv) (s : State) : State := evs.foldl writeAlarm (drivePins (latchPins evs s))

/-! Instances (R335 to R337) -/

/-- A tick is FINAL. -/
def isFinal (s : State) (g : Nat) : Bool := match tickOf s g with
  | some t => t.st = .final
  | none => decide (g < s.aln.next)

def nextAlarmId (n : Nat) : Nat := if n = 0xFFFFFFFF then 1 else n + 1

/-- A rule's instance begins: state and event. -/
def setRule (k : Nat) (t : Tick) (dec2 : Bool) (ops prior cause rev reissue : Nat) (s : State) : State × AEv :=
  let r := ruleOf s k
  let i : Inst := { id := s.ala.nextId, rule := k, g := t.g, seq := t.seq, dec2 := dec2, ops := ops, prior := prior,
                    conf := !(ruleRevisable r) || isFinal s t.g, released := false, info := infoOf s r, utc := utcOfTick s t }
  ({ s with ala := { s.ala with
      values := insertN k s.ala.values, active := s.ala.active ++ [i], nextId := nextAlarmId s.ala.nextId } },
   { typ := .set, inst := i, g := t.g, seq := t.seq, ops := ops, rev := rev, cause := cause, reissue := reissue })

/-- An ended SPECULATIVE instance waits in the table; a full table confirms its oldest (R336). -/
def keepEnded (i : Inst) (g seq : Nat) (s : State) : State × List AEv :=
  match s.ala.ended with
  | o :: r =>
    if 4096 ≤ s.ala.ended.length then
      let o := { o with conf := true }
      ({ s with ala := { s.ala with ended := r ++ [i] } },
       [{ typ := .confirm, inst := o, g := g, seq := seq, ops := o.ops, rev := 0, cause := 1, reissue := 0 }])
    else ({ s with ala := { s.ala with ended := s.ala.ended ++ [i] } }, [])
  | [] => ({ s with ala := { s.ala with ended := [i] } }, [])

/-- A rule's active instance ends by RELEASE (R335), with the operand values and the INFO of the evaluation that releases it (R348, log 34). -/
def releaseRule (k g seq ops cause rev : Nat) (s : State) : State × List AEv :=
  let s0 := { s with ala := { s.ala with values := s.ala.values.filter (· ≠ k), active := s.ala.active.filter fun i => i.rule ≠ k } }
  match s.ala.active.find? fun i => i.rule = k with
  | none => (s0, [])
  | some i =>
    let i := { i with released := true }
    let e : AEv := { typ := .release, inst := { i with info := infoOf s (ruleOf s k) }, g := g, seq := seq, ops := ops, rev := rev, cause := cause,
                     reissue := 0 }
    if i.conf then (s0, [e]) else
    let (s1, l) := keepEnded i g seq s0
    (s1, e :: l)

/-- A rule's active instance is retracted (R337). -/
def retractRule (k g seq ops rev : Nat) (s : State) : State × List AEv :=
  let s0 := { s with ala := { s.ala with values := s.ala.values.filter (· ≠ k), active := s.ala.active.filter fun i => i.rule ≠ k } }
  match s.ala.active.find? fun i => i.rule = k with
  | none => (s0, [])
  | some i => (s0, [{ typ := .retract, inst := i, g := g, seq := seq, ops := ops, rev := rev, cause := 0, reissue := 0 }])

/-- One rule's evaluation at a decision (R335). -/
def evalRule (t : Tick) (dec2 : Bool) (before : Conds) (a : State × List AEv) (x : Nat × BitVec 256) : State × List AEv :=
  let ops := opsOf x.2 a.1.ala.conds
  let v := ruleEval x.2 ops
  let was := a.1.ala.values.contains x.1
  if v && !was then
    let (s, e) := setRule x.1 t dec2 ops (priorOf x.2 before) 0 0 0 a.1
    (s, a.2 ++ [e])
  else if !v && was then
    let (s, l) := releaseRule x.1 t.g t.seq ops 0 0 a.1
    (s, a.2 ++ l)
  else a

/-- The latest decision's tick (R345). -/
def noteDecision (t : Tick) (s : State) : State :=
  { s with ala := { s.ala with lastG := t.g, lastSeq := t.seq, lastUtc := utcOfTick s t } }

/-- INFO bits of a chain's FLAGS (R348). -/
def infoBits (flags : Nat) : Nat :=
  packFields [(3, 1, flags / 2 ^ 12), (2, 1, flags / 2 ^ 6), (1, 1, flags / 2 ^ 7), (0, 1, flags / 2 ^ 2)]

/-- Threshold conditions that are 1 (R240). -/
def dfcConds (s : State) : List Nat :=
  s.dfc.chains.flatMap fun c =>
    (if c.2.upperEn && c.2.upper.st then [2 * c.1] else []) ++ (if c.2.lowerEn && c.2.lower.st then [2 * c.1 + 1] else [])

/-- D1 of a tick (R48, R335): `dfc` where all of its DFC tasks completed; else threshold conditions stay (R56). The SEP's are those of its last
completed task. -/
def decideD1 (t : Tick) (dfc : Bool) (s : State) : State :=
  let before := s.ala.conds
  let s := noteDecision t { s with ala := { s.ala with
    conds := { before with dfc := if dfc then dfcConds s else before.dfc, sep := s.sep.sepNow, out := s.sep.outNow,
                           fixed := (before.fixed &&& 0x1E) + b2n t.suspect }
    info := if dfc then s.dfc.chains.map fun c => (c.1, infoBits c.2.flags) else s.ala.info } }
  let (s, evs) := (rulesWhere s fun r => !(ruleDecide r)).foldl (evalRule t false before) (s, [])
  publish evs s

/-- D2 of a tick (R48, R333, R335): `res` is the tick's completed result, none where the LSE did not complete; `osm` where none of its OSM
updates was cancelled, else OSM conditions stay (R56). -/
def decideD2 (t : Tick) (res : Option LseRes) (osm : Bool) (s : State) : State :=
  let before := s.ala.conds
  let c := match res with
    | some r => { revisedConds s.ala before before r with
        fixed := (before.fixed &&& 1) + fixedOf r + 4 * b2n t.bind.approx }
    | none => before
  let c := if osm then { c with osm := osmConds s } else c
  let s := noteDecision t { s with ala := { s.ala with
    conds := c, lastD2 := some { g := t.g, seq := t.seq, before := before, after := c } } }
  let (s, evs) := (rulesWhere s ruleDecide).foldl (evalRule t true before) (s, [])
  let s := publish evs s
  { s with osm := { s.osm with deferMark := if osm then [] else s.osm.deferMark } }

/-! Revisions (R337) -/

/-- A rule re-evaluated where D2 of the revised tick is the latest. -/
def reviseRule (t : Tick) (rev : Nat) (d : D2Rec) (a : State × List AEv) (x : Nat × BitVec 256) : State × List AEv :=
  let ops := opsOf x.2 d.after
  let v := ruleEval x.2 ops
  let was := a.1.ala.values.contains x.1
  if v && !was then
    let (s, e) := setRule x.1 t true ops (priorOf x.2 d.before) 2 rev 0 a.1
    (s, a.2 ++ [e])
  else if !v && was then
    let mine := a.1.ala.active.any fun i => i.rule = x.1 && i.g = t.g && !i.conf
    let (s, l) := if mine then retractRule x.1 t.g t.seq ops rev a.1 else releaseRule x.1 t.g t.seq ops 2 rev a.1
    (s, a.2 ++ l)
  else a

/-- Operand values of an instance with the revisable ones from a result, limits from their stored prior states. -/
def revisedOps (a : Ala) (i : Inst) (r : BitVec 256) (res : LseRes) : Nat :=
  opBits ((ruleOps r).zipIdx.map fun x =>
    if !(condRev x.1) then i.ops.testBit x.2 else
    match condLimit x.1 with
    | some j => limitStep ((lookupK a.limits j).getD 0#128) (i.prior.testBit x.2) (limitValue ((lookupK a.limits j).getD 0#128) res)
    | none => (fixedOf res).testBit (x.1 - 0x2120))

/-- An earlier tick's instance re-evaluated: retracted, and an active one issued again. -/
def reviseInst (t : Tick) (rev : Nat) (res : LseRes) (a : State × List AEv) (i : Inst) : State × List AEv :=
  let s := a.1
  let r := ruleOf s i.rule
  let ops := revisedOps s.ala i r res
  if ruleEval r ops then a else
  let ev : AEv := { typ := .retract, inst := i, g := t.g, seq := t.seq, ops := ops, rev := rev, cause := 0, reissue := 0 }
  if i.released then ({ s with ala := { s.ala with ended := s.ala.ended.filter fun e => e.id ≠ i.id } }, a.2 ++ [ev])
  else
    let s := { s with ala := { s.ala with active := s.ala.active.filter fun e => e.id ≠ i.id } }
    match s.ala.lastD2 with
    | none => (s, a.2 ++ [ev])
    | some d =>
      let t2 := (tickOf s d.g).getD { newTick d.g with seq := d.seq, st := .final }
      let (s, e) := setRule i.rule t2 true (opsOf r d.after) (priorOf r d.before) 1 0 i.id s
      (s, a.2 ++ [ev, e])

/-- Revision `rev` of tick t completes with a result (R337). -/
def reviseAlarms (t : Tick) (rev : Nat) (res : LseRes) (s : State) : State :=
  match s.ala.lastD2 with
  | none => s
  | some d =>
    if d.g = t.g then
      let after := revisedConds s.ala d.before d.after res
      let s := { s with ala := { s.ala with
        conds := { s.ala.conds with fixed := (s.ala.conds.fixed &&& 5) + fixedOf res, lims := after.lims }
        lastD2 := some { d with after := after } } }
      let (s, evs) := (rulesWhere s ruleDecide).foldl (reviseRule t rev { d with after := after }) (s, [])
      publish evs s
    else
      let mine := (s.ala.active ++ s.ala.ended).filter fun i => i.g = t.g && !i.conf
      let (s, evs) := mine.foldl (reviseInst t rev res) (s, [])
      publish evs s

/-- The origin tick of instances becomes FINAL (R336). -/
def confirmAlarms (t : Tick) (s : State) : State :=
  let hit := fun (i : Inst) => i.g = t.g && !i.conf
  let l := ((s.ala.active ++ s.ala.ended).filter hit).map fun i => { i with conf := true }
  if l.isEmpty then s else
  let s := { s with ala := { s.ala with
    active := s.ala.active.map fun i => if hit i then { i with conf := true } else i
    ended := s.ala.ended.filter fun i => !(hit i) } }
  publish (l.map fun i => { typ := .confirm, inst := i, g := t.g, seq := t.seq, ops := i.ops, rev := 0, cause := 0, reissue := 0 }) s

/-- MAINT_ENTER: every active instance ends, every rule is 0, latches clear (R339). -/
def endAlarms (s : State) : State :=
  let evs := s.ala.active.map fun i => ({ typ := .release, inst := { i with released := true }, g := s.ala.lastG, seq := s.ala.lastSeq, ops := i.ops,
                                          rev := 0, cause := 1, reissue := 0 } : AEv)
  let s := { s with ala := { s.ala with
    values := [], active := [], ended := [], pins := s.ala.pins.map fun p => { p with latched := false } } }
  publish evs s

/-- A LATCH ball is cleared and takes its level; no other ball is touched (R343). -/
def unlatch (k : Nat) (s : State) : State :=
  let off := fun (p : Pin) => { p with latched := false }.drive s.tbu.free (pinWanted s k { p with latched := false })
  { s with ala := { s.ala with pins := modAt s.ala.pins k off } }

/-- A write to ALA_PIN_CLEAR (R343). -/
def pinClear (mask : Nat) (s : State) : State :=
  (List.range 8).foldl (fun s k =>
    if mask.testBit k && (nth s.ala.pins k Pin.reset).hold = 0 then
      if (holders s k).isEmpty then unlatch k s else alaEvent 6 (alaCnt 8 1 s)
    else s) s

/-- The 10 ms minimum of FOLLOW ball k has ended: it follows its rules again (R341). -/
def pinFollow (k : Nat) (s : State) : State :=
  let p := nth s.ala.pins k Pin.reset
  if p.hold = 2 && p.asserted && decide (p.at_ + followMin ≤ s.tbu.free) then drivePins s else s

end Sys2Proof.Machine
end

