-- ==== Sys2Proof/Machine/Mailbox.lean ====
section
/-! DEFINITION. Mailboxes: queues, messages, acknowledgement timers, locks (R396 to R409). -/

namespace Sys2Proof.Machine

def mbxEvent (k : Nat) (s : State) : State :=
  let up := newlySet s.mbx.event s.mbx.eventEn k
  let s := { s with mbx := { s.mbx with event := setBit s.mbx.event k } }
  if up then raiseBlock 14 s else s

/-- MBX_CNT counts channels 0 to 3 (R408). -/
def mbxCnt (c k : Nat) (s : State) : State :=
  if 4 ≤ c then s else { s with mbx := { s.mbx with cnt := modAt s.mbx.cnt k (satAdd · 1) } }

def chanOf (s : State) (c : Nat) : MChan := nth s.mbx.chans c MChan.reset
def modChan (c : Nat) (f : MChan → MChan) (s : State) : State :=
  { s with mbx := { s.mbx with chans := modAt s.mbx.chans c f } }
def MChan.dir (m : MChan) (back : Bool) : MDir := if back then m.back else m.fwd
def modDir (c : Nat) (back : Bool) (f : MDir → MDir) (s : State) : State :=
  modChan c (fun m => if back then { m with back := f m.back } else { m with fwd := f m.fwd }) s

/-- Three cycles of the slower side, CTRL, in 2^-16 ns (R176). -/
def mbxLag : Nat := 5 * fr
/-- The longest a gated CTRL domain hides a word from its core (R403). -/
def mbxWake : Nat := 20000 * fr

/-- An instant after now, open up to a bound (log 2). -/
def drawAfter (bound : Nat) (s : State) : Nat × State :=
  let (k, s) := drawFree s
  (s.tbu.free + (Config.freeBits k).toNat % (bound + 1), s)

/-- Places that a pop freed and the writer does not see yet. -/
def MDir.unseen (d : MDir) (now : Nat) : Nat := (d.freed.filter fun t => decide (now < t)).length
/-- Free entries as the writer sees them (R398). -/
def MDir.space (d : MDir) (now : Nat) : Nat := 8 - (d.q.length + d.unseen now)
/-- Words the reader sees. -/
def MDir.level (d : MDir) (now : Nat) : Nat := (d.q.takeWhile fun w => decide (w.at_ ≤ now)).length

/-- A word is stored: message position and timer (R400, R402). -/
def pushWord (c : Nat) (back : Bool) (w : Word) (lag : Nat) (s : State) : State :=
  let d := (chanOf s c).dir back
  let head := decide (d.left = 0)
  let ask := head && bitOf w 31
  let (t, s) := drawAfter lag s
  let now := s.tbu.free
  let s := if ask && d.timer.isSome then mbxCnt c 3 s else s
  modDir c back (fun d =>
    { d with
      q := d.q ++ [⟨w, t⟩]
      freed := d.freed.filter fun t => decide (now < t)
      left := if head then fld w.toNat 30 28 else d.left - 1
      timer := if ask then some ⟨fld w.toNat 15 0, now⟩ else d.timer }) s

/-- A host write to MBX_H2C_DATA; one to a full queue is a Completer Abort of AER (R398). -/
def h2cWrite (c : Nat) (w : Word) (s : State) : State :=
  if 4 ≤ c then s
  else if (chanOf s c).fwd.space s.tbu.free = 0 then
    let s := { s with hif := { s.hif with advisory := true, abort := some (0xE0100 + c * 0x20) } }
    mbxEvent (8 + c) (mbxCnt c 0 (modChan c (fun m => { m with reject := true }) s))
  else pushWord c false w mbxWake s

/-- The Yoke carries a word of channels 10 to 13 in order (R488). -/
def mbxCarry (c : Nat) (w : Word) (s : State) : State :=
  if s.pair.lane0 || s.pair.lane1 then emitOut (.yoke (.mbxWord c w)) s else s

/-- The Yoke comes up: the words that wait are carried. -/
def mbxYokeUp (s : State) : State :=
  [10, 11, 12, 13].foldl (fun s c => (chanOf s c).fwd.q.foldl (fun s w => mbxCarry c w.word s) s) s

/-- A core pushes a word; a full queue answers with a bus error (R398). A host-bound queue that fills from empty sets C2H_DATA (R404). -/
def corePush (c : Nat) (back : Bool) (w : Word) (s : State) : State :=
  let d := (chanOf s c).dir back
  if 14 ≤ c ∨ (c < 4 ∧ back = false) then s
  else if d.space s.tbu.free = 0 then emitOut (.busError c back) s else
  let s := pushWord c back w (if c < 4 then mbxLag else mbxWake) s
  if c < 4 then (if d.q.isEmpty then mbxEvent c s else s)
  else if 10 ≤ c ∧ back = false then mbxCarry c w s
  else s

/-- Pop the head word where the reader sees one; its place shows to the writer within 3 cycles (R398). -/
def popWord (c : Nat) (back : Bool) (s : State) : Option Word × State :=
  let d := (chanOf s c).dir back
  match d.q with
  | w :: q =>
    if w.at_ ≤ s.tbu.free then
      let (t, s) := drawAfter mbxLag s
      (some w.word, modDir c back (fun d => { d with q := q, freed := d.freed ++ [t] }) s)
    else (none, s)
  | [] => (none, s)

/-- A host read of MBX_C2H_DATA (R399). -/
def c2hRead (c : Nat) (s : State) : State :=
  if 4 ≤ c then s else
  match popWord c true s with
  | (some w, s) => { s with readData := w }
  | (none, s) => mbxEvent 16 (modChan c (fun m => { m with underrun := true }) { s with readData := 0#32 })

/-- A core pops a word. -/
def corePop (c : Nat) (back : Bool) (s : State) : State :=
  if c < 4 ∧ back then s else
  match popWord c back s with
  | (some w, s) => { s with readData := w }
  | (none, s) => s

/-- An acknowledgement of a direction is written (R401, R402). -/
def ackWrite (c : Nat) (back : Bool) (v : Word) (s : State) : State :=
  let s := match ((chanOf s c).dir back).timer with
    | some t =>
      if t.seq = fld v.toNat 31 16 then modDir c back (fun d => { d with timer := none }) s else mbxCnt c 2 s
    | none => s
  modDir c back (fun d => { d with ack := v }) s

/-- A host write to MBX_C2H_ACK. -/
def c2hAck (c : Nat) (v : Word) (s : State) : State := if 4 ≤ c then s else ackWrite c true v s

/-- A core acknowledges; of a host message it sets ACK_IN (R401). -/
def coreAck (c : Nat) (back : Bool) (v : Word) (s : State) : State :=
  if 14 ≤ c ∨ (c < 4 ∧ back) then s else
  let s := ackWrite c back v s
  if c < 4 then mbxEvent (4 + c) s else s

/-- MBX_ACK_TIMEOUT in ms. -/
def ackMs (s : State) : Nat := fld s.mbx.timeout.toNat 15 0

/-- The timer of a direction has run out (R402). It is recorded after the cycle of its expiry: an acknowledgement written in that cycle wins. -/
def mbxTimeout (c : Nat) (back : Bool) (s : State) : State :=
  match ((chanOf s c).dir back).timer with
  | none => s
  | some t =>
    if s.tbu.free ≤ t.at_ + ackMs s * 1000000 * fr then s else
    let s := mbxCnt c 1 (modDir c back (fun d => { d with timer := none }) s)
    let s := if c < 4 then mbxEvent (12 + c) (modChan c (fun m => { m with timeout := true }) s) else s
    logEv 0x30 14 0 (argOf [(284, 4, c), (283, 1, b2n back), (267, 16, t.seq)]) s

/-- A read of MBX_LOCK[k] by the host, 0, or a core, 1 to 4 (R406). -/
def lockRead (k reader : Nat) (s : State) : State :=
  match nth s.mbx.locks k none with
  | some o => { s with readData := wordOf [(3, 1, 1), (0, 3, o)] }
  | none =>
    if 16 ≤ k then { s with readData := 0#32 } else
    { s with mbx := { s.mbx with locks := setAt s.mbx.locks k (some reader) }, readData := wordOf [(31, 1, 1), (3, 1, 1), (0, 3, reader)] }

/-- A write of 1 to RELEASE frees the lock, whoever writes. -/
def lockRelease (k : Nat) (v : Word) (s : State) : State :=
  if bitOf v 0 then { s with mbx := { s.mbx with locks := setAt s.mbx.locks k none } } else s

/-- MBX_STAT[c] (R409). -/
def mbxStat (s : State) (c : Nat) : Word :=
  let m := chanOf s c
  wordOf [(10, 1, b2n m.timeout), (9, 1, b2n m.reject), (8, 1, b2n m.underrun), (4, 4, m.fwd.space s.tbu.free),
    (1, 3, min 7 (m.back.level s.tbu.free)), (0, 1, b2n m.fwd.timer.isSome)]

/-- Clear sticky bits of MBX_STAT[c]. -/
def mbxStatClear (c : Nat) (v : Word) (s : State) : State :=
  modChan c (fun m => { m with timeout := m.timeout && !(bitOf v 10), reject := m.reject && !(bitOf v 9),
                               underrun := m.underrun && !(bitOf v 8) }) s

/-- A write to MBX_STAT[c] clears the bits written 1, but for those this cycle set (R6). -/
def mbxStatWrite (c : Nat) (v : Word) (s : State) : State :=
  let m := v &&& mbxStat s.began c
  onPrior (mbxStatClear c m) (mbxStatClear c m s)

/-- A restart of core k empties its queues and disarms its timers (R430). Channel pairs 4 to 9 are numbered 01, 02, 03, 12, 13, 23
(PRESUMED, log 22). -/
def coreChans (k : Nat) : List Nat :=
  k :: (10 + k) :: ([(0, 1), (0, 2), (0, 3), (1, 2), (1, 3), (2, 3)].zipIdx.filter fun x => x.1.1 = k || x.1.2 = k).map fun x => 4 + x.2

def clearChan (m : MChan) : MChan :=
  { m with fwd := { MDir.reset with ack := m.fwd.ack }, back := { MDir.reset with ack := m.back.ack } }
def restartCore (k : Nat) (s : State) : State := (coreChans k).foldl (fun s c => modChan c clearChan s) s

/-- The Yoke is lost: its channels are emptied (R488). -/
def mbxYokeLost (s : State) : State :=
  [10, 11, 12, 13].foldl (fun s c => modChan c (fun m => { m with
    fwd := { m.fwd with q := [], freed := [], left := 0 }, back := { m.back with q := [], freed := [], left := 0 } }) s) s

end Sys2Proof.Machine
end

