-- ==== Sys2Proof/Machine/Faults.lean ====
section
/-! DEFINITION. The Fault Collector: classes, reactions, restarts, SAFE, FAULT_N, first error, history, merging, escalation (R426 to R446, R454). -/

namespace Sys2Proof.Machine

/-! Tables (R426 to R428, R509) -/

/-- Codes of the tables of R428 and R509. -/
def faultCodes : List Nat := (List.range 0x17).drop 1 ++ [0x30, 0x31, 0x32, 0x33]

/-- The domain a code always has; none where the word or the datapath decides. -/
def homeDomain : Nat → Option Nat
  | 0x06 => some 4
  | 0x07 => some 10
  | 0x08 => some 7
  | 0x09 => some 11
  | 0x0A => some 11
  | 0x0B => some 2
  | 0x0D => some 5
  | 0x0E => some 10
  | 0x10 => some 10
  | 0x11 => some 12
  | 0x12 => some 13
  | 0x13 => some 0
  | 0x14 => some 0
  | 0x15 => some 0
  | 0x16 => some 0
  | 0x30 => some 15
  | 0x31 => some 15
  | 0x32 => some 15
  | 0x33 => some 15
  | _ => none

/-- Class code of a fault in a domain (R426, R428). -/
def classOf (code dom : Nat) : Nat :=
  if code = 1 ∨ code = 3 ∨ code = 0x30 then 1
  else if code = 5 then (if [0, 1, 10, 11, 13].contains dom then 3 else 2)
  else if code = 9 ∨ code = 0x0A ∨ (0x0C ≤ code ∧ code ≤ 0x0F) ∨ (0x13 ≤ code ∧ code ≤ 0x16) then 3
  else 2

/-- Reactions (R429), by their code in the record. -/
def rCorrect : Nat := 0
def rDiscard : Nat := 1
def rMark : Nat := 2
def rRestart : Nat := 3
def rSafe : Nat := 4

/-- The reaction R428 gives a code. A key cell's effect is marked as R473 gives, the master root restarts KST. -/
def reactionFor (x : FaultIn) (dom : Nat) : Nat :=
  if classOf x.code dom = 3 then rSafe else
  match x.code with
  | 0x01 => rCorrect
  | 0x03 => rCorrect
  | 0x30 => rCorrect
  | 0x04 => if x.region ≠ .other ∨ dom = 1 then rDiscard else rRestart
  | 0x06 => rDiscard
  | 0x02 => rRestart
  | 0x05 => rRestart
  | 0x08 => rRestart
  | 0x11 => rRestart
  | 0x12 => if x.detail = 0x100 then rRestart else rMark
  | _ => rMark

/-- Faults that clear with their condition (R435). -/
def isCondition (code : Nat) : Bool := [0x0A, 0x0B, 0x0C, 0x13, 0x14, 0x15].contains code

/-- Detectors of the Safety Watch and the Helm stand outside the domain they name, and no restart masks them (R437, R447). -/
def outsideDetector (code : Nat) : Bool := [0x07, 0x09, 0x0A, 0x0B, 0x0C, 0x0D, 0x0E, 0x10, 0x16].contains code

/-- 256 cycles of a domain's clock, in 2^-16 ns (R430). -/
def resetLen (dom : Nat) : Nat :=
  if dom = 3 then 65536 * 65536 / 100 else if dom = 12 then 65536 * 1280 / 3 else 65536 * 1024 / 5
/-- 64 CORE cycles. -/
def maskExtra : Nat := 65536 * 256 / 5

/-! Records (R433 to R436) -/

def FaultRec.bits (r : FaultRec) : Nat :=
  packFields [(128, 64, r.detail), (120, 8, r.code), (116, 4, r.domain), (114, 2, r.cls), (113, 1, b2n r.escalated),
    (112, 1, b2n r.cleared), (111, 1, b2n r.conseq), (108, 3, r.reaction), (106, 2, r.result), (104, 2, r.mode),
    (96, 8, satN 8 r.mergeCnt), (80, 16, r.mergeSrc), (72, 8, r.epoch), (40, 32, r.tickSeq), (8, 32, r.ts32)]

def fltCnt (k : Nat) (s : State) : State := { s with flt := { s.flt with cnt := modAt s.flt.cnt k (satAdd · 1) } }

/-- SOURCE of a FAULT record (R436, R354). -/
def faultSource (dom : Nat) : Nat := nth [0, 1, 2, 3, 4, 5, 6, 7, 8, 9, 10, 9, 0, 13, 0, 15] dom 0

/-- The Logbook record of a fault. -/
def logFault (r : FaultRec) (s : State) : State := logEv 0x20 (faultSource r.domain) r.cls (r.bits * 2 ^ 32) s

/-- A change of a fault's record shows in the first-error latch and in the history (R434). -/
def updFault (id : Nat) (f : FaultRec → FaultRec) (s : State) : State :=
  let g := fun (r : FaultRec) => if r.id = id then f r else r
  { s with flt := { s.flt with
    first := s.flt.first.map g, hist := s.flt.hist.map (Option.map g), live := s.flt.live.map g } }

def liveFault (s : State) (id : Nat) : Option FaultRec := s.flt.live.find? fun r => r.id = id

/-- CLEARED becomes 1 (R435). -/
def clearFault (id : Nat) (s : State) : State :=
  let s := updFault id (fun r => { r with cleared := true }) s
  { s with flt := { s.flt with live := s.flt.live.filter fun r => r.id ≠ id } }

/-- Order of entry of faults of one instant (R434). -/
def entersBefore (a b : FaultRec) : Bool :=
  decide (b.cls < a.cls) || (a.cls = b.cls && (decide (a.domain < b.domain) || (a.domain = b.domain && decide (a.code < b.code))))

/-- Enter the history below position `p`, ahead of later-ordered faults of the same instant. -/
def histPlace (r : FaultRec) : Nat → Nat → List (Option FaultRec) → List (Option FaultRec)
  | 0, p, h => setAt h (p % 16) (some r)
  | k + 1, p, h =>
    match nth h ((p + 15) % 16) none with
    | some o =>
      if o.at_ = r.at_ && entersBefore r o then histPlace r k (p + 15) (setAt h (p % 16) (some o)) else setAt h (p % 16) (some r)
    | none => setAt h (p % 16) (some r)

/-- The history and the first-error latch take a fault (R434). -/
def enterFault (r : FaultRec) (s : State) : State :=
  let p := s.flt.histWr
  let first := match s.flt.first with
    | none => if fld s.flt.ctrl.toNat 1 0 ≤ r.cls then some r else none
    | some o => if o.at_ = r.at_ && entersBefore r o then some r else some o
  let s := { s with flt := { s.flt with
    hist := histPlace r 15 p s.flt.hist, histWr := (p + 1) % 16, first := first, live := s.flt.live ++ [r]
    occurred := setBit s.flt.occurred r.domain, nextId := s.flt.nextId + 1 } }
  if p = 15 then fltEvent 5 s else s

/-! FAULT_N (R432) -/

/-- A window of a CONTAINED fault is open. -/
def containedOpen (s : State) : Bool := s.flt.wins.any fun w => match liveFault s w.id with
  | some r => r.cls = 2
  | none => false

/-- FAULT_N is released at the first instant at which all conditions hold. -/
def tryRelease (s : State) : State :=
  let s := { s with flt := { s.flt with minDone := decide (s.flt.minEnd ≤ s.sys.aon) } }
  if s.flt.low && !s.flt.fatal && s.sys.ready && s.flt.minDone && !(containedOpen s) && (s.flt.release || bitOf s.flt.ctrl 4) then
    { s with flt := { s.flt with low := false, release := false } }
  else s

/-- A CONTAINED or FATAL fault drives FAULT_N low and restarts the minimum of 1.0 ms. -/
def driveLow (s : State) : State :=
  { s with flt := { s.flt with low := true, minDone := false, minEnd := s.sys.aon + 256000000, release := false } }

/-! SAFE (R431) -/

/-- A command ends without its effect; one that loads coefficients is counted LOAD_REFUSED (R245). -/
def refuse (c : Ctx) (st : Status) (late : Bool) (s : State) : State :=
  completeWith c st late none 0 (if c.opcode = 0x20 then { s with dfc := { s.dfc with cnt := modAt s.dfc.cnt 6 (satAdd · 1) } } else s)

/-- Commands that pend complete with E_INTERNAL (R377). -/
def failPending (s : State) : State :=
  let s := match s.sys.maintPend with
    | some (some c, late) => completeWith c .internal late none 0 { s with sys := { s.sys with maintPend := none } }
    | some (none, _) => { s with sys := { s.sys with maintPend := none } }
    | none => s
  let s := match s.pair.startPend with
    | some c => complete c .internal { s with sys := { s.sys with exclusive := false }, pair := { s.pair with startPend := none } }
    | none => s
  let l := s.hif.sched
  let s := l.foldl (fun s c => refuse c.ctx .internal false s) { s with hif := { s.hif with sched := [] } }
  let swaps := s.dfc.chains.filterMap fun c => (c.2.swap.bind Swap.ctx)
  let s := { s with dfc := { s.dfc with chains := s.dfc.chains.map fun c => (c.1, { c.2 with swap := none }) } }
  let s := swaps.foldl (fun s c => refuse c .internal false s) s
  let keys := s.pair.keyPend
  let s := keys.foldl (fun s k => complete k.ctx .internal s) { s with pair := { s.pair with keyPend := [] } }
  match s.pair.switchAt with
  | some c => complete c.1 .internal { s with pair := { s.pair with switchAt := none } }
  | none => s

/-- The module is the active one of a pair (R490). -/
def isActive (s : State) : Bool := s.pair.st = .solo || s.pair.st = .active

/-- Data frames that wait on the ports are dropped: a paired module in SAFE sends none (R506). -/
def dropData (s : State) : State :=
  if !(inPair s) then s else
  { s with net := { s.net with ports := s.net.ports.map fun q => { q with
      express := q.express.filter fun f => f.tick.isNone, pre := q.pre.filter fun f => f.tick.isNone, todo := q.todo.filter (fun f => f.tick.isNone), shed := [] } } }

/-- This module's state message (R491, R492): 0 from a module in SAFE, ROLE as it will take effect before a START. -/
def ownHello (query : Bool) (s : State) : PairHello :=
  { st := if s.sys.runState = .safe then 0 else s.pair.st.code
    role := if s.pair.role = 0 || s.pair.startPend.isSome then fld s.pair.cfg.toNat 1 0 else s.pair.role
    query := query, rate := s.sys.rate, mode := s.sys.guarEff, horizon := s.aln.horizon, resolve := s.aln.resolve, digest := s.hif.digest
    since := s.pair.startAt.map fun t => s.tbu.free - t
    cold := s.pair.cold }

def sendHello (query : Bool) (s : State) : State := yokeSend (.hello (ownHello query s)) s

/-- Entry to SAFE (R32, R431). Windows still open are logged as they stand (R436). -/
def enterSafe (s : State) : State :=
  let s := { s with flt := { s.flt with fatal := true, low := true } }
  if s.sys.runState = .init ∨ s.sys.runState = .safe then s else
  let s := setRunState .safe 0xFF { s with aln := { s.aln with placing := false } }
  let s := invalidFrames (drivePins s)
  let s := if isActive s && inPair s then yokeSend .peerFatal s else if inPair s then sendHello false s else s
  let s := dropData (failPending s)
  let open_ := s.flt.wins.filterMap fun w => liveFault s w.id
  open_.foldl (fun s r => logFault r s) { s with flt := { s.flt with wins := [] } }

/-- A fault ends FATAL: RESULT 10, its record, SAFE (R431, R438). -/
def endFatal (id : Nat) (s : State) : State :=
  let s := updFault id (fun r => { r with result := 2, reaction := rSafe }) s
  let s := { s with flt := { s.flt with wins := s.flt.wins.filter fun w => w.id ≠ id } }
  let s := match liveFault s id with
    | some r => logFault r s
    | none => s
  enterSafe s

/-- A window closes: RESULT 01, CLEARED but for a condition, the Logbook record (R429, R435, R436). -/
def closeWindow (id : Nat) (s : State) : State :=
  match liveFault s id with
  | none => s
  | some r =>
    let s := updFault id (fun r => { r with result := 1, cleared := !(isCondition r.code) }) s
    let s := logFault { r with result := 1, cleared := !(isCondition r.code) } s
    let s := if isCondition r.code then s else clearFault id s
    tryRelease { s with flt := { s.flt with wins := s.flt.wins.filter fun w => w.id ≠ id } }

/-! RESTART (R430, R444) -/

/-- Guarantee mode PROGRESS is in force. -/
def inProgress (s : State) : Bool := s.sys.guarEff = 0

def lseEvent (k : Nat) (s : State) : State :=
  let up := newlySet s.lse.event s.lse.eventEn k
  let s := { s with lse := { s.lse with event := setBit s.lse.event k } }
  if up then raiseBlock 7 s else s
def lseCnt (k n : Nat) (s : State) : State := { s with lse := { s.lse with cnt := modAt s.lse.cnt k (satAdd · n) } }

/-- Work that an engine has left in the phases of the tick in progress (R57). -/
def engineLeft (dom : Nat) (c : Cur) (s : State) : Bool :=
  match dom with
  | 6 => (List.range 16).any fun k => !(c.doneDfc.contains k)
  | 7 => s.lse.sec.isSome && !c.doneAna
  | 8 =>
    if c.phase < 3 then locActive s || (List.range 8).any fun k => osmBoundary s k c.g
    else (s.tkx.entries ++ unreleased s).any fun t => t.g = c.g && t.work.phase = 3 && t.work.domain = some 8
  | 9 => !c.doneSep
  | _ => false

/-- An engine is removed from the tick in progress: its tasks for that tick are cancelled with ARG 2, none is made ready later in it, and
the tick's records carry INCOMPLETE (R57); `inv` where the residual invariant was the cause (R268). -/
def removeEngine (dom : Nat) (inv : Bool) (s : State) : State :=
  match s.tkx.cur with
  | none => s
  | some c =>
    let left := engineLeft dom c s
    let s := cancelWhere (fun t => t.g = c.g && t.work.domain = some dom && t.work ≠ .geAgg) 2 s
    if !left then s else
    modTick c.g (fun t => { t with incomplete := true })
      { s with tkx := { s.tkx with cur := some { c with incomplete := true, gone := dom :: c.gone, invFail := c.invFail || inv } } }

/-- Tasks of the engine that ran and had not completed run again once the restore is done (R444). -/
def rerunEngine (dom : Nat) (s : State) : State :=
  setEntries (s.tkx.entries.map fun t =>
    if t.work.domain = some dom && (t.st = .running || t.st = .preempted) then
      { t with st := .ready, remain := costFr s t.task, dying := none, again := true }
    else t) s

/-- The cold state of an engine (restart table of R430, PROGRESS). -/
def coldEngine (dom : Nat) (s : State) : State :=
  match dom with
  | 6 => { s with dfc := { s.dfc with chains := s.dfc.chains.map fun c => (c.1, c.2.resetAt s.aln.next) } }
  | 7 => { s with lse := { s.lse with hold := s.lse.hold.map fun _ => c0, holdSeq := none, work := none } }
  | 8 =>
    let s := resetSets s
    { s with osm := { s.osm with sets := s.osm.sets.map fun e => (e.1, { e.2 with queue := [] }), locQueue := [] } }
  | 9 => { s with sep := { s.sep with
      zones := s.sep.zones.map fun z => (z.1, { z.2 with hist := [] }), systems := List.replicate 16 SepSys.reset } }
  | _ => s

/-- Endpoints with an uncorrectable word return to unplaced in a tick (R430, ALN in PROGRESS). -/
def unplace (s : State) (h : Nat × Nat) : State :=
  match tickOf s h.1 with
  | none => s
  | some t =>
    if !(lookupK t.eps h.2).isSome then s else
    match t.st with
    | .final => s
    | .spec => modTick h.1 (fun t => { t with eps := eraseK t.eps h.2 }) s
    | .opn => alnCnt 14 1 (modTick h.1 (fun t => { t with eps := eraseK t.eps h.2 }) s)

/-- The Churn returns to the latest commit; what was placed since is to be replayed (R444). FINAL ticks stay. -/
def rollback (s : State) : State :=
  let back := fun (t : Tick) =>
    if t.st = .final then t else
    match s.aln.ckpt.find? fun c => c.g = t.g with
    | some c => { t with eps := c.eps, amends := c.amends }
    | none => { t with eps := [] }
  let l := (s.aln.journal.headD []).filterMap fun i => match i with | .pkt j => some j | .status _ _ _ _ => none
  { s with aln := { s.aln with
    ticks := s.aln.ticks.map back, replay := if l.isEmpty then none else some (l, s.tbu.free) } }

/-- The restart of a domain (R430): answers whether it can be restored. -/
def restartDomain (x : FaultIn) (dom : Nat) (s : State) : Bool × State :=
  match dom with
  | 4 =>
    let s := fifoFlushReq x.unit s
    (true, { s with flt := { s.flt with cnt := modAt s.flt.cnt 5 (satAdd · (fifoOf s x.unit).pkts.length) } })
  | 5 =>
    if inProgress s then (true, x.hits.foldl unplace s)
    else if s.aln.ckptLate || s.aln.overflow then (false, s)
    else (true, rollback s)
  | 3 => (true, linkDown x.unit s)
  | 12 => (true, restartCore x.unit s)
  | 13 => (true, s)
  | d =>
    if d < 6 ∨ 9 < d then (true, s) else
    let s := if inProgress s then coldEngine d (removeEngine d (x.code = 8) s) else s
    (true, rerunEngine d s)

/-- A task follows the restore of an engine: one of the table, while ticks commit (DEDUCED, log 23). -/
def taskFollows (dom : Nat) (s : State) : Bool :=
  s.sys.runState = .run && s.tkx.tasks.any fun c => c.work.domain = some dom && decide (c.work.phase < 4)

/-- RESTART_COMPLETE: the restore of a domain is done; tasks to run again are READY; the window closes where no task follows. -/
def restartComplete (dom : Nat) (s : State) : State :=
  match s.flt.wins.find? fun w => w.domain = dom && !w.waits with
  | none => s
  | some w =>
    if s.tbu.free < w.resetEnd ∨ (dom = 5 ∧ s.aln.replay.isSome) then s else
    let s := if dom = 13 then { s with kst := { s.kst with rootOk := s.kst.root.isSome && !s.kst.destroyed } } else s
    let s := { s with flt := { s.flt with wins := s.flt.wins.map fun (v : Win) => if v.id = w.id then { v with waits := true } else v } }
    let back := s.tkx.entries.filter fun t => t.work.domain = some dom && t.again
    let s := setEntries (s.tkx.entries.map fun t => if t.work.domain = some dom then { t with again := false } else t) s
    let s := back.foldl (fun s t => traceTask .ready 0 t s) s
    if taskFollows dom s then s else closeWindow w.id s

/-- The first task of a restored engine completes: its window closes (R430). -/
def engineTaskDone (w : Work) (s : State) : State :=
  match s.flt.wins.find? fun x => x.waits && some x.domain = w.domain with
  | some x => closeWindow x.id s
  | none => s

/-! Reactions (R429) -/

def discarded (s : State) : State := fltCnt 5 s

/-- Discard the unit of data that holds the failing word. -/
def discardUnit (x : FaultIn) (s : State) : State :=
  match x.region with
  | .logbook i => discarded { s with log := { s.log with recs := s.log.recs.map fun e => if e.1 = i then (e.1, e.2 &&& ~~~1#512) else e } }
  | .staging n k =>
    match (ringOf s n).staged[k]? with
    | some (.rcd r) =>
      let gone : GapRun := { records := 1, units := r.units.length, firstT := r.tick, lastT := r.tick, age := false, full := false,
                             off := false, alarms := b2n r.isAlarm }
      discarded (countLost n 1 (modRing n (fun q => { q with staged := joinRuns (setAt q.staged k (.lost gone)) }) s))
    | _ => s
  | .fifo n k =>
    let f := fifoOf s n
    if f.pkts.length ≤ k then s else
    discarded (fifoDrop n k 1 (f.flush.map fun m => if k < m then m - 1 else m) s)
  | .other => discarded s

/-- SWM_CNT[3]: a readback mismatch. -/
def countReadback (s : State) : State := { s with swm := { s.swm with cnt := modAt s.swm.cnt 3 (satAdd · 1) } }

/-- What a fault marks or counts beside its record: chapters of its detector. -/
def faultEffect (x : FaultIn) (s : State) : State :=
  match x.code with
  | 0x04 => match x.region with
    | .fifo n k => if k < (fifoOf s n).pkts.length then ingEvent 11 (ingCnt 23 1 s) else s
    | _ => s
  | 0x06 => ingEvent 11 (ingCnt 23 1 s)
  | 0x08 => lseEvent 6 (lseCnt 10 1 s)
  | 0x09 => { s with swm := { s.swm with lockOk := false, cnt := modAt s.swm.cnt 1 (satAdd · 1) } }
  | 0x0A => alaEvent 7 (alaCnt 9 1 (countReadback s))
  | 0x0B => evalSuspect false false { s with tbu := { s.tbu with clockFault := true } }
  | 0x0C => { s with swm := { s.swm with cnt := modAt s.swm.cnt 2 (satAdd · 1) } }
  | 0x10 => { s with aln := { s.aln with ckptLate := true } }
  | 0x12 => keyCell x.detail s
  | _ => s

/-- The reaction of a fault whose record stands. -/
def react (x : FaultIn) (r : FaultRec) (s : State) : State :=
  if r.reaction = rSafe then endFatal r.id s
  else if r.reaction = rRestart then
    let now := s.tbu.free
    let w : Win := { id := r.id, domain := r.domain, unit := x.unit, resetEnd := now + resetLen r.domain, waits := false }
    let s := fltCnt 6 { s with flt := { s.flt with
      wins := s.flt.wins ++ [w], masked := insertK s.flt.masked r.domain (now + resetLen r.domain + maskExtra) } }
    let (ok, s) := restartDomain x r.domain s
    if ok then s else endFatal r.id s
  else if r.reaction = rDiscard then closeWindow r.id (discardUnit x s)
  else closeWindow r.id s

/-! Detection (R428, R437 to R439) -/

def winOf (s : State) (dom : Nat) : Option Win := s.flt.wins.find? fun w => w.domain = dom
def maskedNow (s : State) (dom : Nat) : Bool := match lookupK s.flt.masked dom with
  | some t => decide (s.tbu.free < t)
  | none => false

/-- The open fault an error is merged into, and whether as a consequence (R438). -/
def mergeInto (x : FaultIn) (dom : Nat) (s : State) : Option (Win × Bool) :=
  match x.reactionOf.bind (winOf s) with
  | some w => some (w, false)
  | none =>
    match x.inputOf with
    | some d => if d ≠ dom && maskedNow s d then (winOf s d).map fun w => (w, true) else none
    | none => none

/-- An error is merged (R438): an uncorrectable one during a restore or a rebuild ends the fault FATAL. -/
def mergeFault (w : Win) (conseq : Bool) (dom cls : Nat) (s : State) : State :=
  let s := updFault w.id (fun r => { r with
    mergeCnt := satN 8 (r.mergeCnt + 1), mergeSrc := r.mergeSrc ||| 2 ^ dom, conseq := r.conseq || conseq }) s
  let s := fltEvent 3 (fltCnt 3 s)
  if !conseq && decide (2 ≤ cls) then endFatal w.id s else s

/-- An error of the same domain meets an open window, or a CONTAINED fault of the same instant (R439). -/
def meets (dom : Nat) (s : State) : Bool :=
  (winOf s dom).isSome || s.flt.hist.any fun h => match h with
    | some r => r.domain = dom && r.cls = 2 && r.at_ = s.tbu.free
    | none => false

/-- FAULT_DETECTED: a detector reports an error. In SAFE a readback mismatch is counted only (R549). -/
def raiseFault (x : FaultIn) (s : State) : State :=
  let dom := (homeDomain x.code).getD (x.domain % 16)
  if s.sys.runState = .init ∨ !(faultCodes.contains x.code) then s
  else if s.sys.runState = .safe ∧ x.code = 0x0A then countReadback s
  else if maskedNow s dom && !(outsideDetector x.code) && x.reactionOf.isNone then s
  else
    let cls0 := classOf x.code dom
    match mergeInto x dom s with
    | some (w, conseq) => mergeFault w conseq dom cls0 s
    | none =>
      let esc := decide (2 ≤ cls0) && meets dom s
      let cls := if esc then 3 else cls0
      let r : FaultRec :=
        { id := s.flt.nextId, detail := x.detail, code := x.code, domain := dom, cls := cls, escalated := esc, cleared := false,
          conseq := false, reaction := if esc then rSafe else reactionFor x dom, result := 0, mode := s.sys.guarEff, mergeCnt := 0,
          mergeSrc := 0, epoch := s.tbu.epoch, tickSeq := s.tkx.lastSeq.getD 0, ts32 := ts32 s, at_ := s.tbu.free }
      let s := fltEvent (cls - 1) (fltCnt (cls - 1) (enterFault r s))
      let s := if esc then fltEvent 4 (fltCnt 4 s) else s
      let s := if 2 ≤ cls then driveLow s else s
      react x r (faultEffect x s)

/-- Domain of a heartbeat: the Helm, the Churn, the Bell. -/
def heartDomain (who : Nat) : Nat := nth [10, 5, 11] who 11

/-- A condition fault's condition has ceased for 50 ms: CLEARED, and a second record (R435, R436). -/
def conditionCleared (code dom : Nat) (s : State) : State :=
  let l := s.flt.live.filter fun r => isCondition r.code && r.code = code && r.domain = dom
  let s := if code = 0x0C ∧ !l.isEmpty then
      { s with swm := { s.swm with hb := s.swm.hb.zipIdx.map fun h => h.1 || decide (heartDomain h.2 = dom) } } else s
  l.foldl (fun s r => logFault { r with cleared := true } (clearFault r.id s)) s

/-- FLT_INJECT (R454): codes and domains allowed. -/
def injectable (code dom : Nat) : Bool :=
  match code with
  | 0x02 => [4, 5, 6, 7, 8, 9, 12].contains dom
  | 0x04 => [4, 5, 6, 7, 8, 9, 12].contains dom
  | 0x05 => true
  | 0x0C => [10, 5, 11].contains dom
  | c => [0x06, 0x08, 0x09, 0x0A].contains c

def bothAt : Nat := 0xFFFFFFFFFFFFFFFF

/-- A write to FLT_INJECT. Which engine, port or core an injected restart meets is open (log 2). -/
def fltInject (v : Word) (s : State) : State :=
  let code := fld v.toNat 7 0
  let dom := fld v.toNat 11 8
  if !(s.sys.runState = .config || s.sys.runState = .maintenance) || !(injectable code dom) then s else
  let (k, s) := drawFree s
  let n := (Config.freeBits k).toNat % (if dom = 4 then 16 else 4)
  raiseFault { FaultIn.plain code dom with detail := bothAt, unit := n } s

/-- FLT_FAULTN: RELEASE and FIRST_CLR (R432, R434). -/
def faultnRelease (s : State) : State :=
  -- A RELEASE in the cycle of a new fault is discarded.
  tryRelease { s with flt := { s.flt with release := s.flt.low && decide (s.flt.minEnd ≠ s.sys.aon + 256000000) } }
def firstClr (s : State) : State := { s with flt := { s.flt with first := none } }

/-- FLT_ACTIVE and FLT_RECOVERY. -/
def fltActive (s : State) : Nat := bitmap 16 fun d => s.flt.live.any fun r => r.domain = d
def fltRecovery (s : State) : Nat := bitmap 16 fun d => (winOf s d).isSome

end Sys2Proof.Machine
end

