-- ==== Sys2Proof/Machine/PairBase.lean ====
section
/-! DEFINITION. The Pair Controller's events, state messages, joins begun anew, mirroring and digest comparison (R490 to R503, R510). -/

namespace Sys2Proof.Machine

/-- PAIR_CNT[k] counts (R514). -/
def pairCnt (k n : Nat) (s : State) : State := { s with pair := { s.pair with cnt := modAt s.pair.cnt k (satAdd · n) } }

/-- The sticky bit of an event code (R511). -/
def pairSticky (c : Nat) (s : State) : State :=
  let up := newlySet s.pair.event s.pair.eventMask c
  let s := { s with pair := { s.pair with event := setBit s.pair.event c } }
  if up then raiseBlock 15 s else s

/-- Event codes (R510). -/
inductive PairEv where
  | soloStart
  | syncStart
  | synced
  | syncFail
  | peerRefused
  | laneDown
  | laneUp
  | heartbeatLost
  | peerFatal
  | takeover
  | switchover
  | digestMismatch
  | dualActive
  | mirrorFail
  | peerLost
  deriving DecidableEq, Repr

def PairEv.code : PairEv → Nat
  | .soloStart => 1
  | .syncStart => 2
  | .synced => 3
  | .syncFail => 4
  | .peerRefused => 5
  | .laneDown => 6
  | .laneUp => 7
  | .heartbeatLost => 8
  | .peerFatal => 9
  | .takeover => 10
  | .switchover => 11
  | .digestMismatch => 12
  | .dualActive => 13
  | .mirrorFail => 14
  | .peerLost => 15

/-- What a PAIR_EVENT record says beside its code (R510). -/
structure PairNote where
  old  : PairSt
  new  : PairSt
  own  : Nat
  peer : Nat
  last : Nat
  deriving DecidableEq, Repr

/-- An event that changes no state. -/
def PairNote.still (s : State) : PairNote := ⟨s.pair.st, s.pair.st, 0, 0, 0⟩

/-- A pair event: sticky bit, record, Logbook record (R510). -/
def pairEvt (e : PairEv) (n : PairNote) (s : State) : State :=
  let id := (nth s.pair.peerSeen 0 0#32).toNat + (nth s.pair.peerSeen 1 0#32).toNat * 2 ^ 32
  let u := unitOf (hdr 0x71 1 0 ++ [(480, 32, lastTickSeq s), (472, 8, e.code), (469, 3, n.old.code), (466, 3, n.new.code),
    (400, 64, id), (336, 64, n.own), (272, 64, n.peer), (240, 32, n.last)])
  let s := logEv 0x50 15 0 (argOf [(280, 8, e.code), (277, 3, n.old.code), (274, 3, n.new.code), (242, 32, lastTickSeq s)]) s
  let s := match (if bitOf s.pair.outRing 6 then some (fld s.pair.outRing.toNat 5 0) else none) with
    | some r => handRec r 0x71 [u] none (some (lastTickSeq s)) s
    | none => s
  pairSticky e.code s

def noteStill (e : PairEv) (s : State) : State := pairEvt e (PairNote.still s) s

/-- The pair state changes with its event; the peer is told, and the balls follow (R490). -/
def setPair (new : PairSt) (e : PairEv) (last : Nat) (s : State) : State :=
  let n : PairNote := { PairNote.still s with new := new, last := last }
  drivePins (sendHello false (pairEvt e n { s with pair := { s.pair with st := new } }))

/-- A join begins: this module's challenge goes to the peer (R493 step 1). -/
def challengePeer (s : State) : State :=
  let (k, s) := drawFree s
  yokeSend (.challenge (Config.freeBits k)) { s with pair := { s.pair with challenge := Config.freeBits k, verified := false } }

/-- The module enters SYNCING and joins, by snapshot or cold (R491 to R494). -/
def beginJoin (cold : Bool) (s : State) : State :=
  let s := { s with pair := { s.pair with
    cold := cold, verified := false, gs := none, retryAt := none, catching := false, own := [], peer := [], mismatch := 0,
    idMismatch := List.replicate 8 0 } }
  challengePeer (setPair .syncing .syncStart 0 s)

/-- A refusal or a failure: the join is tried again after 1 s (R493). -/
def joinLater (s : State) : State :=
  { s with pair := { s.pair with retryAt := some (s.tbu.free + secFr), verified := false, gs := none, catching := false } }

/-! Mirroring (R498) -/

/-- The active of a pair mirrors a command to its peer. -/
def mirror (c : MirrorCmd) (s : State) : State :=
  if isActive s && inPair s && (s.pair.peerSt = PairSt.standby.code || s.pair.peerSt = PairSt.syncing.code) then yokeSend (.mirror c) s else s

/-! Digests (R500 to R503) -/

/-- Records ordered by TYPE, then in writing order. -/
def orderType (l : List (Nat × List Unit512)) : List (List Unit512) :=
  (List.range 256).flatMap fun k => (l.filter fun e => e.1 = k).map Prod.snd

/-- Ticks are compared: this module is in STANDBY, or ACTIVE. -/
def comparing (s : State) : Bool := s.pair.st = .standby || s.pair.st = .active

/-- MISMATCH_TH (R513). -/
def mismatchTh (s : State) : Nat := fld s.pair.cfg.toNat 15 8

/-- The standby has diverged: the fault, and a new join (R503). -/
def diverged (s : State) : State :=
  if s.pair.st ≠ .standby then s else
  let s := raiseFault (FaultIn.plain 0x31 15) s
  if s.pair.st = .standby && s.sys.runState ≠ .safe then beginJoin false s else s

/-- A tick is left out of comparison (R501). -/
def skipDigest (s : State) : State := pairCnt 2 1 s

/-- Two digests of one tick meet (R500, R501, R503). -/
def meetDigests (o : OwnDigest) (value : Nat) (skip suspect : Bool) (s : State) : State :=
  let s := { s with pair := { s.pair with own := s.pair.own.filter fun x => x.seq ≠ o.seq, peer := s.pair.peer.filter fun x => x.1 ≠ o.seq } }
  if o.skip || skip || o.suspect != suspect then skipDigest s
  else
    let s := pairCnt 0 1 { s with pair := { s.pair with digOwn := o.value, digPeer := value } }
    if o.value = value then { s with pair := { s.pair with mismatch := 0 } }
    else
      let n := s.pair.mismatch + 1
      let s := pairEvt .digestMismatch { PairNote.still s with own := o.value, peer := value } (pairCnt 1 1 { s with pair := { s.pair with mismatch := n } })
      if mismatchTh s ≤ n then diverged s else s

/-- This module's digest of a tick: sent, and compared where the peer's is there. -/
def tickDigest (seq value : Nat) (skip suspect : Bool) (s : State) : State :=
  if !(comparing s) then s else
  let s := yokeSend (.digest (.tick seq value skip suspect)) s
  let o : OwnDigest := { seq := seq, value := value, skip := skip, suspect := suspect, at_ := s.tbu.free }
  match s.pair.peer.find? fun x => x.1 = seq with
  | some (_, v, k, q) => meetDigests o v k q s
  | none => { s with pair := { s.pair with own := s.pair.own ++ [o] } }

/-- Keep at most 128 entries of a list, the newest. -/
def lastFew {α : Type} (l : List α) : List α := l.drop (l.length - 128)

/-- D_F of a tick is there on one side (R502): compared once both are. -/
def finalMeets (seq value : Nat) (mine : Bool) (s : State) : State :=
  if !(comparing s) then s else
  match (if mine then s.pair.finPeer else s.pair.finOwn).find? fun x => x.1 = seq with
  | some (_, v) =>
    let s := { s with pair := { s.pair with
      finOwn := s.pair.finOwn.filter (fun x => x.1 ≠ seq), finPeer := s.pair.finPeer.filter fun x => x.1 ≠ seq } }
    if v = value then s else pairCnt 3 1 s
  | none =>
    if mine then { s with pair := { s.pair with finOwn := lastFew (s.pair.finOwn ++ [(seq, value)]) } }
    else { s with pair := { s.pair with finPeer := lastFew (s.pair.finPeer ++ [(seq, value)]) } }

def finalDigest (t : Tick) (s : State) : State :=
  if !(comparing s) then s else
  let v := digest64 (orderType t.digF)
  finalMeets t.seq v true (yokeSend (.digest (.final t.seq v)) s)

/-- ID_DIGEST of an identification on one side (R502, R503). -/
def identMeets (set idSeq value : Nat) (mine : Bool) (s : State) : State :=
  if !(comparing s) then s else
  let hit := fun (x : Nat × Nat × Nat) => x.1 = set && x.2.1 = idSeq
  match (if mine then s.pair.idPeer else s.pair.idOwn).find? hit with
  | some (_, _, v) =>
    let s := { s with pair := { s.pair with
      idOwn := s.pair.idOwn.filter (fun x => !hit x), idPeer := s.pair.idPeer.filter fun x => !hit x } }
    if v = value then { s with pair := { s.pair with idMismatch := setAt s.pair.idMismatch set 0 } }
    else
      let n := nth s.pair.idMismatch set 0 + 1
      let s := pairCnt 4 1 { s with pair := { s.pair with idMismatch := setAt s.pair.idMismatch set n } }
      if mismatchTh s ≤ n then diverged s else s
  | none =>
    if mine then { s with pair := { s.pair with idOwn := lastFew (s.pair.idOwn ++ [(set, idSeq, value)]) } }
    else { s with pair := { s.pair with idPeer := lastFew (s.pair.idPeer ++ [(set, idSeq, value)]) } }

/-- The ID_DIGEST of an OSM_SUMMARY is sent and compared. -/
def identDigest (set : Nat) (us : List Unit512) (s : State) : State :=
  if !(comparing s) then s else
  let n := (us.headD 0#512).toNat
  identMeets set (fld n 335 304) (fld n 399 336) true (yokeSend (.digest (.ident set (fld n 335 304) (fld n 399 336))) s)

/-- DIGEST_RECEIVE. -/
def digestReceive (m : DigestMsg) (s : State) : State :=
  if !(comparing s) then s else
  match m with
  | .tick seq v skip sus =>
    match s.pair.own.find? fun o => o.seq = seq with
    | some o => meetDigests o v skip sus s
    | none => { s with pair := { s.pair with peer := lastFew (s.pair.peer ++ [(seq, v, skip, sus)]) } }
  | .final seq v => finalMeets seq v false s
  | .ident set n v => identMeets set n v false s

/-- DIGEST_TIMEOUT: own digests older than one T are left out of comparison (R501). -/
def digestTimeout (s : State) : State :=
  let t := secFr / max 1 s.sys.rate
  let old := s.pair.own.filter fun o => decide (o.at_ + t ≤ s.tbu.free)
  { (pairCnt 2 old.length s) with pair := { (pairCnt 2 old.length s).pair with
      own := s.pair.own.filter fun o => !(decide (o.at_ + t ≤ s.tbu.free)) } }

/-- A Yoke mark: the active tells its peer that a tick's port frames have entered the FIFOs (R505). -/
def emitMark (seq : Nat) (s : State) : State := if isActive s && inPair s then yokeSend (.emitMark seq) s else s

end Sys2Proof.Machine
end

