-- ==== Sys2Proof/Machine/Output.lean ====
section
/-! DEFINITION. Output frames of a tick: C37.118.2 and IEC 61850-90-5 data frames built from the committed view (R131, R211, R213, R505). -/

namespace Sys2Proof.Machine

/-- A binary32 value as int16 over a factor; 0x8000 where it is NaN, limited to the format (log 60). -/
def int16Of (v : Nat) (scale : Nat) : Nat :=
  let x := fdiv f64 (to64 v) scale
  if fisNan f64 x then 0x8000 else ifld 16 (clampI (-32767) 32767 (ftoInt f64 x))

/-- Bytes of one channel from its slot. -/
def chanFmtBytes (c : ChanFmt) (d : Dword) : List Byte :=
  match c with
  | .phasor => toBE 4 (re32 d) ++ toBE 4 (im32 d)
  | .phasorInt k => toBE 2 (int16Of (re32 d) (to64 k.toNat)) ++ toBE 2 (int16Of (im32 d) (to64 k.toNat))
  | .real => toBE 4 (re32 d)
  | .realInt k => toBE 2 (int16Of (re32 d) (to64 k.toNat))
  | .freqInt n => toBE 2 (int16Of (to32 (fsub f64 (to64 (re32 d)) (fofRat f64 n 1000))) milli64)
  | .digital => toBE 2 (re32 d)

/-- STAT of a block (R213, R106). -/
def statWord (t : Tick) (v : Option EpVal) : Nat :=
  match v with
  | none => packFields [(14, 2, 2), (13, 1, t.tq.stat13), (6, 3, t.tq.stat86), (4, 2, t.tq.stat54)]
  | some e =>
    let q := e.quality
    let fl := e.flags.toNat
    packFields [(14, 2, if q.getLsbD 2 then 3 else 0), (13, 1, max t.tq.stat13 (b2n (q.getLsbD 3))), (11, 1, fl / 32), (10, 1, fl / 16),
      (9, 1, fl / 8), (6, 3, t.tq.stat86), (4, 2, t.tq.stat54)]

/-- The present value of an endpoint in the committed view. -/
def viewOf (t : Tick) (id : Nat) : Option EpVal := ((entryOfId id).bind (lookupK t.view)).filter fun e => e.quality.getLsbD 0

/-- One PMU block. -/
def blockBytes (t : Tick) (b : OutBlock) : List Byte :=
  let v := viewOf t b.ep
  toBE 2 (statWord t v) ++ (b.chans.flatMap fun c => chanFmtBytes c.2 (nth ((v.map EpVal.vals).getD []) c.1 nanSlot))

/-- FRACSEC: leap bits, time quality code, fraction in units of TIME_BASE (R106; C37.118.2). -/
def fracSec (s : State) (t : Tick) (base : Nat) : Nat :=
  let f := frate s
  let (_, valid, l61, l59) := utcInfo s
  packFields [(30, 1, b2n (valid && l59)), (28, 1, b2n (valid && (l61 || l59))), (24, 4, t.tq.fracsec),
    (0, 24, (rneDiv ((t.g % f * base : Nat) : Int) f).toNat)]

/-- The payload of a C37.118.2 data frame (log 60). -/
def c37Bytes (s : State) (t : Tick) (idcode base version : Nat) (blocks : List OutBlock) : List Byte :=
  let body := toBE 4 ((tmSec (frate s) t.g : Int) - utcOffset s).toNat ++ toBE 4 (fracSec s t base) ++ blocks.flatMap (blockBytes t)
  let l := [0xAA#8, BitVec.ofNat 8 version] ++ toBE 2 (body.length + 8) ++ toBE 2 idcode ++ body
  l ++ toBE 2 (crcCcitt l).toNat

/-- IEC 61850-90-5 validity of an endpoint's values (R213). -/
def validityOf (v : Option EpVal) : Nat :=
  match v with
  | none => 1
  | some e => if e.quality.getLsbD 2 then 1 else if e.quality.getLsbD 3 || e.quality.getLsbD 4 then 3 else 0

/-- The frame of a stream for a tick, with the ports it goes to. -/
def streamFrame (s : State) (t : Tick) (o : OutStream) : Nat × TxFrame :=
  match o with
  | .c37 ports head id base ver blocks => (ports, { TxFrame.plain (fillUdp (head ++ c37Bytes s t id base ver blocks)) with tick := some t.g })
  | .sv ports head svId confRev len chans =>
    let vs := chans.map fun c => (viewOf t c.1, c.2)
    let o : SpduOut := .sv
      { svId := svId, confRev := confRev, g := t.g, utc := utcOfTick s t, smpSynch := t.tq.synch
        quality := vs.map fun v => validityOf v.1
        vals := vs.map fun v => nth ((v.1.map EpVal.vals).getD []) v.2 nanSlot }
    (ports, { TxFrame.spdu o (fillUdp (head ++ spduBytes o len)) with tick := some t.g })

def outStreams (s : State) : List OutStream := ((s.image.bind Image.output).map OutSec.streams).getD []

/-- Frames of port p for a tick; on a PRP pair that both carry it, the even port's hand-over makes both copies (R133). -/
def portFrames (s : State) (t : Tick) (p : Nat) : List TxFrame :=
  ((outStreams s).map (streamFrame s t)).filterMap fun e =>
    if e.1.testBit p && !(paired s p && decide (p % 2 = 1) && e.1.testBit (p - 1)) then some e.2 else none

/-- A standby keeps the frames it built, of up to 8 ticks (R505). -/
def keepFrames (seq : Nat) (l : List (Nat × TxFrame)) (s : State) : State :=
  let old := s.pair.frames
  let new := if old.any fun h => h.seq = seq then old.map fun h => if h.seq = seq then { h with frames := h.frames ++ l } else h
    else old ++ [{ seq := seq, frames := l }]
  { s with pair := { s.pair with frames := new.drop (new.length - 8) } }

/-- Data frames may leave: an active or unpaired module, and no paired one in SAFE (R490, R506). -/
def sendsData (s : State) : Bool := emits s && !(inPair s && s.sys.runState = .safe)

/-- Port p's frames of a tick are built once and handed to the port (R211). -/
def emitPortFrames (t : Tick) (p : Nat) (s : State) : State :=
  let l := portFrames s t p
  if s.pair.st = .standby then keepFrames t.seq (l.map fun f => (p, f)) s
  else if !(sendsData s) then s
  else l.foldl (fun s f => handFrame p false f s) s

/-- They are built and wait in SLACK; a ninth tick drops the oldest held one (R53, R126). -/
def shedPortFrames (t : Tick) (p : Nat) (s : State) : State :=
  let l := portFrames s t p
  if s.pair.st = .standby then keepFrames t.seq (l.map fun f => (p, f)) s
  else if !(sendsData s) then s
  else limitHeld (mateOf p) (limitHeld p (l.foldl (fun s f => shedFrame p t.g f s) s))

/-- Frames of tick g that waited in SLACK go to the port, and to the other of a pair. -/
def unshed (p g : Nat) (s : State) : State := if paired s p then unshedPort (mateOf p) g (unshedPort p g s) else unshedPort p g s

/-- Port frames of tick g have not all entered their transmit FIFOs: work of a port is left, or frames wait. -/
def framesLeft (s : State) (g : Nat) : Bool :=
  (s.tkx.entries ++ unreleased s).any (fun t => t.g = g && (portOfWork t.work).isSome) ||
    s.net.ports.any fun q => q.todo.any (fun f => f.tick = some g) || q.shed.any fun e => e.1 = g

/-- EMIT_MARKs go in tick order, each once the last port frame of its tick has entered its transmit FIFOs (R505). -/
def sendMarks : Nat → State → State
  | 0, s => s
  | k + 1, s =>
    match s.pair.toMark with
    | [] => s
    | (g, seq) :: r => if framesLeft s g then s else sendMarks k (emitMark seq { s with pair := { s.pair with toMark := r } })

def marksDue (s : State) : State := sendMarks s.pair.toMark.length s

/-- PORT_FRAME_TRANSMIT, which may make room for the last frame of a tick. -/
def transmitPort (p : Nat) (s : State) : State := marksDue (portTransmit p (accountEmits s))

/-- Frames that a takeover sends: every tick after n_e in tick order (R505 step 2). -/
def releaseFrames (s : State) : State :=
  let l := s.pair.frames
  let s := l.foldl (fun s h => h.frames.foldl (fun s f => handFrame f.1 false f.2 s) s) { s with pair := { s.pair with frames := [] } }
  let g := fun (h : HeldTick) => ((h.frames.head?.bind fun f => f.2.tick)).getD 0
  marksDue { s with pair := { s.pair with toMark := s.pair.toMark ++ l.map fun h => (g h, h.seq) } }

end Sys2Proof.Machine
end

