-- ==== Sys2Proof/Machine/TickWork.lean ====
section
/-! DEFINITION. What the engines' tasks do for one tick: DFC groups, LSE, SEP, OSM, re-solves (R233 to R246, R253 to R271, R299 to R301). -/

namespace Sys2Proof.Machine

/-- A change of the tick in progress. -/
def modCur (f : Cur → Cur) (s : State) : State := { s with tkx := { s.tkx with cur := s.tkx.cur.map f } }

/-- Records of the tick in progress that EMIT writes. -/
def queueRec (r : EmitRec) (s : State) : State := modCur (fun c => { c with recs := c.recs ++ [r] }) s

/-- TickSEQ and Tm of a record's head (R241, R242, R273). -/
def tickHead (f : Nat) (t : Tick) : List (Nat × Nat × Nat) := [(480, 32, t.seq), (432, 48, tmSec f t.g), (400, 32, tmNs f t.g)]

/-! The Separator (R233 to R246) -/

def dfcEvent (k : Nat) (s : State) : State :=
  let up := newlySet s.dfc.event s.dfc.eventEn k
  let s := { s with dfc := { s.dfc with event := setBit s.dfc.event k } }
  if up then raiseBlock 6 s else s
def dfcCnt (k n : Nat) (s : State) : State := { s with dfc := { s.dfc with cnt := modAt s.dfc.cnt k (satAdd · n) } }

/-- Table index of the endpoint that a chain names; one that no packet has where the table does not hold it. -/
def epIndexOf (s : State) (id : Nat) : Nat := (((tickEps s).find? fun e => e.2.id = id).map Prod.fst).getD (2 ^ 32)

/-- THRESHOLD record (R241). -/
def thresholdUnits (f : Nat) (t : Tick) (e : ThrEdge) : List Unit512 :=
  [unitOf (hdr 0x21 1 0 ++ tickHead f t ++ [(388, 12, e.chain), (387, 1, b2n e.lower), (386, 1, b2n e.set), (378, 8, e.out.m),
    (372, 6, e.out.decim), (340, 32, e.out.value.toNat), (308, 32, ifld 32 e.out.y), (244, 64, ifld 64 e.level), (228, 16, e.out.flags)])]

/-- DFC_SAMPLES records, at most 256 entries each (R242). -/
def dfcSamplesRecs (f : Nat) (t : Tick) (outs : List DfcOut) : List (List Unit512) :=
  let parts := cut 256 16 (outs.filter DfcOut.outEn)
  parts.zipIdx.map fun p =>
    let us := packUnits 128 (p.1.map fun o => packFields [(96, 32, o.value.toNat), (64, 32, ifld 32 o.y), (52, 12, o.chain), (44, 8, o.m),
      (38, 6, o.decim), (30, 8, o.substN), (0, 16, o.flags)])
    unitOf (hdr 0x20 (1 + us.length) 0 ++ tickHead f t ++ [(384, 16, p.1.length), (376, 8, p.2), (368, 8, parts.length)]) :: us

/-- Outputs in ascending chain number. -/
def insOut (o : DfcOut) : List DfcOut → List DfcOut
  | [] => [o]
  | a :: r => if o.chain < a.chain then o :: a :: r else a :: insOut o r

/-- A swap took effect: its descriptor completes with the tick (R236). -/
def swapDone (seq : Nat) (w : Swap) (s : State) : State :=
  let s := dfcEvent 5 (dfcCnt 4 1 s)
  match w.ctx with
  | some c => completeWith c .ok w.late (some seq) 0 s
  | none => s

/-- One chain's share of a group task. -/
def chainWork (t : Tick) (s : State) (x : Nat × Chain) : State :=
  let r := x.2.tick x.1 (epIndexOf s x.2.srcA) (epIndexOf s x.2.srcB) t.g t.view
  let s := { s with dfc := { s.dfc with
    chains := insertK s.dfc.chains x.1 r.chain, outs := r.outs.foldl (fun l o => insOut o l) s.dfc.outs, edges := s.dfc.edges ++ r.edges } }
  let s := dfcCnt 0 r.outs.length (dfcCnt 1 r.subst (dfcCnt 2 (b2n r.satIn) (dfcCnt 3 (b2n r.satOut) (dfcCnt 5 r.edges.length s))))
  let ev := fun (b : Bool) (k : Nat) (s : State) => if b then dfcEvent k s else s
  let s := ev r.satIn 0 (ev r.satOut 1 (ev r.allSub 2 (ev (r.edges.any ThrEdge.set) 3 (ev (r.edges.any fun e => !e.set) 4 s))))
  match r.swapped with
  | some w => swapDone t.seq w s
  | none => s

/-- The COMMIT task of a group of 256 chains, in ascending chain number (R233). -/
def dfcGroup (t : Tick) (grp : Nat) (s : State) : State :=
  ((s.dfc.chains.filter fun c => c.1 / 256 = grp)).foldl (chainWork t) s

/-- The tick's DFC records: samples by chain, then edges (R241 to R243). -/
def dfcRecs (t : Tick) (s : State) : List EmitRec :=
  let f := frate s
  (dfcSamplesRecs f t s.dfc.outs).map (fun us => { ring := ringSel s.dfc.outRing, typ := 0x20, units := us, stamp := none }) ++
  s.dfc.edges.map fun e => { ring := ringSel s.dfc.thrRing, typ := 0x21, units := thresholdUnits f t e, stamp := none }

/-! The Linear State Estimator -/

/-- What a status point says to R253. -/
def pointLook (s : State) (k : Nat) : Option (Bool × Nat × Nat) := (lookupK s.sep.points k).map fun p => (p.stale, p.pos, p.last)

/-- A mark's snapshot: the branches as the active bound them (R495), and the factor that matches. -/
def matchFactor (im : LseImage) (snap : List Bool) : Nat × Bool :=
  let sw := im.branches.zipIdx.filterMap fun e => if e.1.points.isEmpty then none else some e.2
  match (im.factors.zipIdx).find? fun e => sw.all fun k => nth e.1.inService k true = nth snap k true with
  | some e => (e.2, false)
  | none => (0, true)

/-- The bindings of a tick at its commit (R253, R254, R495). -/
def bindTick (snap : Option (List Bool)) (s : State) : Bind × State :=
  match s.lse.sec with
  | none => (Bind.reset, s)
  | some im =>
    let (own, v, a, unc) := bindTopology im (pointLook s)
    let (sn, v, a) := match snap with
      | some l => let m := matchFactor im l; (l, m.1, m.2)
      | none => (own, v, a)
    let b : Bind := { inService := sn, variant := v, approx := a, uncertain := unc, hold := s.lse.hold, holdSeq := s.lse.holdSeq }
    let changed := match s.lse.lastVar with
      | some w => decide (w ≠ v)
      | none => false
    let s := if changed then lseEvent 4 (lseCnt 8 1 s) else s
    let s := if a then lseEvent 3 (lseCnt 7 1 s) else s
    let s := if unc then lseEvent 5 (lseCnt 11 1 s) else s
    (b, s)

def maxRemove (s : State) : Nat := fld s.lse.maxRem.toNat 3 0

/-- Steps 1 to 6 for a tick with the values it should read (R258, R270). -/
def solveTick (t : Tick) (cover : Nat) (view : List (Nat × EpVal)) (s : State) : Option (Solve × Bool) :=
  s.lse.sec.map fun im => lseSolve s.hif.digest im s.lse.nrTh.toNat (maxRemove s) t.g cover t.bind view

/-- A residual invariant failed: the contained fault, which also counts it (R259). -/
def lseInvariant (s : State) : State := raiseFault (FaultIn.plain 0x08 7) s

/-- The state a completed LSE_ANALYZE writes: hold state, the tick's factor and the registers (R257, R267, R276). -/
def lseWriteBack (t : Tick) (v : Solve) (r : LseRes) (s : State) : State :=
  let hold := r.x.zipIdx.map fun e => if nth r.obs e.2 false then e.1 else c0
  { s with lse := { s.lse with
    hold := hold, holdSeq := if hold.all fun h => h = c0 then none else some t.seq
    lastVar := some t.bind.variant, variant := t.bind.variant, approx := t.bind.approx, unobs := decide (r.nObs < r.x.length), chi := r.chi
    last := [t.seq, r.j, r.maxNr, r.chiLim].map (BitVec.ofNat 32)
    unobZones := r.unobZones, measRt := v.ms.map fun m => (m.cls, m.test) } }

/-- Counters and events of a completed result, primary or revision. What counts ticks counts a tick once (R261, R264, R278). -/
def lseTally (t : Tick) (v : Solve) (r : LseRes) (s : State) : State :=
  let ev := fun (b : Bool) (k : Nat) (s : State) => if b then lseEvent k s else s
  let trunc := decide (255 < r.islands.length)
  let unob := !r.unobZones.isEmpty
  let s := lseCnt 2 v.removals.length (lseCnt 3 (b2n (r.limit && !t.limitSeen)) (lseCnt 4 r.critical (lseCnt 5 (b2n (decide (r.chi = 2)))
    (lseCnt 6 (b2n (unob && !t.unobSeen)) (lseCnt 12 (b2n trunc) s)))))
  let s := modTick t.g (fun x => { x with limitSeen := x.limitSeen || r.limit, unobSeen := x.unobSeen || unob }) s
  ev (decide (r.chi = 2)) 0 (ev r.limit 1 (ev (!r.unobZones.isEmpty) 2 (ev (decide (0 < r.critical)) 7 (ev trunc 8 s))))

def resHead (t : Tick) (rev : Nat) (s : State) : ResHead := { f := frate s, g := t.g, seq := t.seq, rev := rev, bind := t.bind }

/-- Type of a record by its common header (R363). -/
def recType (us : List Unit512) : Nat := fld (us.headD 0#512).toNat 55 48

/-- The records of a primary result, or of the tick whose LSE work was cancelled (R268, R272). -/
def lseRecs (t : Tick) (inv : Bool) (res : Option LseRes) (s : State) : List EmitRec :=
  match s.lse.sec with
  | none => []
  | some im =>
    let h := resHead t 0 s
    let l := match res with
      | some r => lseRecords im h r
      | none => [cancelledSummary h inv]
    l.map fun us => { ring := ringSel im.outRing, typ := recType us, units := us, stamp := none }

/-- Primary LSE_ANALYZE of a tick completes (R258, R267, R269): the result. -/
def analyzeTick (t : Tick) (v : Solve) (s : State) : Option LseRes × State :=
  match s.lse.sec with
  | none => (none, s)
  | some im =>
    let r := lseAnalyze im s.lse.chiK.toNat t.bind v
    (some r, lseCnt 0 1 (lseCnt 9 r.nHeld (lseTally t v r (lseWriteBack t v r { s with lse := { s.lse with work := none } }))))

/-! The Separation Detector -/

/-- The SEP task for a tick, with the zone-out states of its commit (R325, R329). -/
def sepWork (t : Tick) (s : State) : State × List EmitRec :=
  let (s, l) := sepTask t { s with sep := { s.sep with outSample := t.outZones } }
  (s, l.map fun e => { ring := ringSel s.sep.outRing, typ := e.1, units := e.2, stamp := none })

/-! The Oscillation Monitor -/

/-- Records of an identification. -/
def osmEmit (l : List (Nat × List Unit512)) (s : State) : List EmitRec :=
  l.map fun e => { ring := ringSel s.osm.outRing, typ := e.1, units := e.2, stamp := none }

/-- ID_DIGESTs of identifications among records are compared (R502). -/
def osmDigests (k : Nat) (l : List (Nat × List Unit512)) (s : State) : State :=
  (l.filter fun e => e.1 = 0x40).foldl (fun s e => identDigest k e.2 s) s

/-- The update of set k at a tick (R284). -/
def osmWork (t : Tick) (k : Nat) (s : State) : State × List EmitRec :=
  match osmSetOf s k with
  | none => (s, [])
  | some e =>
    let (s, l) := updateSet k (osmInputs s e t.g t.seq) 0 s
    (osmDigests k l s, osmEmit l s)

/-- Records written at once, outside the EMIT of the tick in progress (R272, R303). -/
def writeNow (t : Tick) (l : List EmitRec) (s : State) : State :=
  l.foldl (fun s r => match r.ring with
    | some n => handRec n r.typ (markUnits t.marks r.units) r.stamp (some t.seq) s
    | none => s) s

/-- A tick, or what its late records see of one that is FINAL and holds no storage any more. -/
def pastTick (g seq : Nat) (s : State) : Tick :=
  (tickOf s g).getD (
    let m := (lookupK s.aln.past g).getD (false, false)
    { newTick g with seq := seq, st := .final, suspect := m.1, incomplete := m.2 })

/-- The oldest deferred update of set k, or of location (8), is processed (R300). -/
def osmDeferWork (k : Nat) (s : State) : State :=
  if k = 8 then
    match s.osm.locQueue with
    | [] => s
    | x :: q => locationTick x { s with osm := { s.osm with locQueue := q } }
  else match osmSetOf s k with
    | none => s
    | some e => match e.queue with
      | [] => s
      | x :: q =>
        let (s, l) := updateSet k x markDeferred (putSet k { e with queue := q } s)
        let s := writeNow (pastTick x.g x.seq s) (osmEmit l s) (osmDigests k l s)
        if !(l.any fun e => e.1 = 0x40) then s else { s with osm := { s.osm with deferMark := insertN k s.osm.deferMark } }

/-- More deferred updates of a set, or of location, wait. -/
def deferWaits (k : Nat) (s : State) : Bool :=
  if k = 8 then !s.osm.locQueue.isEmpty else match osmSetOf s k with
    | some e => !e.queue.isEmpty
    | none => false

/-! Re-solves (R208, R209, R270) -/

/-- RESOLVE_B of tick g completes: the next revision (R209, R269). -/
def revise (t0 : Tick) (v : Solve) (s : State) : State :=
  match s.lse.sec with
  | none => s
  | some im =>
    let rev := t0.revision + 1
    let s := lseCnt 1 1 (modTick t0.g (fun t => { t with revision := rev }) s)
    let t := { t0 with revision := rev }
    let r := lseAnalyze im s.lse.chiK.toNat t.bind v
    let h := resHead t rev s
    let s := lseTally t0 v r s
    let s := writeNow t ((lseRecords im h r).map fun us => { ring := ringSel im.outRing, typ := recType us, units := us, stamp := none }) s
    reviseAlarms t rev r s

end Sys2Proof.Machine
end

