-- ==== Sys2Proof/Machine/Scheduled.lean ====
section
/-! DEFINITION. What a command does that may be scheduled or mirrored: coefficient loads and key commands (R68, R235, R236, R464 to R471, R498, R499). -/

namespace Sys2Proof.Machine

/-- The module is paired with a peer that follows it (R498). -/
def hasFollower (s : State) : Bool :=
  isActive s && inPair s && (s.pair.peerSt = PairSt.standby.code || s.pair.peerSt = PairSt.syncing.code)

/-! DFC_COEF_LOAD (R235, R236) -/

def chainOf (s : State) (n : Nat) : Option Chain := lookupK s.dfc.chains n

/-- Stored coefficients of a CUSTOM load: h[k] in bits [23:0] of word k. -/
def coefsOf (words : List Word) : List Int := words.map fun w => (BitVec.ofNat 24 w.toNat).toInt
/-- Bits [31:24] equal bit 23. -/
def wordOk (w : Word) : Bool := fld w.toNat 31 24 = if w.getLsbD 23 then 255 else 0

/-- The parameter checks of R235 but for the words. -/
def loadParamOk (s : State) (chain filter n : Nat) : Bool :=
  match chainOf s chain with
  | none => false
  | some c => !c.coefLock && decide (filter ≤ 4) && (decide (filter < 4) || (decide (n % 2 = 1) && decide (n ≤ 255)))

/-- A boundary at or below this grid index is too early for a load accepted now (R236, R237). -/
def loadAfter (s : State) (chain : Nat) : Int :=
  let last : Int := (s.aln.next : Int) - 1
  match s.tkx.cur with
  | none => last
  | some c =>
    if s.tkx.entries.any fun t => t.g = c.g && t.work = .dfc (chain / 256) && !t.started then (c.g : Int) - 1 else last

/-- The staging bank takes a load and the swap pends. -/
def stageLoad (chain filter n : Nat) (words : List Word) (w : Swap) (s : State) : State :=
  let h := if filter < 4 then presetCoefs filter else coefsOf words
  let m := if filter < 4 then presetTaps filter else n
  match chainOf s chain with
  | none => s
  | some c =>
    let s := { s with dfc := { s.dfc with chains := insertK s.dfc.chains chain (c.stage m h w) } }
    mirror (.coefLoad chain m h w.after) s

/-- A load begins: E_BUSY, or its swap pends and it stops blocking its ring (R235, R376). -/
def beginLoad (c : Ctx) (late : Bool) (chain filter n : Nat) (words : List Word) (after : Int) (s : State) : State :=
  match chainOf s chain with
  | none => refuse c .param late s
  | some x =>
    if x.swap.isSome then refuse c .busy late s
    else (fun s => if c.blocks then modRing c.ring (fun r => { r with blocked := false }) s else s) 
      (stageLoad chain filter n words { ctx := some { c with blocks := false }, after := after, late := late, at_ := s.tbu.free } s)

/-! Key commands (R466 to R469, R499) -/

/-- PAIR of the slot a job writes. -/
def KeyJob.pair (s : State) : KeyJob → Bool
  | .upd u => u.new.pair
  | .revoke k => (slotOfKey s k).pair

def KeyJob.isRoll : KeyJob → Bool
  | .upd u => u.roll
  | .revoke _ => false

/-- The job without the host's address, as the peer takes it. -/
def KeyJob.forPeer : KeyJob → KeyJob
  | .upd u => .upd { u with out := none }
  | .revoke k => .revoke k

/-- KEY_OPS and AUTH_FAIL of a command's status (R486). -/
def keyCount (op : Bool) (st : Status) (s : State) : State :=
  match st with
  | .ok => if op then kstCnt 0 1 s else s
  | .auth => kstCnt 1 1 s
  | _ => s

/-- A job writes this module's slot, and its command completes (R466, R467, R499). -/
def endKey (c : Ctx) (late : Bool) (tick : Option Nat) (j : KeyJob) (s : State) : State :=
  match j with
  | .upd u => completeWith c .ok late tick (if u.roll then 0 else u.new.gen * 2 ^ 64) (keyCount true .ok (applyKey u s))
  | .revoke k =>
    let (st, s) := keyRevoke k s
    completeWith c st late tick 0 (keyCount true st s)

/-- A key command that passed its checks: at once, or after the standby where the slot has PAIR = 1 (R499). -/
def startKey (c : Ctx) (late : Bool) (tick : Option Nat) (j : KeyJob) (s : State) : State :=
  if hasFollower s && j.pair s then
    let s := yokeSend (.mirror (.key j.forPeer)) s
    { s with pair := { s.pair with keyPend := s.pair.keyPend ++ [{ ctx := c, job := j, at_ := s.tbu.free, late := late, tick := tick }] } }
  else endKey c late tick j s

def finishKey (c : Ctx) (late : Bool) (tick : Option Nat) (r : KeyOut) (s : State) : State :=
  match r with
  | .fail st => completeWith c st late tick 0 (keyCount true st s)
  | .unread => completeWith c .param late tick 0 (dmaErr s)
  | .upd u => startKey c late tick (.upd u) s

/-- KEY_ROLL with the fields of its descriptor (R468). -/
def rollOf (p : BitVec 384) (blob : Option (List Byte)) (s : State) : KeyOut × State :=
  let n := p.toNat
  prepRoll (fld n 383 378) (BitVec.ofNat 32 (fld n 351 320)) blob (fld n 255 244) (fld n 243 180) s

/-! Scheduled commands (R68, R377) -/

/-- Grid index of the first tick whose Tm is not earlier than a time in TAI ns. -/
def firstTickAt (f ns : Nat) : Nat := ceilDiv (ns * f) 1000000000

/-- The tick at which a pending command is due, seen from a commit of tick g. -/
def dueTick (s : State) (g : Nat) (c : Sched) : Nat := if c.late then g else firstTickAt (frate s) c.atNs

/-- Insert in order of due tick, equal ones in insertion order (R67). -/
def insDue (s : State) (g : Nat) (c : Sched) : List Sched → List Sched
  | [] => [c]
  | x :: r => if dueTick s g c < dueTick s g x then c :: x :: r else x :: insDue s g c r

/-- Commands due at the commit of tick g, in order. -/
def dueSched (s : State) (g : Nat) : List Sched :=
  (s.hif.sched.filter fun c => decide (dueTick s g c ≤ g)).foldl (fun l c => insDue s g c l) []

/-- Lateness of a scheduled time, in 2^-16 ns (R68). -/
def lateness (s : State) (atNs : Nat) : Int := discTime s - ((atNs * fr : Nat) : Int)
/-- PAST_HORIZON in 2^-16 ns. -/
def pastHorizon (s : State) : Int := ((fld s.tkx.pastHorizon.toNat 15 0 * 1000000 * fr : Nat) : Int)
/-- Lateness in whole milliseconds, as the trace takes it. -/
def lateMs (lat : Int) : Nat := (lat / ((1000000 * fr : Nat) : Int)).toNat

/-- A command judged too late: E_PAST (R68). -/
def tooLate (c : Ctx) (lat : Int) (s : State) : State :=
  let s := { s with tkx := { s.tkx with pastCnt := satAdd s.tkx.pastCnt 1 } }
  let s := tkxEvent 5 (traceTick .past (lateMs lat) (lastTickSeq s) 0 s)
  refuse c .past false s

/-- A command judged late: it is counted and waits for the next commit (R68). The trace entries of LATE and PAST stand outside any tick: they take
the last TICK_SEQ, 0xFFFF_FFFF before any, and PHASE 0 (R69; DESIGN CHOICE, log 150). -/
def judgedLate (lat : Int) (s : State) : State :=
  let s := { s with tkx := { s.tkx with lateCnt := satAdd s.tkx.lateCnt 1 } }
  tkxEvent 4 (traceTick .late (lateMs lat) (lastTickSeq s) 0 s)

/-- One pending command after a forward step (R68). -/
def rejudge (s : State) (c : Sched) : State :=
  let l := lateness s c.atNs
  if c.late || decide (l ≤ 0) then { s with hif := { s.hif with sched := s.hif.sched ++ [c] } }
  else if pastHorizon s ≤ l then tooLate c.ctx l s
  else
    let s := judgedLate l s
    { s with hif := { s.hif with sched := s.hif.sched ++ [{ c with late := true }] } }

/-- Pending commands whose first tick lies in one of these SKIPPED groups are not late for that reason (R68). -/
def skipCovers (s : State) (c : Sched) : Bool :=
  let g := firstTickAt (frate s) c.atNs
  s.aln.skips.any fun x => decide (x.a ≤ g ∧ g ≤ x.b)

def rejudgeAll (s : State) : State :=
  s.hif.sched.foldl (fun s c => if skipCovers s c then { s with hif := { s.hif with sched := s.hif.sched ++ [c] } } else rejudge s c)
    { s with hif := { s.hif with sched := [] } }

end Sys2Proof.Machine
end

