-- ==== Sys2Proof/Machine/Tick.lean ====
section
/-! DEFINITION. A tick from its commit to the end of EMIT: phases, D1 and D2, overrun, records, header, MAINTENANCE after it (R32, R43 to R60). -/

namespace Sys2Proof.Machine

/-- The tick in progress as the window holds it. -/
def curTick (s : State) (c : Cur) : Tick := pastTick c.g c.seq s

/-! Deadlines (R46) -/

def budgetFr (s : State) (k : Nat) : Nat := nth s.tkx.budget k 0 * 1000 * fr
/-- Deadline of phase k of 1 to 4. -/
def phaseDeadline (s : State) (c : Cur) (k : Nat) : Nat := c.at_ + sumN ((List.range k).map (budgetFr s))
def sepDeadline (s : State) (c : Cur) : Nat := c.at_ + budgetFr s 0 + budgetFr s 4

/-- Entries whose result is still to come: not ended, or ended and not released (R66). -/
def openWork (s : State) : List TEntry := s.tkx.entries ++ unreleased s
/-- Work of the phase in progress remains. -/
def phaseBusy (s : State) (c : Cur) : Bool := (openWork s).any fun t => t.g = c.g && t.work.phase = c.phase
/-- SEP work of the tick remains. -/
def sepBusy (s : State) (c : Cur) : Bool := (openWork s).any fun t => t.g = c.g && t.work = .sep

def isDfc : Work → Bool
  | .dfc _ => true
  | _ => false
/-- Ports that have a task for their frames. -/
def emitPorts (s : State) : List Nat := s.tkx.tasks.filterMap fun c => match c.work with
  | .emitPort p => some p
  | _ => none

/-- Port EMIT completed in the tick (R60): not where level 4 moved it out of the tick (R53), and with the rings' EMIT where the image gives no
port task. -/
def portsDone (s : State) (c : Cur) : Bool :=
  !c.framesHeld && (if (emitPorts s).isEmpty then c.doneRings else (emitPorts s).all fun p => c.donePorts.contains p)

/-- All 16 DFC tasks of the tick completed (R233). -/
def dfcDone (c : Cur) : Bool := (List.range 16).all fun k => c.doneDfc.contains k

/-- ENGINES_DONE (R60): DFC, LSE, OSM, SEP, rings, ports. -/
def enginesDone (s : State) (c : Cur) : Nat :=
  packFields [(0, 1, b2n (dfcDone c)), (1, 1, b2n (s.lse.sec.isNone || c.doneAna)),
    (2, 1, b2n (!c.osmDefer && c.osmDue.all fun k => c.doneOsm.contains k)), (3, 1, b2n c.doneSep), (4, 1, b2n c.doneRings),
    (5, 1, b2n (portsDone s c))]

/-! The two decisions (R48) -/

/-- One millisecond in 2^-16 ns. -/
def msFr : Nat := 1000000 * fr

/-- min(2 T, 20 ms) - 1.0 ms in 2^-16 ns: the mark limit after the commit (R447). -/
def markLimit (s : State) : Nat := min (2 * secFr / frate s) (20 * msFr) - msFr

/-- A decision taken now is taken after its mark limit. -/
def pastLimit (s : State) (c : Cur) : Bool := c.lateMark || decide (c.at_ + markLimit s < s.tbu.free)

/-- D1 with the conditions of the engines that completed. -/
def takeD1 (s : State) : State :=
  match s.tkx.cur with
  | none => s
  | some c => if c.d1 then s else decideD1 (curTick s c) (dfcDone c) (modCur (fun c => { c with d1 := true, lateMark := pastLimit s c }) s)

/-- OSM updates of the tick were not all completed: some are left, or the engine was removed (R56, R57). -/
def osmStopped (s : State) (c : Cur) : Bool := engineLeft 8 c s || c.gone.contains 8

def takeD2 (s : State) : State :=
  match s.tkx.cur with
  | none => s
  | some c => if c.d2 then s else decideD2 (curTick s c) c.lseRes (!(osmStopped s c)) (modCur (fun c => { c with d2 := true, lateMark := pastLimit s c }) s)

/-! Records of EMIT (R60, R214, R500) -/

/-- A record of the tick in progress is written with its marks; OSM records have a digest of their own (R502). -/
def putRec (t : Tick) (s : State) (r : EmitRec) : State :=
  match r.ring with
  | none => s
  | some n =>
    let us := markUnits t.marks r.units
    let s := if decide (0x40 ≤ r.typ ∧ r.typ ≤ 0x42) then s else keepDigest r.typ us s
    handRec n r.typ us r.stamp (some t.seq) (noteRing n t.seq s)

/-- One ALIGNED record; arrival fields and DUP_COUNT are left out of the digest (R214, R217). -/
def putAligned (t : Tick) (s : State) (e : Nat × EpEntry) : State :=
  match ringSel (nth s.aln.outRing e.2.system 0) with
  | none => s
  | some n =>
    let v := lookupK t.view e.1
    let us := fun (v : Option EpVal) (dup : Nat) => markUnits t.marks (alignedUnits (frate s) t e.2 v dup)
    let s := keepDigest 0x10 (us (v.map fun v => { v with arrTs := 0, arrEpoch := 0 }) 0) s
    handRec n 0x10 (us v (((lookupK t.eps e.1).map EpVal.dup).getD 0)) (v.map EpVal.arrFree) (some t.seq) (noteRing n t.seq s)

/-- The ring records of the tick in progress: ALIGNED by endpoint, then the engines' in the order in which they arose. -/
def writeRecs (s : State) : State :=
  match s.tkx.cur with
  | none => s
  | some c =>
    if c.doneRings then s else
    let t := curTick s c
    let late := if s.lse.sec.isSome && c.lseRes.isNone then lseRecs t c.invFail none s else []
    let s := (tickEps s).foldl (putAligned t) s
    (c.recs ++ late).foldl (putRec t) s

/-- Durations of phases 1 to 4; a phase that did not end has none stated: free (R60, log 2). -/
def durations (c : Cur) (s : State) : List Nat × State :=
  let (k, s) := drawFree s
  ((List.range 4).map fun i => match c.durs[i]? with
    | some d => satN 16 d
    | none => fld (Config.freeBits k).toNat (16 * i + 15) (16 * i), s)

/-- TICK_HEADER (R60); `dig` as the pair digest takes it. -/
def headerUnits (f : Nat) (t : Tick) (c : Cur) (done marks : Nat) (durs : List Nat) (dig : Bool) : List Unit512 :=
  let z := fun (v : Nat) => if dig then 0 else v
  [unitOf (hdr 1 1 marks ++ [(384, 16, z (nth durs 3 0)), (368, 16, z (nth durs 2 0)), (352, 16, z (nth durs 1 0)), (336, 16, z (nth durs 0 0)),
    (320, 16, 1), (288, 32, z t.commitTs), (256, 32, t.seq), (224, 32, tmNs f t.g), (176, 48, tmSec f t.g), (168, 8, t.epoch),
    (160, 6, if dig then done &&& 0x1B else done), (156, 4, t.cause), (152, 4, z c.shed), (128, 16, marks)])]

/-- TICK_MARKS of the header: TOPOLOGY_APPROX too (R255), and INVALID in SAFE (R58). -/
def headerMarks (s : State) (t : Tick) : Nat :=
  t.marks ||| (if s.lse.sec.isSome && t.bind.approx then markApprox else 0) ||| (if s.sys.runState = .safe then markInvalid else 0)

/-- The header goes last to every ring that received records of the tick, and the tick's digest to the peer (R60, R500). -/
def writeHeader (done : Nat) (s : State) : State :=
  match s.tkx.cur with
  | none => s
  | some c =>
    let t := curTick s c
    let (durs, s) := if c.durs.length = 4 then (c.durs.map (satN 16), s) else durations c s
    let m := headerMarks s t
    let us := headerUnits (frate s) t c done m durs false
    let s := c.rings.foldl (fun s n => handRec n 1 us (some c.at_) (some c.seq) s) s
    let recs := c.dig ++ (if c.rings.isEmpty then [] else [(1, headerUnits (frate s) t c done m durs true)])
    if s.pair.st = .unpaired then s else tickDigest c.seq (digest64 (orderType recs)) (c.skip || t.incomplete) t.suspect s

/-- The tick in progress is over. -/
def dropCur (s : State) : State :=
  match s.tkx.cur with
  | none => s
  | some c => releaseTick c.g { s with tkx := { s.tkx with cur := none, phase := 5 } }

/-! FINAL (R203, R336, R502) -/

/-- One SPECULATIVE tick becomes FINAL, with the confirmations of its alarms and its last digest. -/
def makeFinal (cause : Nat) (s : State) (g : Nat) : State :=
  let was := (tickOf s g).any fun t => t.st = .spec
  let s := finalizeTick cause g s
  match tickOf s g with
  | some t => if was then releaseTick g (confirmAlarms t (finalDigest t s)) else s
  | none => s

/-- TICK_FINAL: every tick whose FINAL instant has come, in tick order (R203). -/
def finalizeDue (s : State) : State :=
  let s := advanceFront s
  (dueFinals s).foldl (makeFinal 0) s

/-! MAINTENANCE (R32, R34, R206, R301, R339, R377) -/

/-- Opcode of a scheduled command, and whether it is legal in MAINTENANCE (R374). -/
def SchedCmd.inMaint : SchedCmd → Bool
  | .keyRoll _ _ _ => true
  | _ => false

/-- Scheduled commands not legal in MAINTENANCE complete with E_STATE (R377). -/
def dropIllegal (s : State) : State :=
  let bad := s.hif.sched.filter fun c => !c.cmd.inMaint
  let s := { s with hif := { s.hif with sched := s.hif.sched.filter fun c => c.cmd.inMaint } }
  let s := bad.foldl (fun s c => refuse c.ctx .state false s) s
  match s.pair.switchAt with
  | some c => complete c.1 .state { s with pair := { s.pair with switchAt := none } }
  | none => s

/-! Phases (R44, R51) -/

def startPhase (k : Nat) (s : State) : State :=
  modCur (fun c => { c with phase := k, phaseAt := s.tbu.free }) { s with tkx := { s.tkx with phase := k } }

/-- End of COMMIT: the slot may be released, DFC records are complete; SOLVE begins. -/
def startSolve (c : Cur) (s : State) : State :=
  let s := modTick c.g (fun t => { t with commitDone := true }) s
  let s := modCur (fun d => { d with recs := d.recs ++ dfcRecs (curTick s c) s }) (startPhase 2 s)
  readyAll (fun w => (w = .sep && !(c.gone.contains 9)) || (w = .lseSolve && s.lse.sec.isSome && !(c.gone.contains 7))) c.g c.seq s

/-- Deferred updates of set k, or of location (8), run in SLACK (R300). -/
def readyDefer (k g seq : Nat) (s : State) : State :=
  if s.tkx.entries.any fun t => t.work = .osmDeferred k then s else readyAll (· = .osmDeferred k) g seq s

/-- Shed level 2 is in force. -/
def osmShed (s : State) : Bool := s.tkx.shedLevels.testBit 1

/-- The inputs of an update due in tick t are queued: set k, or location (8) (R300). -/
def deferUpdate (t : Tick) (k : Nat) (s : State) : State :=
  let s := modCur (fun d => { d with osmDefer := true }) s
  let s := if k = 8 then deferLoc (locRead s.osm t.g t.view) s else match osmSetOf s k with
    | some e => deferSet k (osmInputs s e t.g t.seq) s
    | none => s
  readyDefer k t.g t.seq s

/-- OSM updates due in a tick: sets whose boundary it is, and location (8) (R299). -/
def osmDueAt (s : State) (g : Nat) : List Nat := (List.range 8).filter (fun k => osmBoundary s k g) ++ (if locActive s then [8] else [])

/-- The update runs in the tick: neither shed nor behind queued ones (R300). -/
def osmRuns (s : State) (k : Nat) : Bool := !(osmShed s || deferWaits k s)

/-- A set's identification that was due in a cancelled update is carried (R301). -/
def carryDue (g k : Nat) (s : State) : State := if k = 8 then s else carryId k g s

/-- ANALYZE begins: LSE_ANALYZE and the OSM updates that run in the tick are made ready together; the others are queued. An engine removed
from the tick leaves its share (R57, R301). -/
def startAnalyze (c : Cur) (s : State) : State :=
  let s := startPhase 3 s
  let due := osmDueAt s c.g
  let gone := c.gone.contains 8
  let run := if gone then [] else due.filter (osmRuns s)
  let lse := c.doneSolve && s.lse.work.isSome && !(c.gone.contains 7)
  let late := if gone then [] else due.filter fun k => !(osmRuns s k)
  let t := curTick s c
  let s := modCur (fun d => { d with osmDue := due }) s
  let s := if gone then due.foldl (fun s k => carryDue c.g k s) s else s
  let s := late.foldl (fun s k => deferUpdate t k s) s
  readyAll (fun w => match w with
    | .lseAnalyze => lse
    | .osm k => run.contains k
    | .osmLocation => run.contains 8
    | _ => false) c.g c.seq s

/-- Shed level 4 is in force. -/
def portsShed (s : State) : Bool := s.tkx.shedLevels.testBit 3

/-- An entry of a port's EMIT task goes on as SLACK work, at its place in the port's ordered flow (R53, R62, R66; log 150). -/
def slackEntry (g : Nat) (t : TEntry) : TEntry :=
  match t.work with
  | .emitPort p => if t.g = g then { t with work := .shedPort p, prio := Work.prio (.shedPort p) } else t
  | _ => t

/-- Level 4: the tick's port frames that have not left move to SLACK. Those not handed over yet are built now; those in the FIFO are held. -/
def moveToSlack (c : Cur) (s : State) : State :=
  let mine := (openWork s).filter fun t => t.g = c.g && (match t.work with | .emitPort _ => true | _ => false)
  let s := { s with tkx := { s.tkx with
    entries := s.tkx.entries.map (slackEntry c.g)
    flows := s.tkx.flows.map fun f => (f.1, { f.2 with done := f.2.done.map fun d => (slackEntry c.g d.1, d.2) }) } }
  let s := mine.foldl (fun s t => match portOfWork t.work with
    | some p => if t.fed then limitHeld (mateOf p) (limitHeld p (markHeld (mateOf p) c.g (markHeld p c.g s))) else shedPortFrames (curTick s c) p s
    | none => s) s
  modCur (fun d => { d with framesHeld := d.framesHeld || !mine.isEmpty }) s

/-- End of ANALYZE: D2, then EMIT, which a module in SYNCING has not (R493, R494). -/
def startEmit (c : Cur) (s : State) : State :=
  let s := startPhase 4 (takeD2 s)
  if s.pair.st = .syncing then s else
  let s := readyAll (fun w => match w with
    | .emitRings => true
    | .emitPort _ => true
    | _ => false) c.g c.seq s
  let s := if emits s && !(emitPorts s).isEmpty then { s with pair := { s.pair with toMark := s.pair.toMark ++ [(c.g, c.seq)] } } else s
  if portsShed s then moveToSlack c s else s

/-- End of EMIT. A table without a task for the ring records leaves them to this instant. -/
def finishEmit (s : State) : State :=
  match s.tkx.cur with
  | none => s
  | some c =>
    let s := if s.pair.st = .syncing || c.doneRings then s else modCur (fun c => { c with doneRings := true }) (writeRecs s)
    match s.tkx.cur with
    | none => s
    | some c => dropCur (writeHeader (enginesDone s c) s)

/-- A phase ends: duration, deadline, the next phase. -/
def endPhase (c : Cur) (s : State) : State :=
  let us := (s.tbu.free - c.phaseAt) / (1000 * fr)
  let limit := phaseDeadline s c c.phase
  let s := if limit < s.tbu.free then phaseLate none c.phase (s.tbu.free - limit) c.seq s else s
  let s := modCur (fun d => { d with durs := d.durs ++ [us] }) (phaseMax c.phase us s)
  match c.phase with
  | 1 => startSolve c s
  | 2 => startAnalyze c s
  | 3 => startEmit c s
  | _ => finishEmit s

/-- One move of the tick in progress that needs no event: D1, or the end of a phase whose work is done. -/
def settleStep (s : State) : State :=
  match s.tkx.cur with
  | none => s
  | some c =>
    if decide (2 ≤ c.phase) && !c.d1 && !(sepBusy s c) then takeD1 s
    else if phaseBusy s c then s
    else endPhase c s

def settleN : Nat → State → State
  | 0, s => s
  | k + 1, s => settleN k (settleStep s)

/-! Results (R56, R66) -/

/-- Some tick's share of a result, while that tick is in progress. -/
def inCur (e : TEntry) (f : Cur → Tick → State → State) (s : State) : State :=
  match s.tkx.cur with
  | some c => if c.g = e.g then f c (curTick s c) s else s
  | none => s

/-- A port's frames are handed over, or leave SLACK. -/
def feedPort (e : TEntry) (s : State) : State :=
  match e.work with
  | .emitPort p => inCur e (fun _ t s => emitPortFrames t p s) s
  | .shedPort p => unshed p e.g s
  | _ => s

/-- A re-solve of tick g took its revision: a pending re-ready starts the next (R65, R209, R270). -/
def againResolve (e : TEntry) (t : Tick) (s : State) : State :=
  if !e.reReady then s
  else if t.revision + 1 = 15 then alnEvent 5 (alnCnt 8 1 s)
  else readyAll (· = .resolveA) e.g t.seq s

/-- What a completed task gives once its result is released (R66): its engine's state is written back then (R56). -/
def effect (e : TEntry) (s : State) : State :=
  match e.work with
  | .dfc k => inCur e (fun _ t s => modCur (fun c => { c with doneDfc := k :: c.doneDfc }) (dfcGroup t k s)) s
  | .sep => inCur e (fun _ t s =>
      let r := sepWork t s
      modCur (fun c => { c with doneSep := true, recs := c.recs ++ r.2 }) r.1) s
  | .lseSolve => inCur e (fun _ _ s => modCur (fun c => { c with doneSolve := true }) s) s
  | .lseAnalyze => inCur e (fun _ t s => match s.lse.work with
      | some v =>
        let r := analyzeTick t v s
        modCur (fun c => { c with doneAna := true, lseRes := r.1, recs := c.recs ++ lseRecs t false r.1 r.2 }) r.2
      | none => s) s
  | .osm k => inCur e (fun _ t s =>
      let r := osmWork t k s
      modCur (fun c => { c with doneOsm := k :: c.doneOsm, recs := c.recs ++ r.2 }) r.1) s
  | .osmLocation => inCur e (fun _ t s => modCur (fun c => { c with doneOsm := 8 :: c.doneOsm }) (locationTick (locRead s.osm t.g t.view) s)) s
  | .emitRings => inCur e (fun _ _ s => modCur (fun c => { c with doneRings := true }) (writeRecs s)) s
  | .emitPort p => modCur (fun c => if c.g = e.g then { c with donePorts := p :: c.donePorts } else c) (if e.fed then s else feedPort e s)
  | .shedPort _ => if e.fed then s else feedPort e s
  | .resolveA => match tickOf s e.g with
    | some t =>
      let s := readyAll (· = .resolveB) e.g t.seq s
      if e.reReady then setEntries (s.tkx.entries.map fun x => if x.g = e.g && x.work = .resolveB then { x with reReady := true } else x) s else s
    | none => s
  | .resolveB => match tickOf s e.g, s.lse.rework.find? fun v => v.g = e.g with
    | some t, some v => againResolve e t (revise t v { s with lse := { s.lse with rework := s.lse.rework.filter fun v => v.g ≠ e.g } })
    | _, _ => s
  | .osmDeferred k =>
    let s := osmDeferWork k s
    if deferWaits k s then readyDefer k e.g e.seq s else s
  | .geAgg => geAggNext s
  | .house => s

/-- Entries of flows are released in order, each with its result (R66); `fuel` bounds them. -/
def releaseN : Nat → State → State
  | 0, s => s
  | k + 1, s =>
    match dueFlow s with
    | none => s
    | some (n, t, result) => releaseN k (if result then effect t (releaseEntry n t s) else releaseEntry n t s)

def releaseAll (s : State) : State := releaseN (sumN (s.tkx.flows.map fun f => f.2.done.length)) s

/-- The transition to MAINTENANCE, after EMIT of the last committed tick. -/
def enterMaint (s : State) : State :=
  match s.sys.maintPend with
  | none => s
  | some (c, late) =>
    let s := (s.aln.ticks.filter fun t => t.st = .spec).foldl (fun s t => makeFinal 1 s t.g) s
    let s := (s.aln.ticks.filter fun t => t.st = .opn).foldl (fun s t => discardOpen t.g s) s
    let s := dropQueues (endAlarms s)
    let s := { s with
      aln := { s.aln with placing := false, ticks := [], past := [], skips := [] }
      -- Open seconds are not aggregated: no data record in MAINTENANCE (R33; log 25).
      ge := { s.ge with running := false, buckets := [], ready := [] } }
    let s := releaseAll (cancelWhere (fun t => t.work = .geAgg || (match t.work with | .osmDeferred _ => true | _ => false)) 0 s)
    let s := dropIllegal (setRunState .maintenance 0x04 { s with sys := { s.sys with maintPend := none } })
    let s := drivePins s
    match c with
    | some c => completeWith c .ok late s.tkx.lastSeq 0 s
    | none => s

/-- MAINT_ENTER waits for the tick in progress; with none it takes place at once. It leaves RUN only. -/
def maintWhenIdle (s : State) : State := if s.tkx.cur.isNone && s.sys.runState = .run then enterMaint s else s

/-- The tick in progress moves as far as it can; MAINTENANCE follows it. -/
def settle (s : State) : State := marksDue (maintWhenIdle (settleN 8 (releaseAll s)))

/-! TICK_OVERRUN (R56) -/

/-- OSM updates due in the tick that were neither completed nor queued leave their identification to the next (R301). -/
def carryLeft (c : Cur) (s : State) : State :=
  let due := if c.phase < 3 then osmDueAt s c.g else []
  let left := due ++ (openWork s).filterMap fun t => if t.g = c.g then (match t.work with
    | .osm k => some k
    | _ => none) else none
  modCur (fun d => { d with osmDue := d.osmDue ++ due }) (left.foldl (fun s k => carryDue c.g k s) s)

def overrun (s : State) : State :=
  match s.tkx.cur with
  | none => s
  | some c0 =>
    -- Records of the decisions taken here are emitted from this instant on, so they carry INCOMPLETE too.
    let s := takeD2 (takeD1 (modTick c0.g (fun t => { t with incomplete := true }) s))
    match s.tkx.cur with
    | none => s
    | some c =>
      let s := carryLeft c s
      let s := releaseAll (cancelWhere (fun t => t.g = c.g && decide (t.work.phase < 5)) 3 s)
      let s := if c.phase = 1 then modCur (fun d => { d with recs := d.recs ++ dfcRecs (curTick s c) s }) s else s
      let s := modTick c.g (fun t => { t with commitDone := true }) (modCur (fun d => { d with incomplete := true }) s)
      match s.tkx.cur with
      | none => s
      | some c =>
        let done := enginesDone s c
        let s := { s with
          tkx := { s.tkx with overrunCnt := satAdd s.tkx.overrunCnt 1 }, lse := { s.lse with work := none }
          pair := { s.pair with toMark := if portsDone s c || c.framesHeld then s.pair.toMark else s.pair.toMark.filter fun m => m.2 ≠ c.seq } }
        let s := tkxEvent 2 (traceTick .overrun done c.seq c.phase s)
        let s := logEv 0x21 10 2 (argOf [(256, 32, c.seq), (250, 6, done)]) s
        let s := raiseFault (FaultIn.plain 0x07 10) s
        dropCur (writeHeader done (if s.pair.st = .syncing then s else writeRecs s))

/-! Completions of tasks (R51, R63) -/

/-- A task that runs for the tick in progress. -/
def runningCur (p : Work → Bool) (s : State) : Option (TEntry × Cur × Tick) :=
  match s.tkx.cur, runningWork p s with
  | some c, some e => if e.g = c.g then some (e, c, curTick s c) else none
  | _, _ => none

/-- A task completes: at once its result where it has no flow, else in the flow's order; a restarted engine's window may close; the tick
moves on. -/
def completeTask (e : TEntry) (s : State) : State :=
  let s := engineTaskDone e.work (finishTask e s)
  settle (if e.flow.isNone then effect e s else s)

/-- A task whose own pending re-ready starts other work: it does not enter its list again. -/
def completeOnce (e : TEntry) (s : State) : State :=
  let s := match e.flow with
    | none => finishTask { e with reReady := false } s
    | some n => setFlow n { flowOf s n with done := (flowOf s n).done ++ [(e, true)] } (traceTask .complete 0 e (dropEntry e s))
  settle (if e.flow.isNone then effect e (engineTaskDone e.work s) else engineTaskDone e.work s)

/-- The running task of the tick in progress that does some work completes. -/
def completeCur (w : Work) (s : State) : State :=
  match runningCur (· = w) s with
  | none => s
  | some (e, _, _) => completeTask e s

/-- DFC_COMMIT_TASK_COMPLETE. -/
def dfcComplete (grp : Nat) (s : State) : State := completeCur (.dfc grp) s

/-- SEP_TASK_COMPLETE: a SEP past its own deadline is PHASE_LATE (R51). -/
def sepComplete (s : State) : State :=
  match runningCur (· = .sep) s with
  | none => s
  | some (e, c, _) =>
    let limit := sepDeadline s c
    completeTask e (if limit < s.tbu.free then phaseLate (some e) 2 (s.tbu.free - limit) c.seq s else s)

/-- LSE_SOLVE_COMPLETE; `bad` where the check unit found the invariant broken beside what the arithmetic says. -/
def solveComplete (bad : Bool) (s : State) : State :=
  match runningCur (· = .lseSolve) s with
  | none => s
  | some (e, _, t) =>
    match solveTick t 0 t.view s with
    | none => completeTask e s
    | some (v, ok) =>
      if ok && !bad then completeTask e { s with lse := { s.lse with work := some v } }
      else
        let s := lseInvariant s
        let again := s.tkx.entries.any fun t => sameEntry t e && t.st = .ready
        let s := if again then s else modCur (fun c => { c with invFail := true, incomplete := true })
          (modTick t.g (fun t => { t with incomplete := true }) (cancelWhere (sameEntry e) 2 s))
        settle s

/-- LSE_ANALYZE_COMPLETE. -/
def analyzeComplete (s : State) : State := completeCur .lseAnalyze s

/-- OSM_UPDATE_COMPLETE. -/
def osmComplete (k : Nat) (s : State) : State := completeCur (.osm k) s

/-- OSM_LOCATION_COMPLETE. -/
def locComplete (s : State) : State := completeCur .osmLocation s

/-- OSM_DEFERRED_UPDATE: the oldest queued update of set k, or of location (8); another that waits makes the task ready again. -/
def osmDeferComplete (k : Nat) (s : State) : State :=
  match runningWork (· = .osmDeferred k) s with
  | none => s
  | some e => completeTask e s

/-- GE_AGGREGATION: the task completes for the oldest closed second. -/
def geAggTask (s : State) : State :=
  match runningWork (· = .geAgg) s with
  | none => s
  | some e => if s.ge.ready.isEmpty then s else completeTask e s

/-- The entry is the next of its flow to be released, or has none. -/
def atHead (s : State) (e : TEntry) : Bool := match e.flow with
  | none => true
  | some n => (flowOf s n).release = e.flowSeq

/-- EMIT of a port's frames: those next in the port's ordered flow are handed over, and the task goes on while some wait for room in the
transmit FIFO; a paused port makes no progress (R52, R125, R176). -/
def emitPortComplete (p : Nat) (e : TEntry) (s : State) : State :=
  if pausedNow s p then s else
  let s := accountEmits s
  let feed := !e.fed && atHead s e
  let s := if feed then feedPort e s else s
  let e := { e with fed := e.fed || feed }
  let s := updEntry e (fun x => { x with fed := e.fed }) s
  if fifoBlocked s e p then s else completeTask e s

/-- EMIT_COMPLETE of the ring records, or of a port's frames. -/
def emitComplete (part : Option Nat) (s : State) : State :=
  match part with
  | none => completeCur .emitRings s
  | some p =>
    match runningWork (fun w => portOfWork w = some p) s with
    | none => s
    | some e => emitPortComplete p e s

/-- The running re-solve task of tick g. -/
def runningResolve (w : Work) (g : Nat) (s : State) : Option TEntry := findEntry (fun t => t.st = .running && t.work = w && t.g = g) s

/-- RESOLVE_A_COMPLETE (R270). -/
def resolveAComplete (g : Nat) (bad : Bool) (s : State) : State :=
  match runningResolve .resolveA g s, tickOf s g with
  | some e, some t =>
    match solveTick t t.rsCover t.rsView s with
    | none => completeOnce { e with reReady := false } s
    | some (v, ok) =>
      if ok && !bad then completeOnce e { s with lse := { s.lse with rework := s.lse.rework ++ [v] } }
      else settle (lseInvariant (cancelWhere (sameEntry e) 2 s))
  | _, _ => s

/-- RESOLVE_B_COMPLETE (R209, R270). -/
def resolveBComplete (g : Nat) (s : State) : State :=
  match runningResolve .resolveB g s, tickOf s g, s.lse.rework.find? fun v => v.g = g with
  | some e, some _, some _ => completeOnce e s
  | _, _, _ => s

/-! The projection (R52, R53) -/

/-- Tasks of the phases still to begin, that are due in the tick. -/
def laterTasks (s : State) (c : Cur) : List TaskCfg :=
  let solve := decide (c.phase < 2) || c.doneSolve || (openWork s).any fun t => t.g = c.g && t.work = .lseSolve
  s.tkx.tasks.filter fun x => decide (c.phase < x.work.phase ∧ x.work.phase < 5) && !(c.gone.any fun d => x.work.domain = some d) &&
    match x.work with
    | .lseSolve => s.lse.sec.isSome
    | .lseAnalyze => s.lse.sec.isSome && solve
    | .osm k => osmBoundary s k c.g && osmRuns s k
    | .osmLocation => locActive s && osmRuns s 8
    | .emitRings => s.pair.st ≠ .syncing
    | .emitPort _ => s.pair.st ≠ .syncing && !(portsShed s)
    | _ => true

/-- Largest remaining declared cost over the units, in 2^-16 ns. -/
def maxLeft (s : State) (c : Cur) : Nat :=
  let mine := s.tkx.entries.filter fun t => t.g = c.g && decide (c.phase ≤ t.work.phase ∧ t.work.phase < 5)
  let later := laterTasks s c
  maxN ((List.range 64).map fun u =>
    sumN ((mine.filter fun t => t.unit = u).map (remainNow s)) + sumN ((later.filter fun x => x.unit = u).map fun x => x.cost * 1000 * fr))

/-- The OSM update an entry does: a set, or location (8). -/
def updateOf (t : TEntry) : Option Nat := match t.work with
  | .osm k => some k
  | .osmLocation => some 8
  | _ => none

/-- An entry ends by shedding: a re-solve leaves what its first part found, an OSM update's inputs are queued (R53). -/
def shedEntry (t : TEntry) (s : State) : State :=
  let s := cancelOne 1 t s
  match updateOf t with
  | some k => deferUpdate (pastTick t.g t.seq s) k s
  | none => { s with lse := { s.lse with rework := s.lse.rework.filter fun v => v.g ≠ t.g } }

/-- Shedding cancels entries: one that runs is abandoned when the cycle ends (R65). -/
def shedWhere (p : TEntry → Bool) (s : State) : State :=
  (s.tkx.entries.filter p).foldl (fun s t => if t.st = .running then cancelSoon 1 t s else shedEntry t s) s

/-- What a shed level does at once (R53). Level 3 holds a running aggregation back without a trace entry of its own: R70 names the preempting
task, and there is none (DESIGN CHOICE, log 150). -/
def shedWork (k : Nat) (c : Cur) (s : State) : State :=
  match k with
  | 1 => shedWhere (fun t => t.work = .resolveA || t.work = .resolveB) s
  | 2 => shedWhere (fun t => t.g = c.g && (updateOf t).isSome) s
  | 3 =>
    setEntries (s.tkx.entries.map fun t => if t.work = .geAgg && t.st = .running then
      { t with st := .preempted, remain := remainNow s t } else t) s
  | _ => if c.phase < 4 then s else moveToSlack c (accountEmits s)

/-- HELM_PROJECTION: Pf against the EMIT deadline; at most one level (R52 to R54). -/
def projection (s : State) : State :=
  match s.tkx.cur with
  | none => s
  | some c =>
    if decide (s.tbu.free + maxLeft s c ≤ phaseDeadline s c 4) then s else
    match (List.range 4).find? fun i => !(s.tkx.shedLevels.testBit i) with
    | none => s
    | some i =>
      let s := { s with tkx := { s.tkx with
        shedLevels := s.tkx.shedLevels + 2 ^ i, shedCnt := modAt s.tkx.shedCnt i (satAdd · 1) } }
      let s := modCur (fun d => { d with shed := d.shed + 2 ^ i }) s
      let s := tkxEvent 1 (traceTick .shed (i + 1) c.seq c.phase s)
      settle (shedWork (i + 1) c s)

/-! The end of a cycle (R63, R65, R237, R346) -/

/-- Running entries that shedding cancelled in this cycle and that did not complete in it are abandoned (R65). -/
def reap (s : State) : State :=
  let l := s.tkx.entries.filter fun t => t.dying.isSome
  if l.isEmpty then s else settle (l.foldl (fun s t => shedEntry t s) s)

/-- A load accepted in the cycle in which its group's COMMIT task is first dispatched waits for the next boundary, on the peer too (R237). -/
def holdLoads (before : List TEntry) (s : State) : State :=
  (s.tkx.entries.filter fun t => isDfc t.work && t.started && before.any fun b => sameEntry b t && !b.started).foldl (fun s t =>
    s.dfc.chains.foldl (fun s x =>
      match x.2.swap with
      | some w =>
        if t.work = .dfc (x.1 / 256) && w.ctx.isSome && w.at_ = s.tbu.free && decide (w.after < (t.g : Int)) then
          let s := { s with dfc := { s.dfc with chains := insertK s.dfc.chains x.1 { x.2 with swap := some { w with after := t.g } } } }
          mirror (.coefLoad x.1 (if x.2.actB then x.2.nA else x.2.nB) (if x.2.actB then x.2.bankA else x.2.bankB) t.g) s
        else s
      | none => s) s) s

/-- A CORE cycle ends: cancelled work goes, units take their next tasks, and each frame group whose dataset changed sends once. -/
def endCycle (s : State) : State :=
  let s := reap s
  refreshGroups (holdLoads s.tkx.entries (schedule (urgency s) s))

/-- The cycle in progress ends and `dt` passes; with `dt` 0 the commands share one cycle (log 135). -/
def elapse (dt : Nat) (s : State) : State := passTime dt (if dt = 0 then s else endCycle s)

end Sys2Proof.Machine
end

