-- ==== Sys2Proof/Machine/Commit.lean ====
section
/-! DEFINITION. The commit of a tick, SKIPPED groups, what a time step does to the window (R40 to R43, R59, R68, R199 to R206, R254, R442, R493, R495, R507). -/

namespace Sys2Proof.Machine

/-! Snapshot for a joining peer (R493, R494) -/

/-- Swaps without their descriptors, which are this module's. -/
def bareChains (l : List (Nat × Chain)) : List (Nat × Chain) :=
  l.map fun c => (c.1, { c.2 with swap := c.2.swap.map fun w => { w with ctx := none } })

def enginesOf (s : State) : Engines :=
  { chains := bareChains s.dfc.chains, hold := s.lse.hold, holdSeq := s.lse.holdSeq, lastVar := s.lse.lastVar, osm := s.osm,
    zones := s.sep.zones, systems := s.sep.systems, ala := s.ala }

def pairSlots (s : State) : List (Nat × Slot) := (s.kst.slots.zipIdx.filter fun x => x.1.pair).map fun x => (x.2, x.1)

/-- At the first commit after verification the active sends the snapshot, or the slots alone to a peer that joins cold. -/
def sendSnapshot (g : Nat) (s : State) : State :=
  if isActive s && s.pair.verified && s.pair.gs.isNone && s.pair.peerSt = PairSt.syncing.code then
    let x : Snapshot := { g := g, slots := pairSlots s, engines := if s.pair.cold then none else some (enginesOf s) }
    yokeSend (.snapshot x) { s with pair := { s.pair with gs := some g } }
  else s

/-! The commit -/

/-- A placed value as a packet, for an amendment of what a mark left out (R495). -/
def asPkt (ep : Nat) (v : EpVal) : Pkt :=
  { ep := ep, tm := 0, vals := v.vals, flags := v.flags, arrTs := v.arrTs, arrEpoch := v.arrEpoch, arrFree := v.arrFree, lan := 0, port := 0,
    injected := false, waited := false }

/-- An endpoint placed but not marked is placed right after the commit (R495). -/
def placeAfter (g : Nat) (s : State) (e : Nat × EpVal) : State :=
  match tickOf s g with
  | some t =>
    if takesAmend s t then amendTick g (asPkt e.1 e.2) { e.2 with quality := e.2.quality ||| 2#8 } s
    else alnEvent 2 (alnCnt 3 1 s)
  | none => alnEvent 2 (alnCnt 3 1 s)

/-- Open ticks before g are never committed: a mark went past them. -/
def passOpen (g : Nat) (s : State) : State :=
  (s.aln.ticks.filter fun t => t.st = .opn && decide (t.g < g)).foldl (fun s t => dropTick t.g s) s

/-- Engines work on the tick as it commits: not before a snapshot in a warm join (R493). -/
def worksLive (s : State) : Bool := s.pair.st ≠ .syncing || s.pair.cold

/-- The tick in progress at its commit. -/
def newCur (g seq : Nat) (skip : Bool) (s : State) : Cur :=
  { g := g, seq := seq, at_ := s.tbu.free, phase := 1, phaseAt := s.tbu.free, durs := [], doneDfc := [], doneSep := false, doneSolve := false,
    doneAna := false, doneOsm := [], doneRings := false, donePorts := [], d1 := false, d2 := false, lateMark := false, incomplete := false,
    shed := 0, gone := [], lseRes := none, invFail := false, osmDue := [], osmDefer := false, recs := [], dig := [], framesHeld := false,
    rings := [], skip := skip }

/-- The checkpoint record of a commit (R442). -/
def newCkpt (s : State) : State :=
  { s with
    aln := { s.aln with ckpt := s.aln.ticks, ckptDone := s.sys.guarEff = 0 }
    sep := { s.sep with ckpt := (s.sep.zones, s.sep.systems) } }

/-- A recovery is in progress: a reaction window is open, or a replay (R41). -/
def recovering (s : State) : Bool := !s.flt.wins.isEmpty || s.aln.replay.isSome

/-- A PAIR_SWITCHOVER may execute: the module is ACTIVE and its peer STANDBY (R507). -/
def switchOk (s : State) : Bool := s.pair.st = .active && s.pair.peerSt = PairSt.standby.code

/-- A PAIR_SWITCHOVER that is due: executed at this commit, or E_STATE (R507). -/
def judgeSwitch (c : Ctx) (late : Bool) (seq : Nat) (s : State) : State :=
  if switchOk s && s.pair.switchAt.isNone then { s with pair := { s.pair with switchAt := some (c, late) } }
  else completeWith c .state late (some seq) 0 s

/-- One that waited for this commit and may execute no longer. -/
def dropSwitch (seq : Nat) (s : State) : State :=
  match s.pair.switchAt with
  | some (c, late) => if switchOk s then s else completeWith c .state late (some seq) 0 { s with pair := { s.pair with switchAt := none } }
  | none => s

def isSwitch (c : Sched) : Bool := match c.cmd with
  | .pairSwitchover => true
  | _ => false

/-- One scheduled command executes at the commit of tick g (R68). -/
def runSched (g seq : Nat) (s : State) (c : Sched) : State :=
  match c.cmd with
  | .maintEnter =>
    if s.sys.maintPend.isSome then { s with hif := { s.hif with sched := s.hif.sched ++ [c] } }
    else mirror .maintEnter { s with sys := { s.sys with maintPend := some (some c.ctx, c.late) } }
  | .dfcCoefLoad ch fi n words => beginLoad c.ctx c.late ch fi n words ((g : Int) - 1) s
  | .keyRoll _ p blob =>
    let (r, s) := rollOf p blob s
    finishKey c.ctx c.late (some seq) r s
  | .pairSwitchover => s

/-- Commands due leave the list; on a standby the copies of what the active executed go (R498). -/
def takeDue (g : Nat) (s : State) : List Sched × State :=
  let due := dueSched s g
  (due, { s with
    hif := { s.hif with sched := s.hif.sched.filter fun c => !(decide (dueTick s g c ≤ g)) }
    pair := { s.pair with schedMir := s.pair.schedMir.filter fun c => !(decide (dueTick s g c ≤ g)) } })

/-- The COMMIT_MARK of this commit (R495). -/
def ownMark (g seq cause : Nat) (t : Tick) (switch : Bool) : CommitMark :=
  { seq := seq, g := g, cause := cause, suspect := t.suspect, eps := t.view.map Prod.fst, inService := t.bind.inService, outZones := t.outZones,
    switch := switch }

/-- The old active follows from the next tick on (R507); what it had pending waits as the new active's copies do. -/
def switchOver (seq : Nat) (c : Ctx) (late : Bool) (s : State) : State :=
  let s := { s with
    pair := { s.pair with switchAt := none, schedMir := s.hif.sched, peerSt := PairSt.active.code, frameSt := (List.range 8).map fun k => ((s.ala.groups[k]?).map Group.stNum).getD 0 }
    hif := { s.hif with sched := [] } }
  completeWith c .ok late (some seq) 0 (setPair .standby .switchover 0 (pairCnt 8 1 s))

/-- What the active of a pair does at its commit: mark, snapshot, switchover. -/
def pairCommit (g seq cause : Nat) (s : State) : State :=
  if !(isActive s && inPair s) then s else
  match tickOf s g with
  | none => s
  | some t =>
    let s := yokeSend (.commitMark (ownMark g seq cause t s.pair.switchAt.isSome)) { s with pair := { s.pair with lastMark := seq } }
    sendSnapshot g s

/-- The window's and the Helm's part of a commit: view, bindings, counters, the tick in progress (R42, R201, R254). -/
def freezeTick (g cause : Nat) (mark : Option CommitMark) (skip : Bool) (s : State) : State :=
  let seq := s.tkx.nextSeq
  let t0 := openTick g s
  let keep := fun (e : Nat × EpVal) => match mark with
    | some m => m.eps.contains e.1
    | none => true
  let (b, s) := bindTick (mark.map CommitMark.inService) s
  let out := match mark with
    | some m => m.outZones
    | none => s.ge.out
  let s := freezeView g seq cause (t0.eps.filter keep) s
  let s := countCause cause (modTick g (fun t => { t with bind := b, outZones := out }) s)
  let s := traceTick .commit cause seq 1 (phaseMax 0 s.aln.commitLat s)
  let s := { s with
    tkx := { s.tkx with
      lastSeq := some seq, nextSeq := (seq + 1) % 2 ^ 32, notBefore := s.tbu.free + s.sys.dp * fr, shedLevels := 0, phase := 1
      cur := if worksLive s then some (newCur g seq skip s) else none }
    dfc := { s.dfc with outs := [], edges := [] }
    aln := { s.aln with quorumAt := none } }
  noteQuorum (newCkpt s)

/-- A module that waits for a snapshot keeps the last ticks for catch-up: tick g takes the slot of g - 16 (R195, R493). -/
def freeSilent (g : Nat) (s : State) : State :=
  let old := s.aln.ticks.filter fun t => t.st ≠ .opn && decide (t.g + 15 ≤ g)
  old.foldl (fun s t => releaseTick t.g (modTick t.g (fun t => { t with commitDone := true }) s)) s

/-- A tick commits (R199 to R201): by its own rules, or with the values of a mark (R495). -/
def commitTick (cause : Nat) (mark : Option CommitMark) (missing : Bool) (s : State) : State :=
  let s := overrun s
  if s.sys.runState ≠ .run then s else
  let g := match mark with
    | some m => m.g
    | none => s.aln.next
  let s := match mark with
    | some m => passOpen g { s with tkx := { s.tkx with nextSeq := m.seq }, pair := { s.pair with lastMark := m.seq } }
    | none => s
  let seq := s.tkx.nextSeq
  let placed := (openTick g s).eps
  let s := freezeTick g cause mark (missing || recovering s) s
  let s := match mark with
    | some m =>
      let s := if m.eps.any (fun k => !(lookupK placed k).isSome) then pairCnt 5 1 s else s
      (placed.filter fun e => !(m.eps.contains e.1)).foldl (placeAfter g) s
    | none => s
  let (due, s) := takeDue g s
  let s := (due.filter isSwitch).foldl (fun s c => judgeSwitch c.ctx c.late seq s) (dropSwitch seq s)
  let s := pairCommit g seq cause s
  let s := due.foldl (runSched g seq) s
  let s := match s.pair.switchAt with
    | some (c, late) => if isActive s then switchOver seq c late s else s
    | none => s
  let s := if s.tkx.cur.isSome then readyAll isDfc g seq s
    else freeSilent g s
  settle s

/-! SKIPPED ticks (R59) -/

/-- Headers of a group: first tick and the number it stands for. -/
def skipChunks (a n : Nat) : List (Nat × Nat) :=
  if n ≤ 64 then (List.range n).map fun k => (a + k, 1)
  else (List.range (ceilDiv n 65535)).map fun k => (a + 65535 * k, min 65535 (n - 65535 * k))

/-- Rings that take SKIPPED headers. -/
def skipRings (s : State) : List Nat :=
  ringSet (s.aln.outRing ++ [s.dfc.outRing, s.dfc.thrRing, (s.lse.sec.map LseImage.outRing).getD 0, s.osm.outRing, s.sep.outRing, s.ala.outRing])

/-- The header of a SKIPPED tick with what it takes from the step instant (R59). -/
def skipHeader (s : State) (x : SkipGroup) (g seq n : Nat) (dig : Bool) : List Unit512 :=
  let f := frate s
  let m := markSkipped + markFinal + (if x.suspect then markSuspect else 0)
  [unitOf (hdr 1 1 m ++ [(320, 16, n), (288, 32, if dig then 0 else x.ts), (256, 32, seq), (224, 32, tmNs f g), (176, 48, tmSec f g),
    (168, 8, x.epoch), (160, 6, if s.lse.sec.isNone then 2 else 0), (156, 4, 3), (128, 16, m)])]

/-- One header of a group. -/
def writeSkip (w : SkipGroup) (s : State) (x : Nat × Nat) : State :=
  let seq := s.tkx.nextSeq
  let s := traceTick .skipped x.2 seq 0 s
  let us := skipHeader s w x.1 seq x.2 false
  let s := (skipRings s).foldl (fun s n => handRec n 1 us (some w.at_) (some seq) s) s
  let s := { s with tkx := { s.tkx with nextSeq := (seq + x.2) % 2 ^ 32, lastSeq := some ((seq + x.2 - 1) % 2 ^ 32) } }
  if s.pair.st = .unpaired || (skipRings s).isEmpty then s
  else tickDigest seq (digest64 [skipHeader s w x.1 seq x.2 true]) (recovering s) w.suspect s

/-- The ticks a to b of a group commit (R40, R59, R205): for the spacing of later ticks they count as one commit at the step instant. -/
def commitGroup (w : SkipGroup) (a b : Nat) (s : State) : State :=
  let s := overrun s
  if s.sys.runState ≠ .run then s else
  let n := b + 1 - a
  let s := ((s.aln.ticks.filter fun t => decide (a ≤ t.g ∧ t.g ≤ b)).map Tick.g).foldl (fun s g => discardOpen g s) s
  let s := (skipChunks a n).foldl (writeSkip w) s
  let s := { s with
    tkx := { s.tkx with
      skippedCnt := satAdd s.tkx.skippedCnt n, notBefore := max s.tkx.notBefore (w.at_ + s.sys.dp * fr), shedLevels := 0, phase := 5 }
    aln := { s.aln with
      next := b + 1, quorumAt := none, steps := [], journal := if s.sys.guarEff = 0 then [] else [] :: s.aln.journal.take 15, overflow := false } }
  settle (noteQuorum (newCkpt (tkxEvent 3 s)))

/-- Ticks may commit. -/
def ticking (s : State) : Bool := s.sys.runState = .run && s.aln.placing && s.sys.maintPend.isNone

/-- Groups whose turn has come, after the ticks before them (R43, R59; DEDUCED, log 24). -/
def commitSkips : Nat → State → State
  | 0, s => s
  | k + 1, s =>
    match s.aln.skips with
    | [] => s
    | w :: r =>
      if !(ticking s) || decide (s.aln.next < w.a) then s else
      let s := { s with aln := { s.aln with skips := r } }
      commitSkips k (if w.b < s.aln.next then s else commitGroup w (max w.a s.aln.next) w.b s)

def runSkips (s : State) : State := commitSkips s.aln.skips.length s

/-- A commit and the groups behind it. -/
def commitNext (cause : Nat) (mark : Option CommitMark) (missing : Bool) (s : State) : State := runSkips (commitTick cause mark missing s)

/-- The module decides its commits by its own rules (R490). -/
def ownRules (s : State) : Bool := s.pair.st ≠ .syncing && s.pair.st ≠ .standby

/-- TICK_COMMIT: the oldest uncommitted tick is ready and R40 allows its commit. -/
def tickCommit (s : State) : State :=
  let s := advanceFront s
  let g := s.aln.next
  if ticking s && ownRules s && (readyQuorum s g || readyMax s g) && decide (s.tkx.notBefore ≤ s.tbu.free) then
    commitNext (causeOf s g) none false s
  else s

/-! Time steps (R59, R68, R101, R193, R205) -/

/-- First tick whose Tm is later than a time in 2^-16 ns. -/
def firstAfter (s : State) (t : Int) : Nat := gridAt (frate s) t + 1

/-- A forward step passes over ticks: they become SKIPPED. `was` is disciplined time just before the step. -/
def skipPassed (was : Int) (s : State) : State :=
  let f := frate s
  let now := discTime s
  if !(ticking s) || decide ((now - was) * f ≤ (secFr : Int)) then s else
  let after := match s.aln.skips.getLast? with
    | some x => x.b + 1
    | none => 0
  let a := max (max s.aln.next (firstAfter s was)) after
  let limit := now - ((s.aln.waitMax * 1000 * fr : Nat) : Int)
  let b := gridAt f limit
  let w : SkipGroup := { a := a, b := b, ts := ts32 s, epoch := s.tbu.epoch, suspect := s.tbu.suspect, at_ := s.tbu.free }
  if decide (limit < 0) || decide (b < a) then s else { s with aln := { s.aln with skips := s.aln.skips ++ [w] } }

/-- The Safety Watch counts from the boundaries on its own oscillator, so it notes what a forward step adds (R104, R447; log 35). -/
def noteJump (was : Int) (s : State) : State :=
  let kept := s.swm.jumps.filter fun j => tmReached (frate s) s.aln.next 0 j.2
  { s with swm := { s.swm with jumps := kept ++ [(was, discTime s)] } }

/-- What a step of disciplined time from `was` does to the window and to scheduled commands. -/
def timeStepped (was : Int) (s : State) : State :=
  if decide (discTime s = was) then s
  else if s.sys.runState ≠ .run then (if was < discTime s then rejudgeAll s else s)
  else
    let s := { s with aln := { s.aln with steps := s.aln.steps ++ [(s.tbu.free, discTime s - was)] } }
    if discTime s < was then
      -- Φ stays where time had carried it (R193).
      let f := frate s
      { s with aln := { s.aln with front := max s.aln.front (gridAt f (was + (skewTol s * fr : Nat)) + 1) } }
    else runSkips (rejudgeAll (finalizeDue (skipPassed was (noteJump was s))))

/-! Checkpoints (R442) -/

/-- CHECKPOINT_DRAIN_COMPLETE. -/
def checkpointDone (s : State) : State :=
  if s.aln.ckptDone then s else { s with aln := { s.aln with ckptDone := true, ckptLate := false } }

/-- CHECKPOINT_DEADLINE: C + Dp has passed with the drain not done. -/
def checkpointDeadline (s : State) : State :=
  if s.sys.guarEff ≠ 0 && !s.aln.ckptDone && !s.aln.ckptLate && s.sys.runState = .run && s.tkx.lastSeq.isSome && decide (s.tkx.notBefore ≤ s.tbu.free) then
    raiseFault (FaultIn.plain 0x10 10) s
  else s

end Sys2Proof.Machine
end

