-- ==== Sys2Proof/Machine/ImageCheck.lean ====
section
/-! DEFINITION. What makes CONFIG_LOAD refuse an image, and START its settings (R11, R18 to R21, R27, R38, R39, R47, R132, R135, R160 to R173, R196,
R198, R222, R234, R251, R252, R281, R282, R296, R315, R317, R331 to R334, R362, R365, R384, R385). -/

namespace Sys2Proof.Machine

/-- Every pair of places of a list meets p. -/
def allPairs {α : Type} (p : α → α → Bool) : List α → Bool
  | [] => true
  | a :: l => l.all (p a) && allPairs p l

/-- No two places of a list hold the same number. -/
def distinct (l : List Nat) : Bool := allPairs (fun a b => a != b) l

/-! Header and section table (R382 to R384) -/

/-- The image with the sections its table lists. -/
def listed (i : Image) : Image :=
  let has := fun (k : Nat) => i.table.any fun e => e.typ = k
  { i with
    slow := if has 4 then i.slow else []
    dfc := i.dfc.filter fun _ => has 6
    lse := i.lse.filter fun _ => has 7
    osm := i.osm.filter fun _ => has 8
    sep := i.sep.filter fun _ => has 9
    ala := i.ala.filter fun _ => has 10
    output := i.output.filter fun _ => has 11
    pair := i.pair.filter fun _ => has 12 }

def headerOk (i : Image) (total : Nat) : Bool :=
  let n := i.table.length
  decide (i.magic = [0x43#8, 0x42#8, 0x53#8, 0x54#8]) && decide (i.format = 1) && decide (i.target = 0x7300) && decide (i.length = total) &&
    decide (1 ≤ n ∧ n ≤ 64) && decide (64 + 16 * n + 64 ≤ i.length)

/-- Sections as R383 wants them: known types, none twice, the required ones there; at multiples of 64 inside the image (R382), CRCs matching. -/
def sectionsOk (i : Image) : Bool :=
  let types := i.table.map SecEntry.typ
  i.table.all (fun e => e.crcOk && decide (1 ≤ e.typ ∧ e.typ ≤ 12) && decide (e.offset % 64 = 0) &&
    decide (64 + 16 * i.table.length ≤ e.offset) && decide (e.offset + e.length + 64 ≤ i.length)) &&
  distinct types && [1, 2, 3, 5].all fun k => types.contains k

/-! Hierarchy (R18 to R21) -/

def ratesOf (fnomMHz : Nat) : List Nat :=
  if fnomMHz = 50000 then [10, 25, 50, 100, 200] else if fnomMHz = 60000 then [10, 12, 15, 20, 30, 60, 120, 240] else []

def systemOfZone (i : Image) (z : Nat) : Option Nat := lookupK i.hier.zones z

def hierOk (i : Image) : Bool :=
  let h := i.hier
  decide (h.systems.length ≤ 16) && decide (h.zones.length ≤ 4096) && distinct (h.systems.map Prod.fst) && distinct (h.zones.map Prod.fst) &&
    h.systems.all (fun e => decide (e.1 < 16) && (ratesOf e.2).contains h.rate) &&
    h.zones.all fun z => decide (z.1 < 4096) && (lookupK h.systems z.2).isSome

/-! Tasks (R61, R62) -/

/-- Task numbers, and priorities where R62 puts them (DEDUCED: an image that moves a class is refused). -/
def tickOk (i : Image) : Bool :=
  distinct (i.tick.tasks.map TaskCfg.num) && i.tick.tasks.all fun t => decide (t.num < 1024) && decide (t.prio = t.work.prio)

/-! Fast and injected endpoints (R11, R18, R19, R160 to R163, R169 to R172) -/

/-- The static entries as they are loaded: reserved bits read 0 (R170). -/
def imgEntries (i : Image) : List (Nat × EpEntry) :=
  let mk := fun (e : Nat × BitVec 512) =>
    let x : EpEntry := { entry := (e.2 >>> 90) <<< 90, chans := [], rt := EpRt.reset }
    (e.1, { x with chans := if x.valid then (List.range x.nchan).map fun k => (lookupK i.fast.chans (x.chanBase + k)).getD 0#64 else [] })
  i.fast.entries.map mk

/-- The entries that are in use. -/
def imgEps (i : Image) : List (Nat × EpEntry) := (imgEntries i).filter fun e => e.2.valid

/-- TYPE and ENCODING that R161 lists. -/
def encodingOk (d : Dword) : Bool :=
  match chType d with
  | 0 => true
  | 1 => chEnc d = 0 || chEnc d = 2
  | 2 => chEnc d = 0 || chEnc d = 2
  | 3 => decide (chEnc d ≤ 2)
  | 4 => chEnc d = 0
  | 6 => decide (chEnc d ≤ 1)
  | _ => false

/-- Only a GOOSE endpoint has STATUS channels, and it has no others (R160). -/
def statusOk (e : EpEntry) (d : Dword) : Bool := decide (chType d = 6) == decide (e.proto = 3)

def epOk (i : Image) (x : Nat × EpEntry) : Bool :=
  let e := x.2
  decide (entryOfId e.id = some x.1) && decide (e.proto ≤ 4) && (decide (e.proto = 4) == decide (fld e.id 31 30 = 2)) &&
    !(decide (e.proto = 1 ∨ e.proto = 4) && (decide (e.timeBase = 0) || decide (e.auth ≠ 0))) && decide (e.auth ≤ 5) &&
    !(decide (e.proto = 3) && decide (e.weight ≠ 0)) && decide (1 ≤ e.nchan ∧ e.nchan ≤ 256) && decide (e.chanBase + e.nchan ≤ 262144) &&
    decide (systemOfZone i e.zone = some e.system) && e.chans.all fun d => encodingOk d && statusOk e d && decide (chPoint d < 131072 ∨ chType d ≠ 6)

/-- Two fast endpoints may share a key only as blocks of one C37.118.2 stream on consecutive entries (R172). -/
def keysApart (a b : Nat × EpEntry) : Bool :=
  let fast := fun (e : EpEntry) => decide (1 ≤ e.proto ∧ e.proto ≤ 3)
  let same := decide (a.2.addr = b.2.addr) && (if a.2.proto = 1 then decide (b.2.proto = 1) && decide (a.2.idcode = b.2.idcode)
    else decide (b.2.proto ≠ 1) && decide (a.2.hash = b.2.hash))
  if !(fast a.2) || !(fast b.2) || !same then true
  else decide (a.2.proto = 1) && decide ((b.1 : Int) - a.1 = (b.2.block : Int) - a.2.block)

/-- Every block but block 0 of a stream has the block before it on the entry before it. -/
def streamOk (l : List (Nat × EpEntry)) (x : Nat × EpEntry) : Bool :=
  decide (x.2.proto ≠ 1) || decide (x.2.block = 0) || l.any fun y => decide (y.1 + 1 = x.1 ∧ y.2.proto = 1 ∧ y.2.block + 1 = x.2.block ∧
    y.2.addr = x.2.addr ∧ y.2.idcode = x.2.idcode)

def rangesApart (a b : Nat × EpEntry) : Bool :=
  decide (a.2.chanBase + a.2.nchan ≤ b.2.chanBase ∨ b.2.chanBase + b.2.nchan ≤ a.2.chanBase)

/-- A channel belongs to an endpoint (R18). -/
def chanOwned (l : List (Nat × EpEntry)) (k : Nat) : Bool := l.any fun e => decide (e.2.chanBase ≤ k ∧ k < e.2.chanBase + e.2.nchan)

def fastOk (i : Image) : Bool :=
  let l := imgEps i
  distinct (i.fast.entries.map Prod.fst) && l.all (epOk i) && allPairs rangesApart l && allPairs keysApart l && l.all (streamOk l) && i.fast.placed &&
    distinct (i.fast.chans.map Prod.fst) && i.fast.chans.all fun c => chanOwned l c.1

/-- Slow endpoints (R11, R18, R173). -/
def slowOk (i : Image) : Bool :=
  distinct (i.slow.map Prod.fst) && i.slow.all fun e =>
    let n := e.2.toNat
    fld n 263 263 = 0 || (decide (e.1 < 33554432) && (systemOfZone i (fld n 287 276)).isSome && decide (fld n 303 288 ≠ 0) &&
      decide (fld n 275 274 ≠ 3) && decide (fld n 267 266 ≠ 0))

/-- Quorums (R198). -/
def weightOf (i : Image) (k : Nat) : Nat :=
  sumN ((imgEps i).filterMap fun e => if e.2.inTicks && decide (e.2.system = k) then some e.2.weight else none)

def alignOk (i : Image) : Bool := (List.range 16).all fun k => decide (nth i.align.quorum k 0 ≤ weightOf i k)

/-! Channels other sections name -/

/-- The VALID entry at a place of the table. -/
def imgEp (i : Image) (e : Nat) : Option EpEntry := lookupK (imgEps i) e
/-- The VALID entry of an endpoint ID. -/
def imgEpId (i : Image) (id : Nat) : Option EpEntry := ((imgEps i).find? fun e => decide (e.2.id = id)).map Prod.snd

/-- A channel below NCHAN of one of some types. -/
def chanIs (e : EpEntry) (c : Nat) (types : List Nat) : Bool :=
  match e.chans[c]? with
  | some d => types.contains (chType d)
  | none => false

/-! DFC (R222, R234) -/

/-- OSM input rates of R39. -/
def osmRates (f : Nat) : List Nat := if f ≤ 30 then [f] else if f % 25 = 0 then [25, 50] else [30, 60]

def componentTypes (c : Nat) : List Nat := if c = 0 then [0, 1, 2, 3] else if c ≤ 6 then [0] else []

/-- A chain entry as it is loaded: reserved bits read 0 (R221). -/
def asChain (u : BitVec 512) : Chain :=
  { entry := BitVec.ofNat 512 (clearLow 222 u.toNat), bankA := [], bankB := [], nA := 0, nB := 0, actB := false, swap := none, line := [], lastTrue := 0, warm := 0,
    upper := Comp.reset, lower := Comp.reset, lastG := 0, lastY := 0, flags := 0 }

def Chain.valid (c : Chain) : Bool := c.f 368 368 = 1
def Chain.toOsm (c : Chain) : Bool := c.f 369 369 = 1

def finite32 (x : Nat) : Bool := fisFinite f32 x
def nonNeg32 (x : Nat) : Bool := fge f32 x 0

def chainOk (i : Image) (d : DfcSec) (x : Nat × Chain) : Bool :=
  let c := x.2
  let a := imgEpId i c.srcA
  let b := imgEpId i c.srcB
  let two := decide (4 ≤ c.component)
  let src := match a with
    | some e => chanIs e c.chanA (componentTypes c.component) && (!two || match b with
        | some g => chanIs g c.chanB (componentTypes c.component) && decide (g.system = e.system)
        | none => false)
    | none => false
  let filt := if c.filter < 4 then decide (c.taps = presetTaps c.filter)
    else decide (c.filter = 4) && decide (c.taps % 2 = 1) && (match lookupK d.coefs x.1 with
      | some h => decide (h.length = (c.taps + 1) / 2) && h.all fun k => decide (-8388608 ≤ k ∧ k < 8388608)
      | none => false)
  decide (x.1 < 4096) && src && filt && decide (1 ≤ c.decim ∧ c.decim ≤ 32) &&
    (!c.toOsm || (osmRates i.hier.rate).any fun r => decide (r * c.decim = i.hier.rate)) &&
    [c.offset, c.f 367 336, c.f 335 304, c.f 303 272, c.f 271 240].all finite32 && nonNeg32 (c.f 335 304) && nonNeg32 (c.f 271 240) &&
    decide (c.holdOn ≠ 0 ∧ c.holdOff ≠ 0)

/-- The chain entries of the image, and the VALID ones. -/
def allChains (i : Image) : List (Nat × Chain) :=
  match i.dfc with
  | none => []
  | some d => d.chains.map fun e => (e.1, asChain e.2)
def imgChains (i : Image) : List (Nat × Chain) := (allChains i).filter fun e => e.2.valid

def dfcOk (i : Image) : Bool :=
  match i.dfc with
  | none => true
  | some d =>
    distinct (d.chains.map Prod.fst) && (imgChains i).all (chainOk i d) &&
      decide (((imgChains i).filter fun e => e.2.ownsPair).length ≤ 3584 + 1024 * d.pool)

/-! LSE (R19, R20, R251, R252, R315) -/

def measOk (i : Image) (im : LseImage) (w : BitVec 256) : Bool :=
  let m := w.toNat
  let bus := fld m 53 38
  let ep := match imgEp i (fld m 95 82) with
    | some e => chanIs e (fld m 81 74) [0]
    | none => false
  let place := decide (bus < im.buses.length) && (fld m 73 73 = 0 || match im.branches[fld m 70 54]? with
    | some b => decide (bus = if fld m 72 72 = 0 then b.fromBus else b.toBus)
    | none => false)
  ep && place && finite32 (fld m 127 96) && fgt f32 (fld m 127 96) 0

/-- Switchable branches of a topology. -/
def switchTopo (im : LseImage) (f : LseFactor) : List Bool :=
  (im.branches.zipIdx.filter fun b => !b.1.points.isEmpty).map fun b => nth f.inService b.2 true

/-- MiB of the active factor region in use (R558). -/
def regionMiB (im : LseImage) : Nat :=
  ceilDiv (sumN ((List.range im.factors.length).map (factorBytes im)) + 16 * im.branches.length + 32 * im.watched.length) 1048576

/-- Systems with LSE buses. -/
def lseSystems (im : LseImage) : List Nat := idxWhere 16 fun k => im.buses.any fun b => decide (b.system = k)

/-- All buses of a system are connected when every branch is in service, and one is an ANCHOR (R315). -/
def systemOk (im : LseImage) (lab : List Nat) (k : Nat) : Bool :=
  let l := im.buses.zipIdx.filter fun b => decide (b.1.system = k)
  distinctLabels (l.map fun b => nth lab b.2 0) && l.any fun b => b.1.anchor
where distinctLabels (l : List Nat) : Bool := l.all fun a => decide (a = l.headD 0)

def lseOk (i : Image) : Bool :=
  match i.lse with
  | none => true
  | some im =>
    let n := im.buses.length
    decide (1 ≤ n ∧ n ≤ 65536) && decide (im.branches.length ≤ 131072) && decide (im.meas.length ≤ 262144) && decide (im.watched.length ≤ 8192) &&
      im.buses.all (fun b => decide (systemOfZone i b.zone = some b.system)) &&
      im.branches.all (fun b => decide (b.fromBus < n) && decide (b.toBus < n) && decide (b.points.length ≤ 2) &&
        decide ((im.buses[b.fromBus]?).map LseBus.system = (im.buses[b.toBus]?).map LseBus.system)) &&
      im.meas.all (measOk i im) && allPairs (fun (a b : BitVec 256) => decide (fld a.toNat 95 74 ≠ fld b.toNat 95 74)) im.meas &&
      im.watched.all (fun w => decide (w.branch < im.branches.length)) &&
      decide (1 ≤ im.factors.length ∧ im.factors.length ≤ 4) && decide (sumN ((List.range im.factors.length).map (storedEntries im)) ≤ 8000000) &&
      decide (regionMiB im ≤ 96) && allPairs (fun a b => decide (switchTopo im a ≠ switchTopo im b)) im.factors &&
      (lseSystems im).all (systemOk im (components im [] fun _ => true))

/-! OSM (R281, R282, R296) -/

/-- Reserved bits of a set entry and of its bands read 0 (R279). -/
def setEntry (u : BitVec 1024) : BitVec 1024 :=
  u &&& ~~~(BitVec.ofNat 1024 (place 640 55 (2 ^ 55 - 1) + sumN ((List.range 4).map fun b => place (160 * b + 1) 7 127)))

def asSet (u : BitVec 1024) : OsmSet :=
  { entry := setEntry u, samples := 0, mean := [], cov := [], hist := [], vf := 0, tracks := [], nextId := 0, idSeq := 0, idTick := 0, order := 0,
    lastG := none, dropped := 0, didReset := false, carry := false, queue := [] }

/-- The set entries of the image, and the VALID ones. -/
def allSets (o : OsmSec) : List (Nat × OsmSet) := o.sets.map fun e => (e.1, asSet e.2)
def imgSets (o : OsmSec) : List (Nat × OsmSet) := (allSets o).filter fun e => e.2.valid

/-- Chains a set names. -/
def setInputs (o : OsmSec) (e : OsmSet) : List Nat := (o.inputs.drop e.base).take e.nIn

def inRange (lo hi v : Nat) : Bool := decide (lo ≤ v ∧ v ≤ hi)

/-- The forced-oscillation limit of R39 in binary64. -/
def forcedLimit (fo : Nat) : Nat := fofRat f64 (min 60 (max 16 fo) : Nat) 4

def bandOk (e : OsmSet) (b : Nat) : Bool :=
  let lo := e.band b 159 128
  let hi := e.band b 127 96
  [lo, hi, e.band b 95 64, e.band b 63 32].all finite32 && nonNeg32 (e.band b 63 32) && inRange 0 3600 (e.band b 31 16) &&
    inRange 1 255 (e.band b 15 8) && (!e.bandEn b || (fle f32 (e.fd 1023 992) lo && flt f32 lo hi && fle f32 hi (e.fd 991 960)))

def setOk (i : Image) (o : OsmSec) (x : Nat × OsmSet) : Bool :=
  let e := x.2
  let ins := setInputs o e
  let fo := i.hier.rate / e.decim
  decide (x.1 < 8) && decide (e.base + e.nIn ≤ 4096) && decide (ins.length = e.nIn) && distinct ins &&
    ins.all (fun c => match lookupK (imgChains i) c with
      | some ch => ch.toOsm && decide (ch.decim = e.fd 702 697) && decide ((imgEpId i ch.srcA).map EpEntry.system = some e.system)
      | none => false) &&
    decide (e.nRef ≤ e.nIn) && decide (e.lags * e.nRef ≤ 256) &&
    [e.fd 1023 992, e.fd 991 960, e.fd 959 928, e.fd 927 896, e.fd 895 864, e.fd 863 832, e.fd 831 800].all finite32 &&
    fge f32 (e.fd 1023 992) (fofRat f32 1 100) && flt f32 (e.fd 1023 992) (e.fd 991 960) && fle f64 e.fHi (forcedLimit fo) &&
    fgt f32 (e.fd 959 928) 0 && fle f32 (e.fd 959 928) (fofInt f32 1) && fgt f32 (e.fd 927 896) 0 && fgt f32 (e.fd 895 864) 0 &&
    nonNeg32 (e.fd 863 832) && nonNeg32 (e.fd 831 800) && fle f32 (e.fd 831 800) (fofInt f32 1) &&
    inRange 20 1200 e.windowS && inRange 1 60 e.everyS && decide (e.phase < e.everyS * fo) && inRange 2 120 e.locWin && inRange 1 255 e.forcedHold &&
    inRange 1 64 e.maxModes && inRange 4 32 e.lags && inRange 1 16 e.nRef && inRange 1 1024 e.nIn && (List.range 4).all (bandOk e)

/-- Bytes the sets and location need (R282). -/
def osmBytes (l : List (Nat × OsmSet)) : Nat :=
  sumN (l.map fun e => 16 * e.2.nIn * e.2.nRef * e.2.lags + 648 * e.2.nIn + 65536) + (if l.any fun e => e.2.locate then 3145728 else 0)

def locatedOk (i : Image) (b : BitVec 128) : Bool :=
  !(lbValid b) || ((match imgEp i (lbF b 95 82) with
    | some e => chanIs e (lbF b 81 74) [0] && chanIs e (lbF b 73 66) [0]
    | none => false) && decide (systemOfZone i (lbF b 48 37) = some (lbSystem b)) && decide (systemOfZone i (lbF b 36 25) = some (lbSystem b)))

def osmOk (i : Image) : Bool :=
  match i.osm with
  | none => true
  | some o =>
    distinct (o.sets.map Prod.fst) && decide (o.inputs.length ≤ 4096) && decide (o.located.length ≤ 8192) && (imgSets o).all (setOk i o) &&
      decide (sumN ((imgSets o).map fun e => e.2.nIn) ≤ 4096) && decide (osmBytes (imgSets o) ≤ (32 + o.pool) * 1048576) &&
      o.located.all (locatedOk i)

/-- Pool (R27). -/
def poolOk (i : Image) : Bool := decide (((i.osm.map OsmSec.pool).getD 0) + ((i.dfc.map DfcSec.pool).getD 0) ≤ 62)

/-! SEP and ALA (R317, R331 to R334, R344) -/

def refChanOk (i : Image) (system ep fch vch : Nat) : Bool :=
  match imgEp i ep with
  | some e => decide (e.system = system) && chanIs e fch [1] && chanIs e vch [0]
  | none => false

def zoneRefOk (i : Image) (x : Nat × BitVec 128) : Bool :=
  let n := x.2.toNat
  fld n 65 65 = 0 || match systemOfZone i x.1 with
    | none => false
    | some k => decide (fld n 64 61 = k) && refChanOk i k (fld n 127 114) (fld n 113 106) (fld n 105 98) &&
        (fld n 67 67 = 0 || refChanOk i k (fld n 97 84) (fld n 83 76) (fld n 75 68))

def sepOk (i : Image) : Bool :=
  match i.sep with
  | none => true
  | some p => distinct (p.points.map Prod.fst) && distinct (p.refs.map Prod.fst) && p.points.all (fun x => decide (x.1 < 131072)) && p.refs.all (zoneRefOk i)

def limitOk (i : Image) (l : Nat × BitVec 128) : Bool :=
  let n := l.2.toNat
  let cap := match i.lse with
    | none => 0
    | some im => if fld n 63 61 = 0 then im.buses.length else im.watched.length
  fld n 59 59 = 0 || (decide (l.1 < 1024) && decide (fld n 63 61 ≤ 4) && decide (fld n 58 43 < cap) && finite32 (fld n 127 96) && finite32 (fld n 95 64) &&
    nonNeg32 (fld n 95 64))

def ruleOk (r : Nat × BitVec 256) : Bool :=
  !(ruleValid r.2) || (decide (r.1 < 512) && decide (ruleF r.2 185 184 ≠ 3) && (ruleOps r.2).all condKnown)

def alaOk (i : Image) : Bool :=
  match i.ala with
  | none => true
  | some a =>
    distinct (a.limits.map Prod.fst) && distinct (a.rules.map Prod.fst) && a.limits.all (limitOk i) && a.rules.all ruleOk &&
      decide (a.groups.length ≤ 8) && a.groups.all fun g => decide (g.rules.length ≤ 64) && g.rules.all (fun r => decide (r < 512)) &&
        decide (g.auth ≤ 2) && decide (g.slot < 64)

/-- An ENDPOINT_ID whose index lies in the range of its class (R10, R11). -/
def idInRange (id : Nat) : Bool := (entryOfId id).isSome || decide (fld id 31 30 = 1 ∧ fld id 29 0 < 33554432)

def outputOk (i : Image) : Bool :=
  ((i.output.map OutSec.streams).getD []).all fun o => match o with
    | .c37 _ _ _ _ _ blocks => blocks.all fun b => idInRange b.ep
    | .sv _ _ _ _ _ chans => chans.all fun c => idInRange c.1

/-- The contents check of R384. -/
def contentsOk (i : Image) : Bool :=
  sectionsOk i && hierOk i && tickOk i && fastOk i && slowOk i && alignOk i && poolOk i && dfcOk i && lseOk i && osmOk i && sepOk i && alaOk i && outputOk i

/-- The judgement of R384, in its order. -/
def judgeImage (s : State) (i : Image) (total : Nat) : Status :=
  if !(headerOk i total) then .image
  else if lcState s = 4 then .auth
  else
    let isSigner := fun (x : Slot) => decide (x.st ≠ .empty) && decide (x.typ = 3) && decide (x.usage / 8 % 2 = 1) && decide (x.keyId = i.signer)
    match (s.kst.slots.find? fun x => isSigner x && decide (x.st = .valid)).or (s.kst.slots.find? isSigner) with
    | none => .auth
    | some x =>
      if x.st ≠ .valid then .keyRevoked
      else if !(ecdsaVerify (beNat (x.val.take 32), beNat (x.val.drop 32)) i.bodyHash i.sigR i.sigS) then .auth
      else if contentsOk i then .ok else .image

/-! START (R385) -/

/-- Every entry of D of every factor is a positive normal binary32 (R252). -/
def factorsOk (i : Image) : Bool :=
  match i.lse with
  | none => true
  | some im => im.factors.all fun f => f.d.all fun w => fposNormal f32 w.toNat

def waitMaxOf (i : Image) : Nat := i.align.waitMax.getD 20000
def waitMinOf (i : Image) : Nat := i.align.waitMin.getD 0
/-- The declared span of R38 in microseconds. -/
def spanUs (i : Image) : Nat := i.tick.budgets.commit + i.tick.budgets.solve + i.tick.budgets.analyze + i.tick.budgets.emit
/-- The guarantee mode written to MODE (R36). -/
def modeReg (s : State) : Nat := fld s.sys.guarantee.toNat 1 0
/-- The checkpoint allowance A in microseconds: 12 % of T, rounded up (R45). -/
def allowanceUs (i : Image) (mode : Nat) : Nat := if mode = 0 then 0 else ceilDiv 120000 (max 1 i.hier.rate)
def dpUs (i : Image) (mode : Nat) : Nat := spanUs i + allowanceUs i mode

/-- R38, R45, R47: in microseconds; Dp ≤ T as Dp × F ≤ 1 s. -/
def budgetsOk (i : Image) (mode : Nat) : Bool :=
  let b := i.tick.budgets
  let f := i.hier.rate
  decide (dpUs i mode * f ≤ 1000000) && decide (b.commit ≤ 150) && decide (b.commit + b.sep ≤ 1950) && decide (b.sep ≤ b.solve) &&
    decide (b.commit + b.solve + b.analyze ≤ 2950) &&
    (decide (f < 200) || (decide (b.solve ≤ 1600) && decide (b.analyze ≤ 1200) && decide (b.emit ≤ 300)))

/-- R39 and R196: LSE size and the waits. -/
def waitsOk (i : Image) : Bool :=
  let f := max 1 i.hier.rate
  let w := waitMaxOf i
  decide (1000 ≤ w) && decide (w ≤ 500000) && decide (w * f ≤ 15000000) && decide (waitMinOf i ≤ w) &&
    decide ((i.lse.map fun im => im.buses.length).getD 0 ≤ if f = 200 ∨ f = 240 then 32768 else 65536)

/-- The horizon the image sets, 0 to 64; a larger one acts as 64 (R37 gives no outcome; DESIGN CHOICE, log 63). -/
def horizonOf (i : Image) : Nat := min 64 i.align.horizon

/-! Frames (R117, R132) -/

/-- Longest frames of the image by the ports that send them: port mask, bytes without RCT. -/
def imgFrames (i : Image) : List (Nat × Nat) :=
  let out := ((i.output.map OutSec.streams).getD []).map fun o => match o with
    | .c37 ports head _ _ _ blocks =>
      let chBytes := fun (c : ChanFmt) => match c with
        | .phasor => 8
        | .phasorInt _ => 4
        | .real => 4
        | .realInt _ => 2
        | .freqInt _ => 2
        | .digital => 2
      (ports, frameLen (head.length + 16 + sumN (blocks.map fun b => 2 + sumN (b.chans.map fun c => chBytes c.2))))
    | .sv ports head _ _ len _ => (ports, frameLen (head.length + len))
  out ++ ((i.ala.map AlaSec.groups).getD []).map fun g => (g.ports, frameLen (groupHeadLen g + g.len + tagLen g.auth))

def framesOk (s : State) (i : Image) : Bool :=
  (imgFrames i).all fun x => (List.range 4).all fun p =>
    !(x.1.testBit p) || decide (x.2 + (if paired s p then 6 else 0) ≤ (nth s.net.ports p Port.reset).maxFrame.toNat)

/-! Rings (R362, R365) -/

/-- Records the image routes: ring field with its EN, and the longest record in units. -/
def imgRoutes (i : Image) : List (Nat × Nat) :=
  let value := if horizonOf i = 0 then 1 else 2
  let align := (imgEps i).filterMap fun e => if e.2.inTicks then some (nth i.align.outRing e.2.system 0, value + ceilDiv e.2.nchan 8) else none
  let every := i.align.outRing.map fun r => (r, 1)
  let dfc := match i.dfc with
    | none => []
    | some d => [(d.outRing, 1 + ceilDiv (min 256 ((imgChains i).filter fun c => c.2.outEn).length) 4), (d.thrRing, 1)]
  let lse := match i.lse with
    | none => []
    | some im => [(im.outRing, maxN [10, 1 + ceilDiv (min 4096 im.buses.length) 8, 1 + ceilDiv (min 1024 im.watched.length) 4])]
  let osm := match i.osm with
    | none => []
    | some o =>
      let sets := imgSets o
      [(o.outRing, maxN [1 + ceilDiv (maxN (sets.map fun e => e.2.nIn)) 8, if sets.any fun e => e.2.locate then 6 else 1])]
  let sep := match i.sep with
    | none => []
    | some p => [(p.outRing, 9), (p.geRing, 2)]
  let ala := match i.ala with
    | none => []
    | some a => [(a.outRing, 1)]
  align ++ every ++ dfc ++ lse ++ osm ++ sep ++ ala

/-- Longest record routed to ring n; 0 where none is. -/
def longestFor (i : Image) (n : Nat) : Nat := maxN ((imgRoutes i).filterMap fun r => if ringSel r.1 = some n then some r.2 else none)

/-- DRAM for the staging queues in MiB (R28, R29). -/
def stagingMiB (mode : Nat) : Nat := if mode = 0 then 29840 else 29808

def Ring.quotaMiB (r : Ring) : Nat := fld r.quota.toNat 12 0

def ringsOk (s : State) (i : Image) (mode : Nat) : Bool :=
  decide (sumN ((streamRings s).map fun n => (ringOf s n).quotaMiB) ≤ stagingMiB mode) &&
    (idxWhere 64 fun n => (ringOf s n).type = .stream).all fun n =>
      let m := longestFor i n
      m = 0 || (decide (m + 1 ≤ (ringOf s n).size) && decide (m + 1 ≤ (ringOf s n).quotaMiB * 16384))

/-- R135. -/
def bridgeOk (s : State) : Bool := !(bitOf s.tbu.tcCfg 0 && bitOf s.net.prpCfg 1)

/-- The peer's settings are those of this START (R41). -/
def pairMatches (s : State) (i : Image) (h : PairHello) : Bool :=
  decide (h.rate = i.hier.rate) && decide (h.mode = modeReg s) && decide (h.horizon = horizonOf i) && (h.resolve == i.align.resolve) &&
    decide (h.digest = i.digest)

/-- START's checks but for R41 (R385). -/
def judgeStart (s : State) : Status :=
  match s.image with
  | none => .state
  | some i =>
    let m := modeReg s
    if !s.tbu.timeSet then .state
    else if !(factorsOk i) then .image
    else if budgetsOk i m && waitsOk i && framesOk s i && bridgeOk s && ringsOk s i m then .ok else .param

end Sys2Proof.Machine
end

