-- ==== Sys2Proof/Machine/Start.lean ====
section
/-! DEFINITION. Loading an image, START, MAINT_ENTER and MAINT_EXIT, UNCONFIGURE, CONFIG_LOCK, STEP (R32 to R34, R37, R41, R43, R98, R169, R173, R221, R227, R257,
R279, R286, R312, R328, R334, R340, R344, R377, R384 to R386). -/

namespace Sys2Proof.Machine

/-! CONFIG_LOAD (R381, R384, R392) -/

/-- Parameters: LIST_ADDR, entries, TOTAL_LENGTH. -/
structure LoadParams where
  addr  : Nat
  n     : Nat
  total : Nat
  deriving DecidableEq, Repr

def loadParams (p : BitVec 384) : LoadParams := ⟨fld p.toNat 383 320, fld p.toNat 319 304 + 1, fld p.toNat 303 272⟩

/-- Every length but the last is a multiple of 64. -/
def lengthsOk : List Nat → Bool
  | [] => false
  | [_] => true
  | a :: l => decide (a % 64 = 0) && lengthsOk l

/-- The conditions of R381 on the parameters and the list. -/
def listOk (q : LoadParams) (l : List (BitVec 128)) : Bool :=
  let lens := l.map fun e => fld e.toNat 95 64
  decide (q.addr % 16 = 0) && decide (l.length = q.n) && lengthsOk lens && decide (sumN lens = q.total)

/-- CONFIG_LOAD's end: its Logbook record and completion. -/
def endLoad (c : Ctx) (st : Status) (i : Option Image) (s : State) : State :=
  let dg := (i.map fun i => i.digest.toNat).getD 0
  let sq := (i.map fun i => i.seq.toNat).getD 0
  let s := logEv 4 1 0 (argOf [(280, 8, st.code), (216, 64, dg), (184, 32, sq)]) s
  completeWith c st false none (if st = .ok then dg * 2 ^ 32 + sq else 0) s

/-- A new image takes every endpoint out of CFG_MISMATCH (R156). -/
def clearMisfit (s : State) : State :=
  { s with ing := { s.ing with eps := s.ing.eps.map fun e => (e.1, { e.2 with rt := { e.2.rt with mismatch := false } }) } }

/-- An image that was read is judged and kept or refused. -/
def keepImage (c : Ctx) (total : Nat) (i : Image) (s : State) : State :=
  let i := listed i
  match judgeImage s i total with
  | .ok =>
    let s := clearMisfit s
    let s := { s with image := some i, hif := { s.hif with imgState := .loaded, digest := i.digest, imgSeq := i.seq } }
    endLoad c .ok (some i) s
  | st => endLoad c st (some i) { s with image := none, hif := { s.hif with imgState := .refused, digest := 0#64, imgSeq := 0#32 } }

/-- A load that starts discards the image before it; with parameters or a read that fail nothing has started. -/
def configLoad (c : Ctx) (p : BitVec 384) (list : Option (List (BitVec 128))) (img : Option Image) (s : State) : State :=
  let q := loadParams p
  if q.total < 256 ∨ 1073741824 < q.total ∨ q.addr % 16 ≠ 0 then complete c .param s
  else match list with
    | none => complete c .param (dmaErr s)
    | some l =>
      if !(listOk q l) then complete c .param s
      else match img with
        | none =>
          endLoad c .param none (dmaErr { s with
            image := none
            hif := { s.hif with imgState := .refused, digest := 0#64, imgSeq := 0#32 } })
        | some i => keepImage c q.total i s

/-! What START loads (R169, R173, R221, R234, R249, R279, R312, R317, R332 to R344) -/

/-- Static bits of a slow endpoint (R173); STATE NEVER_HEARD, runtime fields 0. -/
def slowStatic (u : Unit512) : Unit512 := unitOf [(266, 38, fld u.toNat 303 266), (263, 1, fld u.toNat 263 263), (224, 32, fld u.toNat 255 224)]

def loadIng (i : Image) (role : Nat) (s : State) : State :=
  let out := ((i.output.map OutSec.ifaces).getD [])
  let ifs := match i.pair with
    | some p => if role = 1 then p.primary else if role = 2 then p.secondary else out
    | none => out
  { s with ing := { s.ing with
      eps := (imgEntries i).foldl (fun l e => insertK l e.1 e.2) []
      slow := i.slow.foldl (fun l e => insertK l e.1 (slowStatic e.2)) []
      ifaces := (List.range 4).map fun p => nth ifs p []
      fnom := (List.range 16).map fun k => (lookupK i.hier.systems k).getD 0
      startNs := discNs s } }

/-- The Churn's settings and an empty window. -/
def loadAln (i : Image) (s : State) : State :=
  { s with aln := { s.aln with
      waitMin := waitMinOf i, waitMax := waitMaxOf i, horizon := horizonOf i, resolve := i.align.resolve, commitLat := 0
      quorum := (List.range 16).map fun k => nth i.align.quorum k 0
      weightSum := (List.range 16).map (weightOf i), lastWeight := List.replicate 16 0, sysAbsent := List.replicate 16 0
      outRing := (List.range 16).map fun k => nth i.align.outRing k 0 } }

/-- The window opens: the first tick is the first whose Tm is later than now (R34, R43). -/
def openWindow (s : State) : State :=
  let g := firstAfter s (discTime s)
  { s with
    aln := { s.aln with
      placing := true, front := frontNow s, next := g, skips := [], ticks := [], past := [], steps := [], journal := [], overflow := false, ckptDone := true, ckptLate := false,
      ckpt := [], quorumAt := none, replay := none }
    tkx := { s.tkx with cur := none, notBefore := s.tbu.free }
    ge := { s.ge with running := true, since := discNs s, closed := secOf (discTime s), buckets := [], ready := [] } }

/-- The task table in ascending number (R63). -/
def insertTask (c : TaskCfg) : List TaskCfg → List TaskCfg
  | [] => [c]
  | x :: r => if c.num < x.num then c :: x :: r else x :: insertTask c r

def sortTasks (l : List TaskCfg) : List TaskCfg := l.foldr insertTask []

/-- The window opens again after MAINTENANCE: the first tick still keeps its distance from the last commit (R40). -/
def reopenWindow (s : State) : State :=
  { (openWindow s) with tkx := { (openWindow s).tkx with notBefore := max s.tkx.notBefore s.tbu.free } }

def loadTkx (i : Image) (mode : Nat) (s : State) : State :=
  let b := i.tick.budgets
  let flows := i.tick.tasks.filterMap TaskCfg.flow
  { s with tkx := { s.tkx with
      lastSeq := none, nextSeq := 0, tasks := sortTasks i.tick.tasks, entries := [], micro := [], shedLevels := 0, phase := 0
      budget := [b.commit, b.solve, b.analyze, b.emit, b.sep, allowanceUs i mode]
      flows := flows.foldl (fun l k => insertK l k Flow.reset) [] } }

/-- A chain of the image with bank A active (R234). -/
def loadChain (d : DfcSec) (num : Nat) (c : Chain) : Chain :=
  if c.filter < 4 then { c with bankA := presetCoefs c.filter, nA := presetTaps c.filter }
  else { c with bankA := (lookupK d.coefs num).getD [], nA := c.taps }

def loadDfc (i : Image) (s : State) : State :=
  match i.dfc with
  | none => { s with dfc := { s.dfc with outRing := 0, thrRing := 0, bankCap := 3584, chains := [], unused := [], outs := [], edges := [] } }
  | some d =>
    let l := imgChains i
    { s with dfc := { s.dfc with
        outRing := d.outRing, thrRing := d.thrRing, outs := [], edges := []
        bankCap := packFields [(16, 13, (l.filter fun c => c.2.ownsPair).length), (0, 13, 3584 + 1024 * d.pool)]
        unused := ((allChains i).filter fun c => !c.2.valid).map fun c => (c.1, c.2.entry)
        chains := l.foldl (fun a c => insertK a c.1 (loadChain d c.1 c.2)) [] } }

/-- A pending swap takes effect at the first boundary that comes (R236, R237). -/
def swapsNext (s : State) : State :=
  { s with dfc := { s.dfc with
      chains := s.dfc.chains.map fun c => (c.1, { c.2 with swap := c.2.swap.map fun w => { w with after := (s.aln.next : Int) - 1 } }) } }

/-- Every chain is reset (R227). -/
def resetChains (s : State) : State :=
  { s with dfc := { s.dfc with chains := s.dfc.chains.map fun c => (c.1, c.2.resetAt s.aln.next) } }

def zeroHold (s : State) : State :=
  { s with lse := { s.lse with
      hold := List.replicate ((s.lse.sec.map fun im => im.buses.length).getD 0) c0, holdSeq := none, work := none, invFail := false, rework := [] } }

def loadLse (i : Image) (s : State) : State :=
  zeroHold { s with lse := { s.lse with
      sec := i.lse, lastVar := none, variant := 0, approx := false, unobs := false, chi := 0, last := List.replicate 4 0#32, unobZones := []
      measRt := [] } }

def loadOsm (i : Image) (s : State) : State :=
  let o := i.osm.getD { sets := [], inputs := [], located := [], pool := 0, outRing := 0 }
  { s with osm := { s.osm with
      outRing := o.outRing, inputs := o.inputs, located := o.located.map fun b => BitVec.ofNat 128 (clearLow 20 b.toNat), slots := [none, none, none, none], prev := none, locQueue := [], deferMark := []
      space := wordOf [(16, 16, ceilDiv (osmBytes (imgSets o)) 1048576), (0, 16, 32 + o.pool)]
      sets := (allSets o).foldl (fun a e => insertK a e.1 { e.2.clear with didReset := false }) [] } }

/-- Points that a STATUS channel names, with INVERT (R312). -/
def namedPoints (i : Image) : List Nat :=
  (imgEps i).flatMap fun e => if e.2.proto = 3 then (e.2.chans.filter fun d => chType d = 6).map chPoint else []

def loadSep (i : Image) (s : State) : State :=
  let table := ((i.sep.map SepSec.points).getD [])
  let fresh := fun (v : Bool) (k : Nat) =>
    ({ sec := 0, ns := 0, pos := 0, last := 0, stale := true, invert := (lookupK table k).getD false, valid := v } : Point)
  let entry := fun (z k : Nat) =>
    let e := (i.sep.bind fun p => lookupK p.refs z).getD 0#128
    BitVec.ofNat 128 (clearLow 65 e.toNat + place 61 4 k)
  let zone := fun (z k : Nat) => ({ entry := entry z k, hist := [], f := none, d := none, alt := false, topo := 0xFF, div := 0xFF } : Zone)
  let zones := i.hier.zones.foldl (fun a z => insertK a z.1 (zone z.1 z.2)) []
  { s with
    sep := { s.sep with
      outRing := (i.sep.map SepSec.outRing).getD 0, topoEn := i.lse.isSome
      points := (namedPoints i).foldl (fun a k => insertK a k (fresh true k)) ((table.map Prod.fst).foldl (fun a k => insertK a k (fresh false k)) [])
      zones := zones, systems := List.replicate 16 SepSys.reset, sepNow := 0, outNow := 0, topoNow := 0, outSample := []
      ckpt := (zones, List.replicate 16 SepSys.reset) }
    ge := { s.ge with outRing := (i.sep.map SepSec.geRing).getD 0, out := [], lastSec := 0 } }

/-- DECIDE and REVISABLE are derived (R334). -/
def loadRule (r : BitVec 256) : BitVec 256 :=
  let z := clearLow 163 r.toNat
  BitVec.ofNat 256 (z + place 162 1 (b2n (ruleDecide r)) + place 161 1 (b2n (ruleRevisable r)))

/-- A frame group at START; stNum, sqNum and the SPDU number go on from the START before, which nothing clears (log 26). -/
def loadGroup (old : Option Group) (g : GroupSec) : Group :=
  { sec := g
    spdu := (old.map Group.spdu).getD 0, stNum := (old.map Group.stNum).getD 0, sqNum := (old.map Group.sqNum).getD 0
    data := g.rules.map fun _ => (false, 0, 0), t := 0, every := 0, nextAt := none }

/-- HOLD_RULE of each ball (R340). -/
def loadPin (holds : List Nat) (k : Nat) (p : Pin) : Pin :=
  { p with cfg := wordOf [(4, 2, nth holds k 3), (0, 2, p.cfg.toNat)], latched := false }

def loadAla (i : Image) (s : State) : State :=
  let a := i.ala.getD { limits := [], rules := [], holds := [], groups := [], outRing := 0 }
  { s with ala := { s.ala with
      outRing := a.outRing, limits := a.limits.map fun l => (l.1, BitVec.ofNat 128 (clearLow 43 l.2.toNat)), rules := a.rules.map fun r => (r.1, loadRule r.2)
      conds := Conds.reset, info := [], values := [], active := [], ended := [], lastG := 0, lastSeq := 0, lastUtc := 0, lastMarks := 0, lastD2 := none
      groups := a.groups.zipIdx.map fun g => loadGroup (s.ala.groups[g.2]?) g.1
      pins := s.ala.pins.zipIdx.map fun p => loadPin a.holds p.2 p.1 } }

/-- ALARM_EGRESS of each port; downshift is disabled where the image gives it alarm egress or PTP (R41, R138, R344). -/
def loadPorts (i : Image) (s : State) : State :=
  let mask := fun (p : Nat) => ((i.ala.map AlaSec.groups).getD []).any fun g => g.ports.testBit p
  (List.range 4).foldl (fun s p =>
    let s := modPort p (fun q => { q with alarmEgress := mask p }) s
    if mask p || ptpPort s p then dsRevoke p s else s) s

/-- Settings in force (R37, R38). -/
def loadSys (i : Image) (mode : Nat) (s : State) : State :=
  { s with
    sys := { s.sys with
      guarEff := mode, dp := dpUs i mode * 1000, replayUs := fld s.sys.guarantee.toNat 23 8, rate := i.hier.rate, maintPend := none }
    swm := { s.swm with waitMax := waitMaxOf i * 1000, jumps := [] } }

/-- Everything START loads, and the window open. -/
def loadAll (i : Image) (role : Nat) (s : State) : State :=
  let m := modeReg s
  let s := loadAla i (loadSep i (loadOsm i (loadLse i (loadDfc i (loadTkx i m (loadAln i (loadIng i role (loadSys i m s))))))))
  resetChains (openWindow (loadPorts i s))

/-- START succeeds (R385): RUN, with its completion. It leaves CONFIG only. -/
def finishStart (c : Ctx) (role : Nat) (s : State) : State :=
  if s.sys.runState ≠ .config then complete c .state s else
  match s.image with
  | none => complete c .state s
  | some i =>
    let s := loadAll i role s
    let s := { s with
      sys := { s.sys with exclusive := false }
      pair := { s.pair with
        role := role, startAt := some s.tbu.free, startPend := none, lastEmit := none, frameSt := List.replicate 8 0, own := [], peer := [],
        finOwn := [], finPeer := [], idOwn := [], idPeer := [], mismatch := 0, idMismatch := List.replicate 8 0, marks := [],
        mirrored := [], frames := [], toMark := [], switchAt := none, st := if role = 0 then .unpaired else s.pair.st } }
    completeWith c .ok false (some 0) (s.sys.dp / 1000 * 2 ^ 64) (drivePins (setRunState .run 2 s))

/-- START of an unpaired module, and what START asks of a paired one: the peer's state (R491). -/
def startCmd (c : Ctx) (s : State) : State :=
  match judgeStart s with
  | .ok =>
    let role := fld s.pair.cfg.toNat 1 0
    if role = 0 then finishStart c 0 s
    else sendHello true { s with
      sys := { s.sys with exclusive := true }
      pair := { s.pair with startPend := some c, askAt := s.tbu.free } }
  | st => complete c st s

/-! Mirrored commands that need no parameters (R32, R34, R339, R386, R498) -/

/-- MAINT_EXIT: chains, sets and hold reset, limit states 0, the window open again (R34, R227, R257, R286, R328, R339). -/
def maintExit (s : State) : State :=
  let s := swapsNext (resetChains (reopenWindow (zeroHold (resetSets s))))
  let s := { s with ala := { s.ala with conds := { s.ala.conds with lims := [] } } }
  drivePins (setRunState .run 5 s)

/-- UNCONFIGURE: no rate is in force; what may not wait in CONFIG completes with E_STATE (R366, R377; a pending swap among it: log 27). -/
def unconfigure (s : State) : State :=
  let swaps := s.dfc.chains.filterMap fun c => c.2.swap.bind Swap.ctx
  let s := { s with dfc := { s.dfc with chains := s.dfc.chains.map fun c => (c.1, { c.2 with swap := none }) } }
  let s := swaps.foldl (fun s c => refuse c .state false s) s
  let s := dropIllegal { s with sys := { s.sys with rate := 0 } }
  drivePins (setRunState .config 6 s)

/-- CONFIG_LOCK (R386). -/
def configLock (s : State) : State :=
  let was := s.sys.locked
  let s := { s with sys := { s.sys with locked := true }, hif := { s.hif with open_ := false } }
  if was then s else logEv 5 1 0 0 s

/-! STEP (R98, R100, R378) -/

/-- What a STEP of MODE and AMOUNT does: APPLIED in 2^-16 ns; none where E_STATE. -/
def stepAmount (mode : Nat) (amount : Int) (s : State) : Option Int :=
  if mode = 1 then (if (selDom s).thetaOk then some (selDom s).theta else none)
  else some (amount * 65536)

/-- OFFSET of the selected domain changes, with all that follows a step (R98 to R101). -/
def stepBy (amt : Int) (s : State) : State :=
  if amt = 0 then s else
  let was := discTime s
  timeStepped was (epochStep amt true (modDom (selId s) (fun d => { d with offset := d.offset + amt }) s))

/-- STEP with its parameters (R378). -/
def stepCmd (c : Ctx) (p : BitVec 384) (s : State) : State :=
  let mode := fld p.toNat 319 319
  let amount := (BitVec.ofNat 64 (fld p.toNat 383 320)).toInt
  match stepAmount mode amount s with
  | none => complete c .state s
  | some a =>
    let s := stepBy a (mirror (.step mode amount) s)
    completeWith c .ok false none (ifld 64 (rneDiv a 65536) * 2 ^ 32 + s.tbu.epoch) s

end Sys2Proof.Machine
end

