-- ==== Sys2Proof/Machine/PairCtl.lean ====
section
/-! DEFINITION. The Pair Controller at work: state exchange, joining, marks, mirrored commands, takeover, heartbeats, lanes (R487 to R508). -/

namespace Sys2Proof.Machine

/-- The module takes part in a pair since its START. -/
def paired2 (s : State) : Bool := s.pair.role ≠ 0 && inPair s
/-- It follows an active peer (R490). -/
def follows (s : State) : Bool := s.pair.st = .syncing || s.pair.st = .standby

/-! Active again (R505, R507) -/

/-- Each frame group sends its current dataset under the last reported stNum plus 2. -/
def reissueGroups (s : State) : State :=
  (List.range s.ala.groups.length).foldl (fun s k =>
    newState k (nth s.pair.frameSt k 0 + 2) ((s.ala.groups[k]?).map Group.t |>.getD 0) s) s

/-- Pending mirrored scheduled commands become this module's own. -/
def ownSched (s : State) : State :=
  { s with hif := { s.hif with sched := s.hif.sched ++ s.pair.schedMir }, pair := { s.pair with schedMir := [] } }

/-- Takeover (R505). -/
def takeover (s : State) : State :=
  let last := s.pair.lastEmit.getD 0xFFFFFFFF
  let s := { s with pair := { s.pair with peerSt := 0, verified := false } }
  let s := setPair .solo .takeover last (pairCnt 7 1 s)
  reissueGroups (releaseFrames (ownSched s))

/-- AUTO_TAKEOVER. -/
def autoTakeover (s : State) : Bool := bitOf s.pair.cfg 4

/-- The peer is gone: an ACTIVE module is SOLO (R508). -/
def peerGone (s : State) : State :=
  let s := { s with pair := { s.pair with peerSt := 0, verified := false, gs := none } }
  if s.pair.st = .active then setPair .solo .peerLost 0 s else s

/-- FORCE_ACTIVE (R504). -/
def forceActive (v : Word) (s : State) : State := if bitOf v 0 && s.pair.st = .standby && s.sys.runState ≠ .safe then takeover s else s

/-- PEER_FATAL: the notice of an active module. -/
def peerFatal (s : State) : State :=
  if !(follows s) then s else
  let s := noteStill .peerFatal s
  if s.pair.st = .standby && autoTakeover s && s.sys.runState ≠ .safe then takeover s else peerGone s

/-! Silent work of catch-up (R493 step 4) -/

/-- The updates of the mode sets whose boundary a tick is (R283, R284). -/
def osmUpdates (t : Tick) (g : Nat) (s : State) : State :=
  ((List.range 8).filter fun k => osmBoundary s k g).foldl (fun s k => (osmWork t k s).1) s

/-- The silent work of one tick, its frozen view in hand. -/
def silentWork (t : Tick) (g : Nat) (s : State) : State :=
  let s := (List.range 16).foldl (fun s k => dfcGroup t k s) { s with dfc := { s.dfc with outs := [], edges := [] } }
  let (s, _) := sepWork t s
  let s := decideD1 t true s
  let (r, s) := match solveTick t 0 t.view s with
    | some (v, true) => analyzeTick t v s
    | some (_, false) => (none, lseInvariant s)
    | none => (none, s)
  let s := osmUpdates t g s
  let s := if locActive s then locationTick (locRead s.osm g t.view) s else s
  let s := decideD2 t r true s
  releaseTick g (modTick g (fun t => { t with commitDone := true }) s)

/-- COMMIT, SOLVE and ANALYZE work of a committed tick, with no EMIT and no records. -/
def silentTick (s : State) (g : Nat) : State :=
  match tickOf s g with
  | none => s
  | some t0 =>
    if t0.st = .opn then s else
    let s := modTick g (fun t => { t with bind := { t.bind with hold := s.lse.hold, holdSeq := s.lse.holdSeq } }) s
    silentWork ((tickOf s g).getD t0) g s

/-- Every committed tick after g that waits for its work, in order. -/
def catchUp (g : Nat) (s : State) : State :=
  let l := (s.aln.ticks.filter fun t => t.st ≠ .opn && decide (g < t.g) && !t.commitDone).map Tick.g
  let before := (s.aln.ticks.filter fun t => t.st ≠ .opn && decide (t.g ≤ g)).map Tick.g
  let s := before.foldl (fun s k => releaseTick k (modTick k (fun t => { t with commitDone := true }) s)) s
  l.foldl silentTick s

/-! Joining (R493, R494) -/

/-- CONFIG_MEAS: SHA-256 of the loaded image; 0 without one. -/
def configMeas (s : State) : BitVec 256 := (s.image.map Image.hash).getD 0#256

/-- This module's statement on a challenge, signed, with an ephemeral key of its own. The active challenges back: a join begins anew, with a new pair key (R493). -/
def answerChallenge (c : BitVec 256) (s : State) : State :=
  if s.kst.rootOk = false then s else
  let s := { s with kst := { s.kst with attestSeq := s.kst.attestSeq + 1 } }
  let body := statement (natBytes 32 c) (configMeas s) s
  let (k, s) := freshKey s
  let (e, s) := drawFree s
  let priv := Config.freeBits e
  let pub := pubOf priv.toNat
  let s := { s with pair := { s.pair with eph := priv } }
  let s := yokeSend (.attest (body ++ ecdsaSign (identityKey s) k (sha256 body)) (beNat (pub.take 32), beNat (pub.drop 32))) s
  if isActive s then challengePeer { s with pair := { s.pair with gs := none } } else s

/-- The eight words of an identity digest, in the order of KST_ID_DIGEST. -/
def digestWords (d : List Byte) : List Word := (List.range 8).map fun k => BitVec.ofNat 32 (beAt d (28 - 4 * k) 4)

/-- The peer's statement passes (R493 step 1). -/
def attestOk (st : List Byte) (s : State) : Bool :=
  let pub := sub st 48 64
  let id := digestWords (sha256 pub)
  decide (1344 ≤ st.length) &&
    ecdsaVerify (beNat (pub.take 32), beNat (pub.drop 32)) (beNat (sha256 (st.take 1280))) (beAt st 1280 32) (beAt st 1312 32) &&
    decide (sub st 16 32 = natBytes 32 s.pair.challenge) && decide (id = s.pair.peerId) && s.pair.peerId.any (· ≠ 0#32) &&
    decide (beAt st 12 1 = lcState s) && decide (lcState s ≠ 0) && decide (sub st 112 32 = natBytes 32 s.kst.fwMeas) &&
    decide (sub st 144 32 = natBytes 32 (configMeas s)) && decide (s.pair.peerRole ≠ s.pair.role)

/-- The pair key (R493 step 2). -/
def pairKeyOf (peerPub : List Byte) (eph : Nat × Nat) (s : State) : BitVec 256 :=
  let x := match ecMul 256 s.pair.eph.toNat (some eph) with
    | some (x, _) => toBE 32 x
    | none => List.replicate 32 0#8
  let a := identityDigest s
  let b := sha256 peerPub
  let salt := if beNat a ≤ beNat b then a ++ b else b ++ a
  BitVec.ofNat 256 (beNat (hkdf salt x [0x48#8, 0x58#8, 0x50#8, 0x52#8]))

/-- PEER_ATTEST_RECEIVE. -/
def attestReceive (a : PeerAttest) (s : State) : State :=
  if !(paired2 s) then s else
  let s := match a.challenge with
    | some c => answerChallenge c s
    | none => s
  match a.statement with
  | none => s
  | some st =>
    if s.pair.verified || !(s.pair.st = .syncing || isActive s) then s
    else if attestOk st s then
      { s with pair := { s.pair with
          verified := true, peerSeen := digestWords (sha256 (sub st 48 64)), pairKey := pairKeyOf (sub st 48 64) a.eph s } }
    else
      let s := noteStill .peerRefused (pairCnt 11 1 s)
      if s.pair.st = .syncing then joinLater s else s

/-- Engine state of the active, taken over. -/
def loadEngines (e : Engines) (s : State) : State :=
  { s with
    dfc := { s.dfc with chains := e.chains }
    lse := { s.lse with hold := e.hold, holdSeq := e.holdSeq, lastVar := e.lastVar }
    osm := { e.osm with event := s.osm.event, eventEn := s.osm.eventEn, cnt := s.osm.cnt, setSel := s.osm.setSel, brSel := s.osm.brSel,
                        outRing := s.osm.outRing }
    sep := { s.sep with zones := e.zones, systems := e.systems }
    ala := { s.ala with
      conds := e.ala.conds, info := e.ala.info, values := e.ala.values, active := e.ala.active, ended := e.ala.ended, nextId := e.ala.nextId
      lastG := e.ala.lastG, lastSeq := e.ala.lastSeq, lastUtc := e.ala.lastUtc, lastMarks := e.ala.lastMarks, lastD2 := e.ala.lastD2
      pins := s.ala.pins.zipIdx.map fun p => { p.1 with latched := ((e.ala.pins[p.2]?).map Pin.latched).getD p.1.latched } } }

/-- SNAPSHOT_RECEIVE: slots, then engine state and catch-up (R493 steps 3 and 4, R494 step 3). -/
def snapshotReceive (x : Snapshot) (s : State) : State :=
  if s.pair.st ≠ .syncing || !s.pair.verified then s else
  let s := x.slots.foldl (fun s e => setSlot e.1 e.2 s) s
  let s := { s with pair := { s.pair with gs := some x.g } }
  match x.engines with
  | none => s
  | some e =>
    if s.pair.cold then s else
    catchUp x.g { (loadEngines e s) with pair := { s.pair with catching := true } }

/-- SYNCED: the module has reached the live tick (R493 step 5, R494 step 4). -/
def synced (s : State) : State :=
  if s.pair.st ≠ .syncing || !s.pair.verified || s.pair.gs.isNone || !(s.pair.catching || s.pair.cold) || s.sys.runState = .safe then s else
  let s := modCur (fun c => { c with skip := true }) (setPair .standby .synced 0 (pairCnt 9 1 s))
  { s with pair := { s.pair with catching := false, cold := false, retryAt := none } }

/-- SYNC_FAIL: STANDBY was not reached by the commit of g_s + 15. -/
def syncFail (s : State) : State :=
  if s.pair.st ≠ .syncing then s else
  match s.pair.gs with
  | none => s
  | some g => if s.aln.next ≤ g + 15 then s else joinLater (noteStill .syncFail (pairCnt 10 1 s))

/-- JOIN_RETRY: 1 s after a refusal or a failure. -/
def joinRetry (s : State) : State :=
  match s.pair.retryAt with
  | none => s
  | some t =>
    if s.pair.st ≠ .syncing || decide (s.tbu.free < t) then s
    else challengePeer { s with pair := { s.pair with retryAt := none } }

/-! State exchange (R490 to R492, R508) -/

/-- The STARTs of both modules lie within 1 ms. -/
def startsNear (h : PairHello) (s : State) : Bool :=
  match s.pair.startAt, h.since with
  | some t, some d =>
    let own := s.tbu.free - t
    decide (own - d ≤ secFr / 1000 ∧ d - own ≤ secFr / 1000)
  | _, _ => false

/-- A code of SOLO or ACTIVE. -/
def codeActive (c : Nat) : Bool := c = 1 || c = 4

/-- The START that waits gets its answer (R41, R491). -/
def answerStart (c : Ctx) (h : PairHello) (s : State) : State :=
  let fail := fun (s : State) => complete c .param { s with sys := { s.sys with exclusive := false }, pair := { s.pair with startPend := none } }
  match s.image with
  | none => fail s
  | some i =>
    if h.since.isSome && h.st ≠ 0 && !(pairMatches s i h) then fail s
    else
      let role := fld s.pair.cfg.toNat 1 0
      let s := finishStart c role s
      let near := startsNear h s
      if codeActive h.st && !(near && role = 1) then beginJoin near s
      else setPair .solo .soloStart 0 s

/-- Both modules are active (R492). -/
def dualActive (h : PairHello) (s : State) : State :=
  let s := noteStill .dualActive (raiseFault (FaultIn.plain 0x32 15) s)
  if s.sys.runState = .safe then s
  else if h.role = s.pair.role then noteStill .peerRefused (pairCnt 11 1 s)
  else if s.pair.role = 2 then beginJoin false s
  else s

/-- What the peer's state means to a module that runs. -/
def judgePeer (was : Nat) (h : PairHello) (s : State) : State :=
  if isActive s then
    if codeActive h.st then
      if codeActive was then s
      else if startsNear h s && h.role ≠ s.pair.role then (if s.pair.role = 2 then beginJoin true s else s)
      else dualActive h s
    else if h.st = 3 then
      if s.pair.st = .solo then drivePins (sendHello false { s with pair := { s.pair with st := .active } }) else s
    else if h.st = 2 then
      let s := { s with pair := { s.pair with
        cold := h.cold, gs := if s.pair.cold && !h.cold then none else s.pair.gs
        verified := s.pair.verified && was = 2 } }
      if s.pair.st = .active then sendHello false { s with pair := { s.pair with st := .solo } } else s
    else peerGone s
  else s

/-- PAIR_STATE_EXCHANGE. -/
def stateExchange (h : PairHello) (s : State) : State :=
  if fld s.pair.cfg.toNat 1 0 = 0 && s.pair.role = 0 then s else
  let was := s.pair.peerSt
  let s := { s with pair := { s.pair with peerSt := h.st, peerRole := h.role } }
  let s := if h.query then sendHello false s else s
  match s.pair.startPend with
  | some c => answerStart c h s
  | none => if paired2 s && s.sys.runState ≠ .safe then judgePeer was h s else s

/-- PAIR_QUERY_TIMEOUT: the peer has not answered within 10 ms. -/
def queryTimeout (s : State) : State :=
  match s.pair.startPend with
  | none => s
  | some c =>
    if s.tbu.free < s.pair.askAt + secFr / 100 then s
    else setPair .solo .soloStart 0 (finishStart c (fld s.pair.cfg.toNat 1 0) s)

/-! Mirrored commands (R498, R499) -/

/-- One mirrored command takes effect on the standby. -/
def applyMirror (s : State) (c : MirrorCmd) : State :=
  match c with
  | .maintEnter => if s.sys.runState = .run then maintWhenIdle { s with sys := { s.sys with maintPend := some (none, false) } } else s
  | .maintExit => if s.sys.runState = .maintenance then maintExit s else s
  | .unconfigure => if s.sys.runState = .maintenance then unconfigure s else s
  | .configLock => configLock s
  | .step mode amount => match stepAmount mode amount s with
    | some a => stepBy a s
    | none => s
  | .coefLoad ch n h after => match chainOf s ch with
    | some x => { s with dfc := { s.dfc with chains := insertK s.dfc.chains ch (x.stage n h { ctx := none, after := after, late := false, at_ := s.tbu.free }) } }
    | none => s
  | .sched c => { s with pair := { s.pair with schedMir := s.pair.schedMir ++ [c] } }
  | .key (.upd u) => yokeSend .mirrorAck (applyKey u s)
  | .key (.revoke k) => yokeSend .mirrorAck (keyRevoke k s).2

/-- Whether a mirrored command takes effect after the tick it follows, and not on receipt (R498). -/
def MirrorCmd.ordered : MirrorCmd → Bool
  | .maintEnter => true
  | .maintExit => true
  | .unconfigure => true
  | .configLock => true
  | .coefLoad .. => true
  | .step .. => false
  | .sched _ => false
  | .key _ => false

/-- The mirrored command whose turn it is: no MAINT_ENTER waits, and every mark that came before it has been used. -/
def mirrorTurn (s : State) : Option MirrorCmd :=
  match s.pair.mirrored with
  | [] => none
  | c :: _ => if s.sys.maintPend.isNone && s.pair.marks.all (fun m => decide (c.1 < m.g)) then some c.2 else none

/-- Mirrored commands that wait for a MAINT_ENTER or a mark before them are applied in order. -/
def drainMirrorN : Nat → State → State
  | 0, s => s
  | k + 1, s =>
    match mirrorTurn s with
    | none => s
    | some c => drainMirrorN k (applyMirror { s with pair := { s.pair with mirrored := s.pair.mirrored.tail } } c)

def drainMirrored (s : State) : State := drainMirrorN s.pair.mirrored.length s

/-- The grid index of the last mark that waits; -1 with none. -/
def lastWaiting (s : State) : Int := (s.pair.marks.getLast?.map fun m => (m.g : Int)).getD (-1)

/-- MIRROR_COMMAND_RECEIVE. -/
def mirrorReceive (c : MirrorCmd) (s : State) : State :=
  if !(follows s) || s.sys.runState = .safe then s
  else if c.ordered then drainMirrored { s with pair := { s.pair with mirrored := s.pair.mirrored ++ [(lastWaiting s, c)] } }
  else applyMirror s c

/-- MIRROR_ACK_RECEIVE: the standby's slot is written; this module's follows. -/
def mirrorAck (s : State) : State :=
  match s.pair.keyPend with
  | [] => s
  | k :: r => endKey k.ctx k.late k.tick k.job { s with pair := { s.pair with keyPend := r } }

/-- MIRROR_FAIL: no acknowledgement within 10 ms, or the Yoke is gone. -/
def mirrorFail (s : State) : State :=
  match s.pair.keyPend with
  | [] => s
  | k :: r =>
    if yokeUp s && decide (s.tbu.free < k.at_ + secFr / 100) then s else
    let s := completeWith k.ctx .internal k.late k.tick 0 { s with pair := { s.pair with keyPend := r } }
    raiseFault (FaultIn.plain 0x33 15) (noteStill .mirrorFail s)

/-! Marks (R495, R497, R505, R507, R508) -/

/-- The peer becomes active at a SWITCH mark (R507). -/
def becomeActive (s : State) : State :=
  let s := { s with pair := { s.pair with frames := [], toMark := [], peerSt := 3, marks := [] } }
  let s := setPair .active .switchover 0 (pairCnt 8 1 s)
  reissueGroups (ownSched s)

/-- The tick of a mark commits. -/
def useMark (m : CommitMark) (s : State) : State :=
  if decide (m.g < s.aln.next) || !(ticking s) then s else
  let s := commitNext m.cause (some m) false s
  let s := if s.pair.catching then silentTick s m.g else s
  let s := if s.pair.st = .syncing && s.pair.verified && s.pair.gs.isNone then { s with pair := { s.pair with gs := some m.g } } else s
  if m.switch && s.pair.st = .standby && s.sys.runState = .run then becomeActive s else s

/-- Marks that arrived during a recovery are used once it has ended (R508), and one of a tick that R40 holds back once that is over; mirrored commands take their turn between them. -/
def drainMarksN : Nat → State → State
  | 0, s => s
  | k + 1, s =>
    let s := drainMirrored s
    match s.pair.marks with
    | [] => s
    | m :: r =>
      if recovering s || s.sys.maintPend.isSome || decide (s.aln.next ≤ m.g ∧ s.tbu.free < s.tkx.notBefore) then s else drainMarksN k (useMark m { s with pair := { s.pair with marks := r } })

def drainMarks (s : State) : State := drainMarksN s.pair.marks.length s

/-- COMMIT_MARK_RECEIVE. -/
def commitMarkReceive (m : CommitMark) (s : State) : State :=
  if !(follows s) || s.sys.runState ≠ .run then s
  else drainMarks (advanceFront { s with pair := { s.pair with lastMark := m.seq, marks := s.pair.marks ++ [m] } })

/-- MARK_MISSING: no mark by Tm + WAIT_MAX + 100 µs; a cold join ends (R494, R495). -/
def markMissing (s : State) : State :=
  let g := s.aln.next
  let due := tmReached (frate s) g ((s.aln.waitMax + 100) * 1000 * fr : Nat) (discTime s)
  if !(follows s) || !(ticking s) || !due || recovering s || decide (s.tbu.free < s.tkx.notBefore) then s else
  let s := pairCnt 6 1 (commitNext 1 none true (advanceFront s))
  let s := if s.pair.catching then silentTick s g else s
  if s.pair.st = .syncing && s.pair.cold then sendHello false { s with pair := { s.pair with cold := false, gs := none } } else s

/-- EMIT_MARK_RECEIVE: frames of the tick, and of those before it, need not be kept. -/
def emitMarkReceive (seq : Nat) (s : State) : State :=
  if !(follows s) then s else
  { s with pair := { s.pair with
      lastEmit := some seq, frames := s.pair.frames.filter fun h => newer h.seq seq } }

/-- FRAME_MARK_RECEIVE. -/
def frameMarkReceive (g st : Nat) (s : State) : State :=
  if !(follows s) then s else { s with pair := { s.pair with frameSt := setAt s.pair.frameSt g st } }

/-- INJECT_FORWARD_RECEIVE (R496). -/
def injectForward (id : Nat) (bytes : List Byte) (s : State) : State :=
  if !(follows s) || s.sys.runState ≠ .run then s else (injectJudge id bytes s).2

/-! Heartbeats and lanes (R487, R488) -/

/-- YOKE_HEARTBEAT_SEND: once every 1.0 ms of TBU_FREE. -/
def hbSend (s : State) : State :=
  if !s.sys.ready || decide (s.tbu.free < s.pair.hbNext) then s else
  yokeSend (.heartbeat (discTime s)) { s with pair := { s.pair with hbNext := s.tbu.free + secFr / 1000 } }

/-- YOKE_HEARTBEAT_RECEIVE on a lane, with the peer's disciplined time. -/
def hbReceive (lane : Nat) (peer : Int) (s : State) : State :=
  { s with pair := { s.pair with
      hbAt := setAt s.pair.hbAt lane s.tbu.free, missed := setAt s.pair.missed lane 0, heard := true
      timeDiff := ofInt 32 (satI 32 (rneDiv (peer - discTime s) 65536)) } }

/-- HEARTBEAT_LOST (R488, R504, R508). -/
def heartbeatLost (s : State) : State :=
  let s := mbxYokeLost { s with pair := { s.pair with heard := false } }
  let s := noteStill .heartbeatLost (pairCnt 12 1 s)
  if s.pair.st = .standby && autoTakeover s && s.sys.runState ≠ .safe then takeover s else peerGone s

/-- YOKE_HEARTBEAT_MISSED: the next heartbeat of a lane has not come within 1.05 ms. -/
def hbMissed (lane : Nat) (s : State) : State :=
  let n := nth s.pair.missed lane 0
  let due := nth s.pair.hbAt lane 0 + (n + 1) * (secFr / 100000 * 105)
  if !s.pair.heard || decide (s.tbu.free < due) then s else
  let s := { s with pair := { s.pair with missed := setAt s.pair.missed lane (n + 1) } }
  if s.pair.missed.all fun k => decide (3 ≤ k) then heartbeatLost s else s

/-- LANE_DOWN and LANE_UP. -/
def laneDown (lane : Nat) (s : State) : State :=
  let up := if lane = 0 then s.pair.lane0 else s.pair.lane1
  if !up then s else
  let s := { s with pair := { s.pair with lane0 := s.pair.lane0 && lane ≠ 0, lane1 := s.pair.lane1 && lane = 0 } }
  noteStill .laneDown (if yokeUp s then s else mbxYokeLost s)

def laneUp (lane : Nat) (s : State) : State :=
  let up := if lane = 0 then s.pair.lane0 else s.pair.lane1
  if up then s else
  let first := !(yokeUp s)
  let s := { s with pair := { s.pair with
    lane0 := s.pair.lane0 || lane = 0, lane1 := s.pair.lane1 || lane ≠ 0, hbAt := setAt s.pair.hbAt lane s.tbu.free
    missed := setAt s.pair.missed lane 0 } }
  noteStill .laneUp (if first then mbxYokeUp s else s)

/-- A lane whose SerDes calibration did not fail (R524). -/
def laneGood (lane : Nat) (s : State) : Bool := !(s.sys.laneBad.testBit (4 + lane))

/-- YOKE_UP: the lanes come up, and the modules tell each other their states (R492). -/
def yokeComesUp (h : PairHello) (s : State) : State :=
  let s := if laneGood 0 s then laneUp 0 s else s
  let s := if laneGood 1 s then laneUp 1 s else s
  if yokeUp s then stateExchange h (sendHello false s) else s

/-- YOKE_CRC: a failed message, which is retransmitted. -/
def yokeCrc (s : State) : State := raiseFault (FaultIn.plain 0x30 15) s

end Sys2Proof.Machine
end

