-- ==== Sys2Proof/Machine/Commands.lean ====
section
/-! DEFINITION. Rings, doorbells and descriptors: what a ring does, how a descriptor is read and judged, what each command does (R353 to R360,
R366, R370 to R380, R389, R421, R422, R459 to R475, R507, R529). -/

namespace Sys2Proof.Machine

/-! Intake (R358, R370, R375, R376) -/

def Ring.host (r : Ring) : Bool := r.type = .cmd || r.type = .inject

/-- A descriptor waits at the head of a ring that may start one. -/
def headWaits (s : State) (n : Nat) : Bool :=
  let r := ringOf s n
  r.enabled && r.host && busOn s && !r.blocked && decide (r.head ≠ r.tail)

/-- The COMPL ring that a host ring names has an entry to reserve, and none held (R358, R370). -/
def complFree (s : State) (n : Nat) : Bool :=
  let r := ringOf s (ringOf s n).complRing
  r.enabled && r.type = .compl && r.held.isEmpty && decide (r.reserved < r.room)

/-- Rings whose intake waits for a completion entry set COMPL_WAIT. -/
def noteWaits (s : State) : State :=
  if (List.range 64).any fun n => headWaits s n && !(complFree s n) then hifEvent 4 s else s

/-- Opcodes (R374). -/
inductive Opcode where
  | nop
  | configLoad
  | start
  | configLock
  | maintEnter
  | maintExit
  | unconfigure
  | fwLoad
  | step
  | dfcCoefLoad
  | logClear
  | logExport
  | keyGenerate
  | keyImport
  | keyRoll
  | keyRevoke
  | lifecycle
  | attest
  | pairSwitchover
  | inject
  deriving DecidableEq, Repr

def Opcode.code : Opcode → Nat
  | .nop => 0x00
  | .configLoad => 0x01
  | .start => 0x02
  | .configLock => 0x03
  | .maintEnter => 0x04
  | .maintExit => 0x05
  | .unconfigure => 0x06
  | .fwLoad => 0x07
  | .step => 0x10
  | .dfcCoefLoad => 0x20
  | .logClear => 0x30
  | .logExport => 0x31
  | .keyGenerate => 0x40
  | .keyImport => 0x41
  | .keyRoll => 0x42
  | .keyRevoke => 0x43
  | .lifecycle => 0x44
  | .attest => 0x45
  | .pairSwitchover => 0x50
  | .inject => 0x60

/-- SCHED = 1 is allowed. -/
def Opcode.sched : Opcode → Bool
  | .maintEnter => true
  | .dfcCoefLoad => true
  | .keyRoll => true
  | .pairSwitchover => true
  | _ => false

/-- Run states in which an opcode is legal: CONFIG, RUN, MAINTENANCE, SAFE. -/
def Opcode.states : Opcode → List RunState
  | .nop => [.config, .run, .maintenance, .safe]
  | .configLoad => [.config]
  | .start => [.config]
  | .configLock => [.config, .run, .maintenance]
  | .maintEnter => [.run]
  | .maintExit => [.maintenance]
  | .unconfigure => [.maintenance]
  | .fwLoad => [.config, .maintenance]
  | .step => [.config, .run, .maintenance]
  | .dfcCoefLoad => [.run]
  | .logClear => [.maintenance]
  | .logExport => [.config, .run, .maintenance, .safe]
  | .keyGenerate => [.config, .maintenance]
  | .keyImport => [.config, .maintenance]
  | .keyRoll => [.config, .run, .maintenance]
  | .keyRevoke => [.config, .run, .maintenance]
  | .lifecycle => [.config]
  | .attest => [.config, .run, .maintenance, .safe]
  | .pairSwitchover => [.run]
  | .inject => [.run]

/-- Exclusive work. -/
def Opcode.excl : Opcode → Bool
  | .configLoad => true
  | .start => true
  | .unconfigure => true
  | .fwLoad => true
  | _ => false

/-- The module is the standby of a pair and refuses every descriptor (R375 step 2): from its START until it becomes active or is reset. -/
def refusing (s : State) : Bool := follows s

/-- Steps 1 to 5 of R375: the status of the first failure. -/
def judgeHead (o : Opcode) (d : Desc) (s : State) : Option Status :=
  if decide (o = .inject) != decide ((ringOf s d.ring).type = .inject) then some .param
  else if refusing s then some .state
  else if !(o.states.contains s.sys.runState) || (o = .unconfigure && s.sys.locked) then some .state
  else if d.sched && (!o.sched || decide (1000000000 ≤ d.schedNs)) then some .param
  else if o.excl && s.sys.exclusive then some .busy
  else none

/-- The descriptor of a ring's head is read: head advances, a completion entry is reserved, the ring is blocked. -/
def takeHead (d : Desc) (op : Nat) (s : State) : Ctx × State :=
  let r := ringOf s d.ring
  let c : Ctx := { ring := d.ring, index := r.head, opcode := op, tag := d.tag, irq := d.irq, blocks := true, discard := false, compl := r.complRing }
  let s := modRing d.ring (fun r => { r with head := (r.head + 1) % r.size, blocked := true }) s
  (c, modRing c.compl (fun r => { r with reserved := r.reserved + 1 }) s)

/-- A descriptor at the head of a ring is read and judged; one that passes runs, one that fails completes by `fail`. Where none waits nothing
happens. -/
def withDesc (o : Opcode) (d : Desc) (fail : Ctx → Status → State → State) (run : Ctx → State → State) (s : State) : State :=
  if !(headWaits s d.ring) then s
  else if !(complFree s d.ring) then hifEvent 4 s
  else
    let (c, s) := takeHead d o.code s
    let s := match d.read with
      | .failed => complete { c with opcode := 0xFF, tag := 0#32, irq := false } .param (dmaErr s)
      | .unknown op => complete { c with opcode := op } .param (hifCnt 0 1 s)
      | .good =>
        let s := hifCnt 0 1 s
        match judgeHead o d s with
        | some st => fail c st s
        | none => run c s
    noteWaits s

/-- A command with no count of its own. -/
def plainDesc (o : Opcode) (d : Desc) (run : Ctx → State → State) (s : State) : State := withDesc o d complete run s

/-! Scheduled commands (R68, R376, R498) -/

/-- It waits on the frame-tick list and stops blocking its ring. -/
def pendSched (c : Ctx) (atNs : Nat) (late : Bool) (cmd : SchedCmd) (s : State) : State :=
  let x : Sched := { ctx := { c with blocks := false }, atNs := atNs, late := late, cmd := cmd }
  let s := modRing c.ring (fun r => { r with blocked := false }) s
  mirror (.sched x) { s with hif := { s.hif with sched := s.hif.sched ++ [x] } }

/-- One day ahead, in 2^-16 ns. -/
def dayFr : Int := ((86400 * secFr : Nat) : Int)

/-- R68 at acceptance: E_PARAM, then E_NOSPACE, then E_PAST (DESIGN CHOICE, log 45). -/
def acceptSched (c : Ctx) (d : Desc) (fail : Ctx → Status → State → State) (cmd : SchedCmd) (s : State) : State :=
  let atNs := d.schedSec * 1000000000 + d.schedNs
  let l := lateness s atNs
  if dayFr < -l then fail c .param s
  else if 256 ≤ s.hif.sched.length then fail c .nospace s
  else if l ≤ 0 then pendSched c atNs false cmd s
  else if pastHorizon s ≤ l then tooLate c l s
  else pendSched c atNs true cmd (judgedLate l s)

/-! Commands (R374) -/

def nopCmd (d : Desc) (s : State) : State := plainDesc .nop d (fun c s => complete c .ok s) s

def configLoadCmd (d : Desc) (list : Option (List (BitVec 128))) (img : Option Image) (s : State) : State :=
  plainDesc .configLoad d (fun c s => configLoad c d.params list img s) s

def startDesc (d : Desc) (s : State) : State := plainDesc .start d startCmd s

def configLockCmd (d : Desc) (s : State) : State :=
  plainDesc .configLock d (fun c s => complete c .ok (configLock (mirror .configLock s))) s

/-- MAINT_ENTER; one that finds another in progress waits behind it. -/
def maintEnterNow (c : Ctx) (s : State) : State :=
  if s.sys.maintPend.isSome then { s with hif := { s.hif with sched := s.hif.sched ++ [{ ctx := c, atNs := 0, late := false, cmd := .maintEnter }] } }
  else maintWhenIdle (mirror .maintEnter { s with sys := { s.sys with maintPend := some (some c, false) } })

def maintEnterCmd (d : Desc) (s : State) : State :=
  plainDesc .maintEnter d (fun c s => if d.sched then acceptSched c d complete .maintEnter s else maintEnterNow c s) s

def maintExitCmd (d : Desc) (s : State) : State :=
  plainDesc .maintExit d (fun c s => complete c .ok (maintExit (mirror .maintExit s))) s

def unconfigureCmd (d : Desc) (s : State) : State :=
  plainDesc .unconfigure d (fun c s => complete c .ok (unconfigure (mirror .unconfigure s))) s

/-- FW_LOAD (R474): parameters and list as CONFIG_LOAD, 256 bytes to 16 MiB. -/
def fwLoadNow (c : Ctx) (p : BitVec 384) (list : Option (List (BitVec 128))) (img : Option (List Byte)) (s : State) : State :=
  let q := loadParams p
  if lcState s = 4 then complete c .state s
  else if q.total < 256 ∨ 16777216 < q.total ∨ q.addr % 16 ≠ 0 then complete c .param s
  else match list with
    | none => complete c .param (dmaErr s)
    | some l =>
      if !(listOk q l) then complete c .param s
      else match img with
        | none => complete c .param (dmaErr s)
        | some b =>
          let (st, r, s) := fwJudge (padTo q.total (b.take q.total)) s
          completeWith c st false none (if st = .ok then r else 0) (keyCount false st s)

def fwLoadCmd (d : Desc) (list : Option (List (BitVec 128))) (img : Option (List Byte)) (s : State) : State :=
  plainDesc .fwLoad d (fun c s => fwLoadNow c d.params list img s) s

def stepDesc (d : Desc) (s : State) : State := plainDesc .step d (fun c s => stepCmd c d.params s) s

/-- Parameters of DFC_COEF_LOAD (R379). -/
structure CoefParams where
  chain  : Nat
  filter : Nat
  n      : Nat
  addr   : Nat
  deriving DecidableEq, Repr

def coefParams (p : BitVec 384) : CoefParams := ⟨fld p.toNat 383 372, fld p.toNat 371 369, fld p.toNat 368 361, fld p.toNat 351 288⟩

/-- The words of the buffer, (N + 1)/2 of them; a preset reads none. -/
def coefWords (q : CoefParams) (words : Option (List Word)) : Option (List Word) :=
  if q.filter < 4 then some [] else words.map fun l => (List.range ((q.n + 1) / 2)).map fun k => nth l k 0#32

/-- DFC_COEF_LOAD past R375: checks, then at once or scheduled (R235). -/
def coefLoadNow (c : Ctx) (d : Desc) (words : Option (List Word)) (s : State) : State :=
  let fail := fun (c : Ctx) (st : Status) (s : State) => refuse c st false s
  let q := coefParams d.params
  if !(loadParamOk s q.chain q.filter q.n) || (decide (q.filter = 4) && decide (q.addr % 4 ≠ 0)) then fail c .param s
  else match coefWords q words with
    | none => fail c .param (dmaErr s)
    | some w =>
      if !(w.all wordOk) then fail c .param s
      else if d.sched then acceptSched c d fail (.dfcCoefLoad q.chain q.filter q.n w) s
      else beginLoad c false q.chain q.filter q.n w (loadAfter s q.chain) s

def dfcCoefLoadCmd (d : Desc) (words : Option (List Word)) (s : State) : State :=
  withDesc .dfcCoefLoad d (fun c st s => refuse c st false s) (fun c s => coefLoadNow c d words s) s

def logClearCmd (d : Desc) (s : State) : State :=
  plainDesc .logClear d (fun c s => let (seq, s) := logClear s; completeWith c .ok false none seq s) s

/-- LOG_EXPORT (R422). -/
def logExportNow (c : Ctx) (p : BitVec 384) (s : State) : State :=
  let from_ := fld p.toNat 383 320
  let count := fld p.toNat 319 300
  let ring := fld p.toNat 299 294
  let next := s.log.seqNext
  if !((ringOf s ring).enabled && (ringOf s ring).type = .stream) || decide (next ≤ from_) then complete c .param s
  else
    let a := max from_ s.log.oldest
    let n := if count = 0 then next - a else count
    let (e, sk, s) := logExportN ring n a (0, 0, s)
    completeWith c .ok false none (e * 2 ^ 64 + sk * 2 ^ 32 + (a + n - 1) % 2 ^ 32) (logEventBit 3 s)

def logExportCmd (d : Desc) (s : State) : State := plainDesc .logExport d (fun c s => logExportNow c d.params s) s

/-- The integrity code of the slot's buffer fails as a key command reads it: the command completes with E_INTERNAL, and KEY_CELL is raised (R473). -/
def cellFail (c : Ctx) (slot : Nat) (s : State) : State :=
  drainMirrored (settle (raiseFault { FaultIn.plain 0x12 13 with detail := slot } (complete c .internal s)))

def keyGenerateCmd (d : Desc) (cellErr : Bool) (s : State) : State :=
  plainDesc .keyGenerate d (fun c s =>
    let (r, s') := prepGenerate d.params s
    if cellErr && r.writes then cellFail c (fld d.params.toNat 383 378) s else finishKey c false none r s') s

def keyImportCmd (d : Desc) (blob : Option (List Byte)) (s : State) : State :=
  plainDesc .keyImport d (fun c s => finishKey c false none (prepImport d.params blob s) s) s

/-- KEY_ROLL past R375; a scheduled one is checked at acceptance and again where it executes. -/
def keyRollNow (c : Ctx) (d : Desc) (blob : Option (List Byte)) (cellErr : Bool) (s : State) : State :=
  let (r, s') := rollOf d.params blob s
  if cellErr && r.writes then cellFail c (fld d.params.toNat 383 378) s
  else if !d.sched then finishKey c false none r s'
  else match r with
    | .upd u => acceptSched c d complete (.keyRoll u.slot d.params blob) s
    | r => finishKey c false none r s

def keyRollCmd (d : Desc) (blob : Option (List Byte)) (cellErr : Bool) (s : State) : State :=
  plainDesc .keyRoll d (fun c s => keyRollNow c d blob cellErr s) s

/-- KEY_REVOKE (R469), through the standby where the slot has PAIR = 1 (R499). -/
def keyRevokeNow (c : Ctx) (p : BitVec 384) (s : State) : State :=
  let k := fld p.toNat 383 378
  if !(keyLegal s) || (slotOfKey s k).st = .empty then complete c .state s
  else startKey c false none (.revoke k) s

def keyRevokeCmd (d : Desc) (s : State) : State := plainDesc .keyRevoke d (fun c s => keyRevokeNow c d.params s) s

/-- LIFECYCLE fails because its signature or its data could not be read: with both read it would be judged further (R353). -/
def lcUnread (p : BitVec 384) (sig aux : Option (List Byte)) (s : State) : Bool :=
  decide ((lifecycle p sig aux s).1 = .param) && decide ((lifecycle p (some (sig.getD [])) (some (aux.getD [])) s).1 ≠ .param)

/-- LIFECYCLE's RESULT: NEW_STATE and LEFT of a completion with OK. -/
def lifecycleCmd (d : Desc) (sig aux : Option (List Byte)) (s : State) : State :=
  plainDesc .lifecycle d (fun c s =>
    let (st, s) := lifecycle d.params sig aux (if lcUnread d.params sig aux s then dmaErr s else s)
    completeWith c st false none (if st = .ok then lcState s * 32 + lcLeft s else 0) (keyCount false st s)) s

def attestCmd (d : Desc) (challenge : Option (List Byte)) (s : State) : State :=
  plainDesc .attest d (fun c s =>
    let (st, r, s) := attest d.params challenge (configMeas s) s
    let s := if st = .param && challenge.isNone && decide ((attest d.params (some []) (configMeas s) s).1 ≠ .param) then dmaErr s else s
    completeWith c st false none (if st = .ok then r else 0) s) s

/-- PAIR_SWITCHOVER without a time executes at the next tick to commit (R507). -/
def switchNow (c : Ctx) (s : State) : State :=
  if switchOk s && s.pair.switchAt.isNone then { s with pair := { s.pair with switchAt := some (c, false) } } else complete c .state s

def pairSwitchoverCmd (d : Desc) (s : State) : State :=
  plainDesc .pairSwitchover d (fun c s => if d.sched then acceptSched c d complete .pairSwitchover s else switchNow c s) s

/-- INJECT_ERR counts a completion other than OK (R184). -/
def injectFail (c : Ctx) (st : Status) (s : State) : State := complete c st (ingCnt 22 1 s)

/-- INJECT past R375 (R174, R175, R496). -/
def injectNow (c : Ctx) (p : BitVec 384) (frame : Option (List Byte)) (s : State) : State :=
  let id := fld p.toNat 383 352
  let len := fld p.toNat 287 274
  if len < 18 ∨ 9216 < len then injectFail c .param s
  else match frame with
    | none => injectFail c .param (dmaErr s)
    | some b =>
      let l := padTo len (b.take len)
      let (st, s) := injectJudge id l s
      let s := if st = .ok && isActive s && inPair s then yokeSend (.inject id l) s else s
      complete c st s

/-- The target FIFO is full: intake from the ring waits (R175). -/
def injectWaits (d : Desc) (s : State) : Bool :=
  d.read = .good && s.sys.runState = .run && !(refusing s) && !(injectRoom (fld d.params.toNat 383 352) s)

def injectCmd (d : Desc) (frame : Option (List Byte)) (s : State) : State :=
  if injectWaits d s then s else withDesc .inject d injectFail (fun c s => injectNow c d.params frame s) s

/-! Rings (R353, R358 to R360, R366, R389, R393, R529) -/

/-- BAR0 and BAR2 respond (R8, R529). -/
def barOpen (s : State) : Bool := s.sys.ready && !s.hif.d3hot

/-- RWL registers of HIF accept writes (R4, R386, R528). -/
def hifWritable (s : State) : Bool := !s.sys.locked || s.hif.open_

/-- Held completions go first, then staging drains. -/
def drainAll (s : State) : State := (List.range 64).foldl (fun s n => drainRing n (drainHeld n s)) s

/-- A staged record is lost for a cause that `hit` picks; neighbours join one run. -/
def loseStaged (n : Nat) (why : Loss) (hit : Rec → Bool) (s : State) : State :=
  let q := (ringOf s n).staged
  let k := (q.filter fun i => match i with | .rcd r => hit r | .lost _ => false).length
  let q := q.map fun i => match i with
    | .rcd r => if hit r then .lost (lostOne r why) else .rcd r
    | .lost g => .lost g
  countLost n k (modRing n (fun r => { r with staged := joinRuns q }) s)

/-- RECORD_DEADLINE: staged records whose deadline has passed are lost, oldest first, with cause AGE (R366). -/
def recordDeadline (n : Nat) (s : State) : State :=
  drainRing n (loseStaged n .age (fun r => decide (r.deadline ≤ s.tbu.free)) s)

/-- SIZE_LOG2 as stored (R393). -/
def clampSize (n : Nat) : Nat := max 4 (min 16 n)

/-- A write to HIF_RING_CFG[n] (R358, R393). -/
def writeRingCfg (n : Nat) (v : Word) (s : State) : State :=
  if !(hifWritable s) then s else
  let r := ringOf s n
  let low := [(12, 6, fld v.toNat 17 12), (11, 1, fld v.toNat 11 11)]
  let high := if r.enabled then [(29, 2, fld r.cfg.toNat 30 29), (24, 5, fld r.cfg.toNat 28 24), (18, 6, r.complRing)]
    else [(29, 2, fld v.toNat 30 29), (24, 5, clampSize (fld v.toNat 28 24)), (18, 6, fld v.toNat 23 18)]
  let en := bitOf v 31
  let cfg := wordOf ((31, 1, b2n en) :: high ++ low)
  if en && !r.enabled then
    -- The ring starts afresh; held completions are written first.
    let s := modRing n (fun r => { r with
      cfg := cfg, head := 0, tail := 0, phase := true, seq := 0, mem := [], coalCnt := 0, coalAt := none, refAt := none }) s
    noteWaits (drainRing n (drainHeld n s))
  else
    let s := modRing n (fun r => { r with cfg := cfg }) s
    if !en && r.enabled then
      noteWaits (if r.type = .stream then loseStaged n .off (fun _ => true) s else s)
    else s

/-- A doorbell write of BAR2 (R356, R358 to R360). -/
def doorbell (n idx : Nat) (s : State) : State :=
  if !(barOpen s) then s else
  let r := ringOf s n
  if !r.enabled then hifEvent 1 s
  else if r.host then
    if idx < r.size then noteWaits (modRing n (fun r => { r with tail := idx }) s) else hifEvent 0 (hifCnt 6 1 s)
  else
    let k := (idx + r.size - r.head) % r.size
    if idx < r.size ∧ k ≤ r.used then
      let s := modRing n (fun r => { r with head := idx, mem := r.mem.drop k }) s
      noteWaits (drainRing n (drainHeld n s))
    else hifEvent 1 (hifCnt 6 1 s)

/-- A host write to BAR2: the doorbell at n × 0x400, INDEX in bits [15:0], of 64 bits by its low word; elsewhere it is discarded (R356), and so is
one of 8 or 16 bits (DESIGN CHOICE, log 155). -/
def doorbellWrite (a : Access) (v : Dword) (s : State) : State :=
  if a.aligned && decide (a.off % 0x400 = 0) && decide (a.off / 0x400 < 64) then doorbell (a.off / 0x400) (v.toNat % 65536) s else s

/-- IRQ_COAL_TIMER: COAL_US has passed since the first entry not signalled (R389). -/
def irqCoalTimer (n : Nat) (s : State) : State :=
  let r := ringOf s n
  let us := fld r.coal.toNat 31 16
  match r.coalAt with
  | some t => if us ≠ 0 ∧ t + us * 1000 * fr ≤ s.tbu.free then ringIrq n s else s
  | none => s

/-- The bus may have returned: the engines resume in order, then messages go (R353, R387, R388). -/
def busResume (s : State) : State := if busOn s then flushAllVecs (noteWaits (drainAll s)) else s

/-- BUS_MASTER_ENABLE_CHANGE, with the other controls of the same configuration space. -/
def busMasterChange (bme : Bool) (x : MsixCtl) (c : DevCtl) (s : State) : State :=
  if !s.sys.powered then s else busResume { s with hif := { s.hif with
    bme := bme, msixEn := x.en, msixMask := x.mask, payload := c.payload, readReq := c.readReq
    advisory := s.hif.advisory && !c.clearAer, abort := if c.clearAer then none else s.hif.abort } }

/-- POWER_STATE_CHANGE (R529). -/
def powerState (d3 : Bool) (s : State) : State :=
  if !s.sys.powered then s else busResume { s with hif := { s.hif with d3hot := d3 } }

/-- Word k of the MSI-X table is written; a vector unmasked so sends what it owes (R387). -/
def writeMsix (k : Nat) (v : Word) (s : State) : State :=
  flushVec (k / 4) { s with hif := { s.hif with msix := setAt s.hif.msix k (if k % 4 = 3 then v &&& 1#32 else v) } }

/-- MSIX_UNMASK. -/
def msixUnmask (v : Nat) (s : State) : State :=
  if !(barOpen s) then s else writeMsix (4 * v + 3) ((nth s.hif.msix (4 * v + 3) 0#32) &&& ~~~1#32) s

end Sys2Proof.Machine
end

