-- ==== Sys2Proof/Machine/RegBase.lean ====
section
/-! DEFINITION. How BAR0 registers are described: offset, elements, access code, reading and writing (R4, R5, R557). -/

namespace Sys2Proof.Machine

/-- Access codes (R4). `mix` is a register whose fields have different codes: its store applies them. -/
inductive Acc where
  | rw
  | ro
  | wo
  | w1c
  | rc
  | rwl
  | mix
  deriving DecidableEq, Repr

/-- One row of a block's register list: offset of its first element, elements, stride. `put` stores a value (RW, RWL, mix), triggers the action
(WO), clears the bits written 1 (W1C), or sets what a read leaves (RC). `act` replaces a read that does more than the code says. `kept` is what a
read leaves of an RC register that the present cycle changed from its first operand to its second: the events counted in between (R7). -/
structure Reg where
  base   : Nat
  n      : Nat
  stride : Nat
  acc    : Acc
  get    : State → Nat → Word
  put    : Nat → Word → State → State
  act    : Option (Nat → State → State)
  kept   : Word → Word → Word := fun old now => now - old

def noPut (_ : Nat) (_ : Word) (s : State) : State := s

def roReg (base n : Nat) (get : State → Nat → Word) : Reg := { base, n, stride := 4, acc := .ro, get, put := noPut, act := none }
def rwReg (base n : Nat) (get : State → Nat → Word) (put : Nat → Word → State → State) : Reg :=
  { base, n, stride := 4, acc := .rw, get, put, act := none }
def rwlReg (base n : Nat) (get : State → Nat → Word) (put : Nat → Word → State → State) : Reg :=
  { base, n, stride := 4, acc := .rwl, get, put, act := none }
def w1cReg (base : Nat) (get : State → Word) (put : Word → State → State) : Reg :=
  { base, n := 1, stride := 4, acc := .w1c, get := fun s _ => get s, put := fun _ v s => put (get s &&& ~~~v) s, act := none }
def rcReg (base n : Nat) (get : State → Nat → Word) (put : Nat → Word → State → State) : Reg :=
  { base, n, stride := 4, acc := .rc, get, put, act := none }
/-- An RC register that shows a maximum: an update in the cycle of the read is kept whole. -/
def rcMaxReg (base n : Nat) (get : State → Nat → Word) (put : Nat → Word → State → State) : Reg :=
  { rcReg base n get put with kept := fun old now => if old = now then 0#32 else now }
def woReg (base n : Nat) (put : Nat → Word → State → State) : Reg :=
  { base, n, stride := 4, acc := .wo, get := fun _ _ => 0#32, put, act := none }
def mixReg (base n : Nat) (get : State → Nat → Word) (put : Nat → Word → State → State) : Reg :=
  { base, n, stride := 4, acc := .mix, get, put, act := none }
/-- A register whose read is an operation of its own, and the store its write does. -/
def actReg (base n : Nat) (get : State → Nat → Word) (act : Nat → State → State) (put : Nat → Word → State → State) : Reg :=
  { base, n, stride := 4, acc := .mix, get, put, act := some act }

/-- The row repeated at another stride. -/
def Reg.every (r : Reg) (stride n : Nat) : Reg := { r with stride := stride, n := n }

/-- The element of a row at an offset. -/
def Reg.index (r : Reg) (o : Nat) : Option Nat :=
  if r.base ≤ o ∧ (o - r.base) % r.stride = 0 ∧ (o - r.base) / r.stride < r.n then some ((o - r.base) / r.stride) else none

/-- The row and element at an offset; none where it is reserved. -/
def findReg (l : List Reg) (o : Nat) : Option (Reg × Nat) := l.findSome? fun r => (r.index o).map fun k => (r, k)

/-- Word k of a wide value, lowest first. -/
def wordAt (v k : Nat) : Word := BitVec.ofNat 32 (v >>> (32 * k))

/-- A word of bits, from a test of each bit's number. -/
def bitWord (p : Nat → Bool) (k : Nat) : Word := BitVec.ofNat 32 (bitmap 32 fun j => p (32 * k + j))

/-- Field [hi:lo] of a word, in place. -/
def keep (v : Word) (hi lo : Nat) : Word := BitVec.ofNat 32 (fld v.toNat hi lo * 2 ^ lo)

/-- A field of a register as its range stores it: below `lo` as `lo`, above `hi` as `hi`. -/
def clampW (w lo hi : Nat) (v : Word) : Word := BitVec.ofNat 32 (max lo (min hi (fld v.toNat (w - 1) 0)))

/-- A binary32 register with a closed range: the nearer limit for a value outside it, the old value for a NaN. -/
def clampF (lo hi old v : Word) : Word :=
  if fisNan f32 v.toNat then old else if flt f32 v.toNat lo.toNat then lo else if flt f32 hi.toNat v.toNat then hi else v

end Sys2Proof.Machine
end

