-- ==== Sys2Proof/Machine/RegGrid.lean ====
section
/-! DEFINITION. Registers of ALN, DFC, LSE, OSM, SEP/ALA and TKX (R71 to R73, R218 to R220, R244 to R246, R276 to R278, R308 to R311, R349, R350). -/

namespace Sys2Proof.Machine

def setOf (b : Bool) (w : Nat) : Nat × Nat × Nat := (w, 1, b2n b)

/-! ALN -/

def setAln (f : Aln → Aln) (s : State) : State := { s with aln := f s.aln }

def alnStatus (s : State) : Word :=
  wordOf [(16, 7, dramTicks s), (8, 7, specTicks s), (1, 1, b2n (slotWaiting s)), (0, 1, b2n (decide (s.sys.runState = .run)))]

def alnRegs : List Reg :=
  [roReg 0x00 1 fun s _ => alnStatus s,
   rwlReg 0x04 1 (fun s _ => s.aln.snapTol) fun _ v s => setAln (fun a => { a with snapTol := clampW 20 0 1000000 v }) s,
   rwlReg 0x08 1 (fun s _ => s.aln.skewTol) fun _ v s => setAln (fun a => { a with skewTol := clampW 20 0 1000000 v }) s,
   roReg 0x0C 1 fun s _ => BitVec.ofNat 32 (s.aln.waitMin % 2 ^ 19),
   roReg 0x10 1 fun s _ => BitVec.ofNat 32 (s.aln.waitMax % 2 ^ 19),
   roReg 0x14 1 fun s _ => wordOf [(8, 1, b2n s.aln.resolve), (0, 7, s.aln.horizon)],
   roReg 0x18 1 fun s _ => BitVec.ofNat 32 (satN 20 s.aln.commitLat),
   w1cReg 0x20 (fun s => s.aln.event) fun w s => setAln (fun a => { a with event := w }) s,
   rwReg 0x24 1 (fun s _ => s.aln.eventEn) fun _ v s => setAln (fun a => { a with eventEn := keep v 7 0 }) s,
   roReg 0x40 16 fun s k => BitVec.ofNat 32 (nth s.aln.quorum k 0),
   roReg 0x80 16 fun s k => BitVec.ofNat 32 (nth s.aln.weightSum k 0),
   roReg 0xC0 16 fun s k => BitVec.ofNat 32 (nth s.aln.lastWeight k 0),
   roReg 0x100 16 fun s k => BitVec.ofNat 32 (nth s.aln.sysAbsent k 0),
   roReg 0x140 16 fun s k => BitVec.ofNat 32 (nth s.aln.outRing k 0),
   rcReg 0x180 16 (fun s k => nth s.aln.cnt k 0#32) fun k v s => setAln (fun a => { a with cnt := setAt a.cnt k v }) s]

/-! DFC -/

def setDfc (f : Dfc → Dfc) (s : State) : State := { s with dfc := f s.dfc }
def selChain (s : State) : Option Chain := chainOf s s.dfc.sel.toNat

/-- DFC_COEF_DATA: coefficient k of the table named. -/
def coefData (s : State) : Word :=
  let t := fld s.dfc.coefIdx.toNat 14 12
  let k := fld s.dfc.coefIdx.toNat 6 0
  let own := (selChain s).filter Chain.ownsPair
  let h := if t < 4 then presetCoefs t else
    match own with
    | some c => if t = 4 then c.coefs else if t = 5 then (if c.actB then c.bankA else c.bankB) else []
    | none => []
  ofInt 32 (nth h k 0)

/-- DFC_CHAIN_RT (R246). -/
def chainRt (c : Chain) (k : Nat) : Word :=
  match k with
  | 0 => ofInt 32 ((c.line.head?.map Smp.x).getD 0)
  | 1 => ofInt 32 c.lastY
  | 2 => wordOf [(16, 16, c.warm), (0, 16, c.flags)]
  | 3 => wordOf [(24, 8, c.upper.setN), (16, 8, c.upper.relN), (8, 8, c.lower.setN), (0, 8, c.lower.relN)]
  | 4 => ofInt 32 c.lastG
  | 5 => wordOf [setOf c.lower.st 3, setOf c.upper.st 2, setOf c.swap.isSome 1, setOf c.actB 0]
  | 6 => wordOf [(8, 8, if c.ownsPair then (if c.actB then c.nA else c.nB) else 0), (0, 8, c.n)]
  | _ => 0#32

def thrBit (s : State) (j : Nat) : Bool :=
  match chainOf s (j / 2) with
  | some c => if j % 2 = 0 then c.upperEn && c.upper.st else c.lowerEn && c.lower.st
  | none => false
def swapBit (s : State) (c : Nat) : Bool := ((chainOf s c).bind Chain.swap).isSome

/-- The entry of the selected chain, in use or not (R221). -/
def chainEntry (s : State) : BitVec 512 :=
  match selChain s with
  | some c => c.entry
  | none => (lookupK s.dfc.unused s.dfc.sel.toNat).getD 0#512

def dfcRegs : List Reg :=
  [roReg 0x00 1 fun s _ => wordOf [(16, 1, b2n (decide (s.sys.runState = .run))), (0, 13, s.dfc.chains.length)],
   roReg 0x04 1 fun s _ => BitVec.ofNat 32 s.dfc.outRing,
   roReg 0x08 1 fun s _ => BitVec.ofNat 32 s.dfc.thrRing,
   roReg 0x0C 1 fun s _ => BitVec.ofNat 32 s.dfc.bankCap,
   w1cReg 0x10 (fun s => s.dfc.event) fun w s => setDfc (fun d => { d with event := w }) s,
   rwReg 0x14 1 (fun s _ => s.dfc.eventEn) fun _ v s => setDfc (fun d => { d with eventEn := keep v 5 0 }) s,
   rcReg 0x20 8 (fun s k => nth s.dfc.cnt k 0#32) fun k v s => setDfc (fun d => { d with cnt := setAt d.cnt k v }) s,
   rwReg 0x40 1 (fun s _ => s.dfc.sel) fun _ v s => setDfc (fun d => { d with sel := keep v 11 0 }) s,
   rwReg 0x44 1 (fun s _ => s.dfc.coefIdx) fun _ v s => setDfc (fun d => { d with coefIdx := wordOf [(12, 3, fld v.toNat 14 12), (0, 7, fld v.toNat 6 0)] }) s,
   roReg 0x48 1 fun s _ => coefData s,
   roReg 0x80 16 fun s k => wordAt (chainEntry s).toNat k,
   roReg 0xC0 8 fun s k => match selChain s with | some c => chainRt c k | none => 0#32,
   roReg 0x100 128 fun s k => bitWord (swapBit s) k,
   roReg 0x300 256 fun s k => bitWord (thrBit s) k]

/-! LSE -/

def setLse (f : Lse → Lse) (s : State) : State := { s with lse := f s.lse }

def lseStatus (s : State) : Word :=
  wordOf [(8, 1, b2n (decide (s.sys.runState = .run) && s.lse.sec.isSome)), (6, 2, s.lse.variant), (5, 1, b2n s.lse.approx),
    (4, 1, b2n s.lse.unobs), (2, 2, s.lse.chi)]

/-- LSE_SIZE: buses, branches, measurements, watched, switchable, factors. -/
def lseSize (s : State) (k : Nat) : Nat :=
  match s.lse.sec with
  | none => 0
  | some im => nth [im.buses.length, im.branches.length, im.meas.length, im.watched.length,
      (im.branches.filter fun b => !b.points.isEmpty).length, im.factors.length] k 0

def factorAt (s : State) (v : Nat) : Option LseFactor := s.lse.sec.bind fun im => im.factors[v]?
def factorWord (s : State) (v : Nat) : Word :=
  match s.lse.sec.filter fun im => decide (v < im.factors.length) with
  | some im => wordOf [(31, 1, 1), (0, 23, factorE im v)]
  | none => 0#32

def measWord (s : State) (k : Nat) : Word :=
  wordAt (clearLow 38 ((s.lse.sec.bind fun im => im.meas[s.lse.measSel.toNat]?).map BitVec.toNat |>.getD 0)) k

def MCls.code : MCls → Nat
  | .live => 0
  | .held => 1
  | .removed => 2
  | .unused => 3

/-- LSE_MEAS_RT: class and test, Ω of the bound factor, as the latest primary result left them; 0 before the first (R276). -/
def measRtWord (s : State) (k : Nat) : Word :=
  let m := s.lse.measSel.toNat
  match s.lse.measRt[m]? with
  | some (c, t) =>
    if k = 0 then wordOf [(2, 1, b2n t), (0, 2, c.code)] else ((factorAt s s.lse.variant).bind fun f => f.omega[m]?).getD 0#32
  | none => 0#32

def lseRegs : List Reg :=
  [roReg 0x00 1 fun s _ => lseStatus s,
   rwlReg 0x04 1 (fun s _ => s.lse.nrTh) fun _ v s => setLse (fun l => { l with nrTh := clampF 0x3F800000#32 0x42C80000#32 l.nrTh v }) s,
   rwlReg 0x08 1 (fun s _ => s.lse.chiK) fun _ v s => setLse (fun l => { l with chiK := clampF 0x00000000#32 0x41200000#32 l.chiK v }) s,
   rwlReg 0x0C 1 (fun s _ => s.lse.maxRem) fun _ v s => setLse (fun l => { l with maxRem := clampW 4 0 8 v }) s,
   roReg 0x10 1 fun s _ => (s.lse.sec.map LseImage.invTol).getD 0#32,
   roReg 0x14 1 fun s _ => (s.lse.sec.map LseImage.sbase).getD 0#32,
   roReg 0x18 1 fun s _ => BitVec.ofNat 32 ((s.lse.sec.map LseImage.outRing).getD 0),
   w1cReg 0x20 (fun s => s.lse.event) fun w s => setLse (fun l => { l with event := w }) s,
   rwReg 0x24 1 (fun s _ => s.lse.eventEn) fun _ v s => setLse (fun l => { l with eventEn := keep v 8 0 }) s,
   roReg 0x40 6 fun s k => BitVec.ofNat 32 (lseSize s k),
   roReg 0x60 4 factorWord,
   rcReg 0x80 16 (fun s k => nth s.lse.cnt k 0#32) fun k v s => setLse (fun l => { l with cnt := setAt l.cnt k v }) s,
   roReg 0xC0 4 fun s k => nth s.lse.last k 0#32,
   roReg 0x100 128 fun s k => bitWord (fun z => s.lse.unobZones.contains z) k,
   rwReg 0x400 1 (fun s _ => s.lse.measSel) fun _ v s => setLse (fun l => { l with measSel := keep v 17 0 }) s,
   roReg 0x420 8 measWord,
   roReg 0x440 2 measRtWord]

/-! OSM -/

def setOsm (f : Osm → Osm) (s : State) : State := { s with osm := f s.osm }

def osmBits (s : State) (p : OsmSet → Bool) : Nat := bitmap 8 fun k => match osmSetOf s k with | some e => p e | none => false
def slotBit (s : State) (i : Nat) : Bool := (nth s.osm.slots i none).isSome

def osmStatus (s : State) : Word :=
  let v := osmBits s fun _ => true
  wordOf [(28, 1, b2n (decide (s.sys.runState = .run ∧ v ≠ 0))), (24, 4, bitmap 4 (slotBit s)), (16, 8, osmBits s fun e => !e.queue.isEmpty),
    (8, 8, osmBits s fun e => e.warming (frate s)), (0, 8, v)]

/-- OSM_LOC_STAT: WARMING as the slot's records carry it (R298). -/
def locStat (s : State) (i : Nat) : Word :=
  match nth s.osm.slots i none with
  | none => 0#32
  | some l =>
    let warm := match osmSetOf s l.set with | some e => decide (l.count < e.locWin * frate s) | none => false
    wordOf [(31, 1, 1), (30, 1, b2n warm), (24, 3, l.set), (0, 16, l.track)]

def selSet (s : State) : Option OsmSet := lookupK s.osm.sets s.osm.setSel.toNat

/-- OSM_SET_RT (R311). -/
def setRtWord (s : State) (k : Nat) : Word :=
  match (selSet s).filter OsmSet.valid with
  | none => 0#32
  | some e =>
    match k with
    | 0 => BitVec.ofNat 32 (satN 32 e.samples)
    | 1 => wordOf [(25, 1, b2n (e.warming (frate s))), (24, 1, b2n (!e.queue.isEmpty)), (16, 5, e.queue.length), (0, 16, vfQ e.vf)]
    | 2 => BitVec.ofNat 32 e.idSeq
    | 3 => BitVec.ofNat 32 e.idTick
    | 4 => wordOf [(8, 7, e.order), (0, 7, e.tracks.length)]
    | 5 => BitVec.ofNat 32 (e.lastG.getD 0)
    | _ => 0#32

def inputWord (s : State) (k : Nat) : Word := wordOf [(16, 12, nth s.osm.inputs (2 * k + 1) 0), (0, 12, nth s.osm.inputs (2 * k) 0)]

def osmRegs : List Reg :=
  [roReg 0x00 1 fun s _ => osmStatus s,
   roReg 0x04 1 fun s _ => BitVec.ofNat 32 s.osm.outRing,
   roReg 0x08 1 fun s _ => s.osm.space,
   w1cReg 0x10 (fun s => s.osm.event) fun w s => setOsm (fun o => { o with event := w }) s,
   rwReg 0x14 1 (fun s _ => s.osm.eventEn) fun _ v s => setOsm (fun o => { o with eventEn := keep v 10 0 }) s,
   roReg 0x20 2 fun s k => wordAt (osmConds s) k,
   roReg 0x30 4 locStat,
   roReg 0x40 4 fun s i => BitVec.ofNat 32 (((nth s.osm.slots i none).map LocSlot.f).getD 0),
   rcReg 0x80 16 (fun s k => nth s.osm.cnt k 0#32) fun k v s => setOsm (fun o => { o with cnt := setAt o.cnt k v }) s,
   rwReg 0x100 1 (fun s _ => s.osm.setSel) fun _ v s => setOsm (fun o => { o with setSel := keep v 2 0 }) s,
   roReg 0x140 32 fun s k => wordAt (((selSet s).map fun e => e.entry.toNat).getD 0) k,
   roReg 0x1C0 8 setRtWord,
   rwReg 0x200 1 (fun s _ => s.osm.brSel) fun _ v s => setOsm (fun o => { o with brSel := keep v 12 0 }) s,
   roReg 0x210 4 fun s k => wordAt (nth s.osm.located s.osm.brSel.toNat 0#128).toNat k,
   roReg 0x400 2048 inputWord]

/-! SEP, GE and ALA -/

def setSep (f : Sep → Sep) (s : State) : State := { s with sep := f s.sep }
def setGe (f : Ge → Ge) (s : State) : State := { s with ge := f s.ge }
def setAla (f : Ala → Ala) (s : State) : State := { s with ala := f s.ala }

/-- A value that is not finite and positive is ignored (R349). -/
def posFinite (old v : Word) : Word := if fisFinite f32 v.toNat && flt f32 0 v.toNat then v else old
/-- A value outside 0 to 1 is ignored. -/
def unitRange (old v : Word) : Word := if fle f32 0 v.toNat && fle f32 v.toNat 0x3F800000 then v else old

def divCfgOf (v : Word) : Word :=
  wordOf [(16, 4, max 1 (fld v.toNat 19 16)), (8, 4, max 1 (min 8 (fld v.toNat 11 8))), (0, 6, max 1 (fld v.toNat 5 0))]

/-- SEP_ZONE_DATA. -/
def zoneWord (s : State) (k : Nat) : Word :=
  match lookupK s.sep.zones s.sep.zoneSel.toNat with
  | none => 0#32
  | some z =>
    match k with
    | 4 => z.f.getD 0#32
    | 5 => z.d.getD 0#32
    | 6 => wordOf [(2, 1, b2n z.alt), (1, 1, b2n z.f.isSome), (0, 1, b2n z.d.isSome)]
    | 7 => wordOf [(16, 8, z.topo), (0, 8, z.div)]
    | k => wordAt z.entry.toNat k

/-- SEP_POINT_DATA (R312): STALE resets to 1 in every point. -/
def pointWord (s : State) (k : Nat) : Word :=
  let v := match lookupK s.sep.points s.sep.pointSel.toNat with
    | some p => packFields [(80, 48, p.sec), (48, 32, p.ns), (6, 2, p.pos), (4, 2, p.last), (3, 1, b2n p.stale), (2, 1, b2n p.invert), (1, 1, b2n p.valid)]
    | none => 8
  wordAt v k

def topoStat (s : State) : Word := wordOf [(16, 1, b2n s.sep.topoEn), (0, 16, s.sep.topoNow)]

def alaStatus (s : State) : Word :=
  wordOf [(16, 8, bitmap 8 fun k => (nth s.ala.pins k Pin.reset).readback), (8, 8, pinState s), (0, 1, b2n (decide (s.sys.runState = .run)))]

def alaActive (s : State) : Word :=
  wordOf [(16, 10, (s.ala.active.filter fun i => !i.conf).length), (0, 10, s.ala.active.length)]

def putPinCfg (k : Nat) (v : Word) (s : State) : State :=
  drivePins (setAla (fun a => { a with pins := modAt a.pins k fun p => { p with cfg := wordOf [(4, 2, p.hold), (0, 2, fld v.toNat 1 0)] } }) s)

/-- ALA_RULE_RT: the active instance of the rule. -/
def ruleRt (s : State) (k : Nat) : Word :=
  let r := s.ala.ruleSel.toNat
  let i := s.ala.active.find? fun i => i.rule = r
  match k with
  | 0 => BitVec.ofNat 32 ((i.map Inst.id).getD 0)
  | 1 => BitVec.ofNat 32 ((i.map Inst.seq).getD 0)
  | 2 => wordOf [(1, 1, b2n ((i.map Inst.conf).getD false)), (0, 1, b2n (s.ala.values.contains r))]
  | _ => 0#32

def frameStat (s : State) (g : Nat) : Word :=
  match s.ala.groups[g]? with
  | some x => wordOf [(16, 16, x.stNum), (0, 16, x.sqNum)]
  | none => 0#32

def sepRegs : List Reg :=
  [roReg 0x00 1 fun s _ => wordOf [(16, 16, s.sep.outNow), (0, 16, s.sep.sepNow)],
   rwlReg 0x04 1 (fun s _ => s.sep.dfTh) fun _ v s => setSep (fun x => { x with dfTh := posFinite x.dfTh v }) s,
   rwlReg 0x08 1 (fun s _ => s.sep.drTh) fun _ v s => setSep (fun x => { x with drTh := posFinite x.drTh v }) s,
   rwlReg 0x0C 1 (fun s _ => s.sep.divCfg) fun _ v s => setSep (fun x => { x with divCfg := divCfgOf v }) s,
   rwlReg 0x10 1 (fun s _ => s.sep.repTicks) fun _ v s => setSep (fun x => { x with repTicks := clampW 16 1 65535 v }) s,
   roReg 0x14 1 fun s _ => BitVec.ofNat 32 s.sep.outRing,
   roReg 0x18 1 fun s _ => topoStat s,
   w1cReg 0x20 (fun s => s.sep.event) fun w s => setSep (fun x => { x with event := w }) s,
   rwReg 0x24 1 (fun s _ => s.sep.eventEn) fun _ v s => setSep (fun x => { x with eventEn := keep v 8 0 }) s,
   rcReg 0x40 8 (fun s k => nth s.sep.cnt k 0#32) fun k v s => setSep (fun x => { x with cnt := setAt x.cnt k v }) s,
   rwReg 0x80 1 (fun s _ => s.sep.zoneSel) fun _ v s => setSep (fun x => { x with zoneSel := keep v 11 0 }) s,
   roReg 0x90 8 zoneWord,
   rwReg 0xC0 1 (fun s _ => s.sep.pointSel) fun _ v s => setSep (fun x => { x with pointSel := keep v 16 0 }) s,
   roReg 0xD0 4 pointWord,
   rwlReg 0x200 1 (fun s _ => s.ge.cfg) fun _ v s => setGe (fun g => { g with cfg := clampW 4 0 10 v }) s,
   rwlReg 0x204 1 (fun s _ => s.ge.outMin) fun _ v s => setGe (fun g => { g with outMin := clampW 20 1 0xFFFFF v }) s,
   rwlReg 0x208 1 (fun s _ => s.ge.outFrac) fun _ v s => setGe (fun g => { g with outFrac := unitRange g.outFrac v }) s,
   roReg 0x20C 1 fun s _ => BitVec.ofNat 32 s.ge.outRing,
   roReg 0x210 2 fun s k => wordAt (s.ge.lastSec % 2 ^ 48) k,
   rcReg 0x220 8 (fun s k => nth s.ge.cnt k 0#32) fun k v s => setGe (fun g => { g with cnt := setAt g.cnt k v }) s,
   roReg 0x400 128 fun s k => bitWord (fun z => s.ge.out.contains z) k,
   roReg 0x2000 1 fun s _ => alaStatus s,
   woReg 0x2004 1 fun _ v s => pinClear (fld v.toNat 7 0) s,
   roReg 0x2008 1 fun s _ => BitVec.ofNat 32 s.ala.outRing,
   roReg 0x200C 1 fun s _ => alaActive s,
   w1cReg 0x2010 (fun s => s.ala.event) fun w s => setAla (fun a => { a with event := w }) s,
   rwReg 0x2014 1 (fun s _ => s.ala.eventEn) fun _ v s => setAla (fun a => { a with eventEn := keep v 7 0 }) s,
   rwlReg 0x2018 1 (fun s _ => s.ala.retx) fun _ v s => setAla (fun a => { a with retx := clampW 16 2 60000 v }) s,
   rwlReg 0x2020 8 (fun s k => (nth s.ala.pins k Pin.reset).cfg) putPinCfg,
   rcReg 0x2040 16 (fun s k => nth s.ala.cnt k 0#32) fun k v s => setAla (fun a => { a with cnt := setAt a.cnt k v }) s,
   roReg 0x2080 16 fun s k => bitWord (fun r => s.ala.values.contains r) k,
   roReg 0x20C0 8 frameStat,
   rwReg 0x2100 1 (fun s _ => s.ala.ruleSel) fun _ v s => setAla (fun a => { a with ruleSel := keep v 8 0 }) s,
   roReg 0x2120 8 fun s k => wordAt (ruleOf s s.ala.ruleSel.toNat).toNat k,
   roReg 0x2140 4 ruleRt,
   rwReg 0x2180 1 (fun s _ => s.ala.limSel) fun _ v s => setAla (fun a => { a with limSel := keep v 9 0 }) s,
   roReg 0x2190 4 fun s k => wordAt ((lookupK s.ala.limits s.ala.limSel.toNat).getD 0#128).toNat k,
   roReg 0x2200 32 fun s k => bitWord (fun j => s.ala.conds.lims.contains j) k,
   roReg 0x2280 1 fun s _ => BitVec.ofNat 32 (s.ala.conds.fixed % 32)]

/-! TKX -/

def setTkx (f : Tkx → Tkx) (s : State) : State := { s with tkx := f s.tkx }

def tkxStatus (s : State) : Word :=
  wordOf [(8, 1, b2n (decide (s.sys.runState = .run))), (4, 4, s.tkx.shedLevels), (0, 3, s.tkx.phase)]

/-- TKX_TRACE_CTRL: ENABLE written 1 ends a freeze (R71). -/
def putTrace (v : Word) (s : State) : State :=
  let frozen := bitOf s.tkx.traceCtrl 2 && !(bitOf v 0)
  setTkx (fun t => { t with traceCtrl := wordOf [(16, 16, fld v.toNat 31 16), setOf frozen 2, (0, 2, fld v.toNat 1 0)] }) s

def taskOf (s : State) (k : Nat) : Option TaskCfg := s.tkx.tasks.find? fun c => c.num = k
def taskCfgWord (s : State) (k : Nat) : Word :=
  match taskOf s k with
  | some c => wordOf [(29, 3, c.prio), (26, 3, c.phase), (25, 1, b2n c.flow.isSome), (17, 8, c.flow.getD 0), (11, 6, c.unit)]
  | none => 0#32

/-- TKX_TASK_STATE of the task's oldest entry; one on the delay list is WAITING; IDLE reads 0 (R61, R72; log 32). -/
def taskStateWord (s : State) (k : Nat) : Word :=
  match s.tkx.entries.find? fun t => t.task = k with
  | some t => wordOf [(16, 16, t.seq), (3, 1, b2n t.reReady), (0, 3, t.st.code)]
  | none => if s.tkx.micro.any fun e => e.2.1 = k then BitVec.ofNat 32 TaskSt.waiting.code else 0#32

/-- A ready list holds its READY entries and the PREEMPTED ones, which keep their place (R64, R72). -/
def readyDepth (s : State) (p : Nat) : Nat := (s.tkx.entries.filter fun t => t.prio = p && (t.st = .ready || t.st = .preempted)).length

def flowStat (s : State) (n : Nat) : Word := wordOf [(16, 16, (flowOf s n).release), (0, 7, (flowOf s n).depth)]

def tkxRegs : List Reg :=
  [roReg 0x00 1 fun s _ => tkxStatus s,
   roReg 0x08 1 fun s _ => BitVec.ofNat 32 (s.tkx.lastSeq.getD 0),
   rwlReg 0x0C 1 (fun s _ => s.tkx.pastHorizon) fun _ v s => setTkx (fun t => { t with pastHorizon := clampW 16 1 60000 v }) s,
   w1cReg 0x10 (fun s => s.tkx.event) fun w s => setTkx (fun t => { t with event := w }) s,
   rwReg 0x14 1 (fun s _ => s.tkx.eventEn) fun _ v s => setTkx (fun t => { t with eventEn := keep v 6 0 }) s,
   rcReg 0x18 1 (fun s _ => s.tkx.overrunCnt) fun _ v s => setTkx (fun t => { t with overrunCnt := v }) s,
   rcReg 0x1C 1 (fun s _ => s.tkx.skippedCnt) fun _ v s => setTkx (fun t => { t with skippedCnt := v }) s,
   rcReg 0x20 1 (fun s _ => s.tkx.lateCnt) fun _ v s => setTkx (fun t => { t with lateCnt := v }) s,
   rcReg 0x24 1 (fun s _ => s.tkx.pastCnt) fun _ v s => setTkx (fun t => { t with pastCnt := v }) s,
   rcReg 0x28 1 (fun s _ => s.tkx.phaseLateCnt) fun _ v s => setTkx (fun t => { t with phaseLateCnt := v }) s,
   rcReg 0x30 4 (fun s k => nth s.tkx.shedCnt k 0#32) fun k v s => setTkx (fun t => { t with shedCnt := setAt t.shedCnt k v }) s,
   roReg 0x40 6 fun s k => BitVec.ofNat 32 (nth s.tkx.budget k 0),
   rcMaxReg 0x60 6 (fun s k => BitVec.ofNat 32 (nth s.tkx.phaseMax k 0)) fun k v s =>
     setTkx (fun t => { t with phaseMax := setAt t.phaseMax k v.toNat }) s,
   roReg 0x80 8 fun s p => BitVec.ofNat 32 (readyDepth s p),
   rwReg 0xA0 1 (fun s _ => s.tkx.traceCtrl) fun _ v s => putTrace v s,
   roReg 0xA4 1 fun s _ => BitVec.ofNat 32 s.tkx.wrptr,
   rwReg 0xA8 1 (fun s _ => s.tkx.traceIdx) fun _ v s => setTkx (fun t => { t with traceIdx := keep v 11 0 }) s,
   roReg 0xB0 4 fun s k => wordAt ((lookupK s.tkx.trace s.tkx.traceIdx.toNat).getD 0#128).toNat k,
   roReg 0x400 256 flowStat,
   roReg 0x1000 1024 taskCfgWord,
   roReg 0x2000 1024 fun s k => BitVec.ofNat 32 (((taskOf s k).map TaskCfg.cost).getD 0 % 2 ^ 20),
   roReg 0x3000 1024 taskStateWord]

end Sys2Proof.Machine
end

