-- ==== Sys2Proof/Machine/RegHost.lean ====
section
/-! DEFINITION. Registers of SYS, HIF, FLT/SWM, LOG, KST, MBX and PAIR (R31, R36, R391 to R395, R408, R409, R425, R454, R484 to R486, R511 to R514, R531). -/

namespace Sys2Proof.Machine

/-! SYS (R31, R36, R395, R531) -/

def sysStatus (s : State) : Word :=
  wordOf [(9, 2, s.sys.guarEff), (8, 1, b2n s.sys.locked), (4, 3, s.sys.runState.code), (0, 1, b2n s.sys.ready)]

/-- SYS_GUARANTEE (R36). -/
def putGuarantee (v : Word) (s : State) : State :=
  let m := if fld v.toNat 1 0 = 3 then fld s.sys.guarantee.toNat 1 0 else fld v.toNat 1 0
  { s with sys := { s.sys with guarantee := wordOf [(8, 16, max 50 (fld v.toNat 23 8)), (0, 2, m)] } }

/-- SYS_RESET has a command of its own, which carries what the start-up meets. -/
def sysRegs : List Reg :=
  [roReg 0x00 1 fun _ _ => sysId, roReg 0x04 1 fun s _ => sysStatus s,
   rwlReg 0x10 1 (fun s _ => s.sys.guarantee) fun _ v s => putGuarantee v s,
   woReg 0x20 1 noPut, roReg 0x24 1 fun s _ => s.sys.resetCause, roReg 0x28 1 fun s _ => s.sys.boot,
   roReg 0x30 1 fun s _ => s.sys.vin, roReg 0x34 1 fun s _ => s.sys.temp]

/-! The PCI Express function (R351) -/

/-- Capabilities it advertises. -/
inductive PciCap where
  | express
  | powerManagement
  | msix (vectors : Nat)
  | aer
  | serialNumber
  deriving DecidableEq, Repr

/-- What its configuration space says of it: identifiers, BAR sizes (0 where not implemented), capabilities, largest sizes in bytes and those set,
and the error status of AER. -/
structure PciFunction where
  vendor    : BitVec 16
  device    : BitVec 16
  classCode : BitVec 24
  subsystem : BitVec 32
  serial    : Dword
  bar0      : Nat
  bar2      : Nat
  bar4      : Nat
  caps      : List PciCap
  maxPayload : Nat
  maxReadReq : Nat
  payload   : Nat
  readReq   : Nat
  advisory  : Bool
  /-- Completer Abort, with the offset in the logged header. -/
  abort     : Option Nat
  deriving DecidableEq, Repr

/-- The function as configuration space shows it; the serial number is the low 64 bits of the identity digest. -/
def pciFunction (s : State) : PciFunction :=
  { vendor := Config.pciVendor, device := 0x7300#16, classCode := 0x118000#24, subsystem := Config.subsystem
    serial := BitVec.ofNat 64 (beNat (identityDigest s)), bar0 := 0x100000, bar2 := 0x10000, bar4 := 0
    caps := [.express, .powerManagement, .msix 64, .aer, .serialNumber], maxPayload := 512, maxReadReq := 4096
    payload := s.hif.payload, readReq := s.hif.readReq, advisory := s.hif.advisory, abort := s.hif.abort }

/-! HIF (R391 to R394) -/

def hifStatus (s : State) : Word :=
  wordOf [(13, 1, b2n s.hif.open_), (11, 2, s.hif.imgState.code), (10, 1, b2n s.hif.msixMask), (9, 1, b2n s.hif.msixEn),
    (8, 1, b2n s.hif.bme), (4, 4, s.hif.linkWidth), (0, 4, s.hif.linkSpeed)]

def setHif (f : Hif → Hif) (s : State) : State := { s with hif := f s.hif }

/-- HIF_RING_BASE[n], ignored while the ring is enabled (R358). -/
def putBase (hi : Bool) (n : Nat) (v : Word) (s : State) : State :=
  modRing n (fun r =>
    if r.enabled then r else
    let lo := if hi then fld r.base.toNat 31 0 else fld v.toNat 31 12 * 4096
    let up := if hi then v.toNat else fld r.base.toNat 63 32
    { r with base := BitVec.ofNat 64 (up * 2 ^ 32 + lo) }) s

def hifRegs : List Reg :=
  [roReg 0x00 1 fun s _ => hifStatus s,
   w1cReg 0x10 (fun s => s.hif.event) fun w s => setHif (fun h => { h with event := w }) s,
   rwReg 0x14 1 (fun s _ => s.hif.eventEn) fun _ v s => setHif (fun h => { h with eventEn := keep v 6 0 }) s,
   rwlReg 0x18 1 (fun s _ => s.hif.horizon) fun _ v s => setHif (fun h => { h with horizon := clampW 13 1 4096 v }) s,
   rwReg 0x20 16 (fun s k => nth s.hif.vec k 0#32) fun k v s => setHif (fun h => { h with vec := setAt h.vec k (keep v 5 0) }) s,
   roReg 0x60 2 fun s k => if s.hif.imgState = .loaded then wordAt s.hif.digest.toNat k else 0#32,
   roReg 0x68 1 fun s _ => if s.hif.imgState = .loaded then s.hif.imgSeq else 0#32,
   rcReg 0x80 16 (fun s k => nth s.hif.cnt k 0#32) fun k v s => setHif (fun h => { h with cnt := setAt h.cnt k v }) s,
   (rwlReg 0x1000 1 (fun s n => wordAt (ringOf s n).base.toNat 0) (putBase false)).every 0x40 64,
   (rwlReg 0x1004 1 (fun s n => wordAt (ringOf s n).base.toNat 1) (putBase true)).every 0x40 64,
   (rwlReg 0x1008 1 (fun s n => (ringOf s n).cfg) writeRingCfg).every 0x40 64,
   (roReg 0x100C 1 fun s n => BitVec.ofNat 32 (ringOf s n).head).every 0x40 64,
   (roReg 0x1010 1 fun s n => BitVec.ofNat 32 (ringOf s n).tail).every 0x40 64,
   (rwReg 0x1014 1 (fun s n => (ringOf s n).coal) fun n v s => modRing n (fun r => { r with coal := v }) s).every 0x40 64,
   (rwlReg 0x1018 1 (fun s n => (ringOf s n).quota) fun n v s => modRing n (fun r => { r with quota := clampW 13 0 4096 v }) s).every 0x40 64,
   (roReg 0x101C 1 fun s n => BitVec.ofNat 32 (satN 24 (stagedUnits (ringOf s n).staged))).every 0x40 64,
   (rcReg 0x1020 1 (fun s n => (ringOf s n).lostCnt) fun n v s => modRing n (fun r => { r with lostCnt := v }) s).every 0x40 64,
   rwReg 0x8000 256 (fun s k => nth s.hif.msix k 0#32) writeMsix,
   roReg 0x9000 2 fun s k => wordAt s.hif.pba.toNat k]

/-! FLT and SWM (R432 to R435, R454) -/

def setFlt (f : Flt → Flt) (s : State) : State := { s with flt := f s.flt }

/-- A fault record, 0 where none stands. -/
def recWord (r : Option FaultRec) (k : Nat) : Word := wordAt ((r.map FaultRec.bits).getD 0) k

def faultnWord (s : State) : Word := wordOf [(2, 1, b2n s.flt.minDone), (1, 1, b2n s.flt.low)]

/-- FLT_FAULTN: each WO bit acts where written 1. -/
def putFaultn (v : Word) (s : State) : State :=
  let s := if bitOf v 3 then firstClr s else s
  if bitOf v 0 then faultnRelease s else s

/-- FLT_CTRL: class 00 stores 01; FAULTN_AUTO may release the ball (R432). -/
def putFltCtrl (v : Word) (s : State) : State :=
  tryRelease (setFlt (fun f => { f with ctrl := wordOf [(4, 1, fld v.toNat 4 4), (0, 2, max 1 (fld v.toNat 1 0))] }) s)

/-- Journal in use in MiB, rounded up (log 29). -/
def journalMiB (s : State) : Nat := ceilDiv (sumN (s.aln.journal.map intervalBytes)) 1048576

def swmStatus (s : State) : Word :=
  wordOf [(6, 1, b2n (nth s.swm.hb 2 false)), (5, 1, b2n (nth s.swm.hb 1 false)), (4, 1, b2n (nth s.swm.hb 0 false)),
    (3, 1, b2n (decide (s.sys.runState = .run))), (1, 1, b2n s.swm.lockOk), (0, 1, b2n s.swm.selfPass)]

def fltRegs : List Reg :=
  [roReg 0x00 1 fun s _ => BitVec.ofNat 32 (fltActive s),
   w1cReg 0x04 (fun s => s.flt.occurred) fun w s => setFlt (fun f => { f with occurred := w }) s,
   rwlReg 0x08 1 (fun s _ => s.flt.ctrl) fun _ v s => putFltCtrl v s,
   mixReg 0x0C 1 (fun s _ => faultnWord s) fun _ v s => putFaultn v s,
   w1cReg 0x10 (fun s => s.flt.event) fun w s => setFlt (fun f => { f with event := w }) s,
   rwReg 0x14 1 (fun s _ => s.flt.eventEn) fun _ v s => setFlt (fun f => { f with eventEn := keep v 5 0 }) s,
   roReg 0x1C 1 fun s _ => BitVec.ofNat 32 s.flt.histWr,
   roReg 0x20 6 fun s k => recWord s.flt.first k,
   roReg 0x40 1 fun s _ => BitVec.ofNat 32 (fltRecovery s),
   roReg 0x44 1 fun s _ => wordOf [(16, 16, journalMiB s), (1, 1, b2n s.aln.overflow), (0, 1, b2n s.aln.ckptDone)],
   woReg 0x48 1 fun _ v s => fltInject v s,
   rcReg 0x80 8 (fun s k => nth s.flt.cnt k 0#32) fun k v s => setFlt (fun f => { f with cnt := setAt f.cnt k v }) s]
  ++ ((List.range 16).map fun i => roReg (0x100 + i * 0x20) 6 fun s k => recWord (nth s.flt.hist i none) k)
  ++ [roReg 0x400 1 fun s _ => swmStatus s, roReg 0x404 1 fun s _ => BitVec.ofNat 32 s.swm.selfTs,
   rcReg 0x410 4 (fun s k => nth s.swm.cnt k 0#32) fun k v s => { s with swm := { s.swm with cnt := setAt s.swm.cnt k v } }]

/-! LOG (R425) -/

def setLog (f : Log → Log) (s : State) : State := { s with log := f s.log }

/-- LOG_QUEUE: the read starts a new highest level. -/
def readLogQueue (s : State) : State :=
  let n := s.log.queue.length
  { setLog (fun l => { l with queueMax := n }) s with readData := wordOf [(16, 7, s.log.queueMax), (0, 7, n)] }

def logRegs : List Reg :=
  [roReg 0x00 1 fun s _ => wordOf [(1, 1, b2n s.log.wrapped), (0, 1, b2n s.log.active)],
   rwReg 0x08 1 (fun s _ => s.log.cursor) fun _ v s => setLog (fun l => { l with cursor := keep v 19 0 }) s,
   roReg 0x10 2 fun s k => wordAt s.log.seqNext k,
   roReg 0x18 2 fun s k => wordAt s.log.oldest k,
   w1cReg 0x20 (fun s => s.log.event) fun w s => setLog (fun l => { l with event := w }) s,
   rwReg 0x24 1 (fun s _ => s.log.eventEn) fun _ v s => setLog (fun l => { l with eventEn := keep v 3 0 }) s,
   actReg 0x28 1 (fun s _ => wordOf [(16, 7, s.log.queueMax), (0, 7, s.log.queue.length)]) (fun _ s => readLogQueue s) noPut,
   roReg 0x2C 1 fun s _ => BitVec.ofNat 32 s.log.dropPend,
   rcReg 0x30 4 (fun s k => nth s.log.cnt k 0#32) fun k v s => setLog (fun l => { l with cnt := setAt l.cnt k v }) s,
   rwReg 0x40 1 (fun s _ => s.log.stream) fun _ v s => setLog (fun l => { l with stream := keep v 6 0 }) s,
   roReg 0x1000 256 logWindowWord]

/-! KST (R484 to R486) -/

def setKst (f : Kst → Kst) (s : State) : State := { s with kst := f s.kst }

def slotMapWord (s : State) (k : Nat) : Word :=
  wordOf ((List.range 16).map fun i => (2 * i, 2, (slotOfKey s (16 * k + i)).st.code))

def kstRegs : List Reg :=
  [roReg 0x00 1 fun s _ => kstStatus s,
   w1cReg 0x10 (fun s => s.kst.event) fun w s => setKst (fun x => { x with event := w }) s,
   rwReg 0x14 1 (fun s _ => s.kst.eventEn) fun _ v s => setKst (fun x => { x with eventEn := keep v 7 0 }) s,
   woReg 0x18 1 fun _ v s => tamperArm v s,
   woReg 0x1C 1 fun _ v s => tamperClr v s,
   roReg 0x20 1 fun s _ => BitVec.ofNat 32 s.kst.tamperCnt,
   roReg 0x24 2 fun s k => wordAt s.kst.tamperTime k,
   roReg 0x30 2 fun s k => wordAt (rtcNow s) k,
   actReg 0x40 1 (fun _ _ => 0#32) (fun _ s => nonceRead s) noPut,
   roReg 0x44 7 fun s k => BitVec.ofNat 32 (s.kst.nonce.toNat >>> (192 - 32 * k)),
   roReg 0x60 8 fun s k => if lcState s = 4 then 0#32 else nth (digestWords (identityDigest s)) k 0#32,
   roReg 0x80 8 fun s k => nth (digestWords (natBytes 32 s.kst.fwMeas)) k 0#32,
   roReg 0xA0 1 fun s _ => wordOf [(16, 16, s.kst.fwSvn), (0, 16, s.kst.minSvn)],
   rcReg 0xC0 8 (fun s k => nth s.kst.cnt k 0#32) fun k v s => setKst (fun x => { x with cnt := setAt x.cnt k v }) s,
   rwReg 0x100 1 (fun s _ => s.kst.slotSel) fun _ v s => setKst (fun x => { x with slotSel := keep v 5 0 }) s,
   roReg 0x110 4 fun s k => wordAt (slotWord (slotOfKey s s.kst.slotSel.toNat)).toNat k,
   roReg 0x120 4 slotMapWord]

/-! MBX (R408, R409) -/

def setMbx (f : Mbx → Mbx) (s : State) : State := { s with mbx := f s.mbx }

/-- MBX_C2H_DATA as a read would find it. -/
def c2hHead (s : State) (c : Nat) : Word :=
  match (chanOf s c).back.q with
  | w :: _ => if w.at_ ≤ s.tbu.free then w.word else 0#32
  | [] => 0#32

def lockWord (s : State) (k : Nat) : Word :=
  match nth s.mbx.locks k none with
  | some o => wordOf [(3, 1, 1), (0, 3, o)]
  | none => 0#32

def mbxRegs : List Reg :=
  [rwlReg 0x00 1 (fun s _ => s.mbx.timeout) fun _ v s => setMbx (fun m => { m with timeout := clampW 16 1 1000 v }) s,
   w1cReg 0x10 (fun s => s.mbx.event) fun w s => setMbx (fun m => { m with event := w }) s,
   rwReg 0x14 1 (fun s _ => s.mbx.eventEn) fun _ v s => setMbx (fun m => { m with eventEn := keep v 16 0 }) s,
   rcReg 0x20 4 (fun s k => nth s.mbx.cnt k 0#32) fun k v s => setMbx (fun m => { m with cnt := setAt m.cnt k v }) s,
   (woReg 0x100 1 h2cWrite).every 0x20 4,
   (actReg 0x104 1 c2hHead c2hRead noPut).every 0x20 4,
   (mixReg 0x108 1 mbxStat mbxStatWrite).every 0x20 4,
   (roReg 0x10C 1 fun s c => (chanOf s c).fwd.ack).every 0x20 4,
   (woReg 0x110 1 c2hAck).every 0x20 4,
   actReg 0x400 16 lockWord (fun k s => lockRead k 0 s) lockRelease]

/-! PAIR (R511 to R514) -/

def setPairR (f : Pair → Pair) (s : State) : State := { s with pair := f s.pair }

def pairStatus (s : State) : Word :=
  let p := s.pair
  wordOf [(9, 1, b2n p.catching), (8, 1, b2n p.heard), (7, 1, b2n p.lane1), (6, 1, b2n p.lane0), (3, 3, p.peerSt), (0, 3, p.st.code)]

/-- PAIR_CFG (R513). -/
def putPairCfg (v : Word) (s : State) : State :=
  let role := if fld v.toNat 1 0 = 3 then fld s.pair.cfg.toNat 1 0 else fld v.toNat 1 0
  setPairR (fun p => { p with cfg := wordOf [(8, 8, max 1 (fld v.toNat 15 8)), (4, 1, fld v.toNat 4 4), (0, 2, role)] }) s

def pairRegs : List Reg :=
  [roReg 0x00 1 fun s _ => pairStatus s,
   rwlReg 0x04 1 (fun s _ => s.pair.cfg) fun _ v s => putPairCfg v s,
   woReg 0x08 1 fun _ v s => forceActive v s,
   rwlReg 0x0C 1 (fun s _ => s.pair.outRing) fun _ v s => setPairR (fun p => { p with outRing := keep v 6 0 }) s,
   rwReg 0x10 1 (fun s _ => s.pair.eventMask) fun _ v s => setPairR (fun p => { p with eventMask := keep v 15 1 }) s,
   w1cReg 0x14 (fun s => s.pair.event) fun w s => setPairR (fun p => { p with event := w }) s,
   roReg 0x18 1 fun s _ => s.pair.timeDiff,
   roReg 0x1C 1 fun s _ => BitVec.ofNat 32 s.pair.lastMark,
   rwlReg 0x20 8 (fun s k => nth s.pair.peerId k 0#32) fun k v s => setPairR (fun p => { p with peerId := setAt p.peerId k v }) s,
   roReg 0x40 8 fun s k => nth s.pair.peerSeen k 0#32,
   roReg 0x60 2 fun s k => wordAt s.pair.digOwn k,
   roReg 0x68 2 fun s k => wordAt s.pair.digPeer k,
   rcReg 0x80 16 (fun s k => nth s.pair.cnt k 0#32) fun k v s => setPairR (fun p => { p with cnt := setAt p.cnt k v }) s]

end Sys2Proof.Machine
end

