-- ==== Sys2Proof/Machine/RegNet.lean ====
section
/-! DEFINITION. Registers of TBU, NET and ING (R111 to R113, R141 to R145, R183 to R185). -/

namespace Sys2Proof.Machine

/-! TBU -/

def setTbu (f : Tbu → Tbu) (s : State) : State := { s with tbu := f s.tbu }

/-- TBU_STATUS (R112). -/
def tbuStatus (s : State) : Word :=
  wordOf [(12, 3, s.tbu.domB.st.code), (8, 3, s.tbu.domA.st.code), (6, 1, b2n (decide (lockThFr s ≤ ((selDom s).theta.natAbs : Int)))),
    (5, 1, b2n s.tbu.pps.valid), (4, 1, b2n (decide (qualCount s < 2))), (3, 1, b2n (holdover s)), (2, 1, b2n s.tbu.suspect),
    (1, 1, b2n (selB s)), (0, 1, b2n s.tbu.timeSet)]

/-- Word k of an 80-bit time: fraction, then ns (R78). -/
def timeWord (t : Int) (k : Nat) : Word :=
  match k with
  | 0 => BitVec.ofNat 32 (ifld 16 t)
  | k + 1 => wordAt (ifld 64 (t / 65536)) k

def dstat (d : Dom) : Word := wordOf [(8, 2, (d.gm.map Foreign.port).getD 0), (3, 1, b2n d.gm.isSome), (0, 3, d.st.code)]
def gmIdWord (d : Dom) (k : Nat) : Word := wordAt ((d.gm.map fun g => g.ann.gm.toNat).getD 0) k

def utcWord (s : State) : Word :=
  let (u, v, l61, l59) := utcInfo s
  wordOf [(18, 1, b2n l59), (17, 1, b2n l61), (16, 1, b2n v), (0, 16, ifld 16 u)]

/-- TBU_PPS_CFG: WIDTH_US of 0 stores 1; above 500,000 what is stored is open (R97; log 2). Without PPS_ASSIST or PPS_IN_EN no edge assists
(R96); setting PPS_IN_EN starts anew (log 10). -/
def putPps (v : Word) (s : State) : State :=
  let w := fld v.toNat 31 12
  let (w, s) := if 500000 < w then
      let (k, s) := drawFree s
      ((Config.freeBits k).toNat % 2 ^ 20, s)
    else (max 1 w, s)
  let s := if bitOf v 3 && bitOf v 1 then s else ppsUnassist s
  let anew := bitOf v 1 && !(bitOf s.tbu.pps.cfg 1)
  setTbu (fun t => { t with pps := { t.pps with
    cfg := wordOf [(12, 20, w), (3, 1, fld v.toNat 3 3), (0, 2, fld v.toNat 1 0)]
    lastAcc := if anew && !t.pps.valid then none else t.pps.lastAcc, run := if anew then 0 else t.pps.run } }) s

/-- TBU_DCFG_X: what it makes of PTP_PORT may end a downshift (R113, R138). -/
def putDcfg (x : DomId) (v : Word) (s : State) : State := dsCheck (writeDcfg x v s)

def putTcCfg (v : Word) (s : State) : State := dsCheck (setTbu (fun t => { t with tcCfg := keep v 0 0 }) s)

/-- Registers of a domain from an offset on (R111). -/
def domRegs (o : Nat) (x : DomId) : List Reg :=
  [mixReg o 1 (fun s _ => (getDom x s).dcfg) fun _ v s => putDcfg x v s,
   roReg (o + 0x04) 1 fun s _ => dstat (getDom x s),
   roReg (o + 0x08) 3 fun s k => timeWord (getDom x s).offset k,
   roReg (o + 0x14) 2 fun s k => wordAt ((getDom x s).anchor / 65536) k,
   roReg (o + 0x1C) 1 fun s _ => ofInt 32 (getDom x s).rate,
   roReg (o + 0x20) 1 fun s _ => ofInt 32 (rateOf (getDom x s).freq),
   rwlReg (o + 0x24) 1 (fun s _ => (getDom x s).kp) fun _ v s => modDom x (fun d => { d with kp := keep v 15 0 }) s,
   rwlReg (o + 0x28) 1 (fun s _ => (getDom x s).ki) fun _ v s => modDom x (fun d => { d with ki := keep v 15 0 }) s,
   roReg (o + 0x2C) 1 fun s _ => ofInt 32 (crossNs (getDom x s).theta),
   roReg (o + 0x30) 1 fun s _ => ofInt 32 (satI 32 ((getDom x s).pathD / 256)),
   roReg (o + 0x34) 2 fun s k => gmIdWord (getDom x s) k,
   rcReg (o + 0x3C) 1 (fun s _ => (getDom x s).syncCnt) fun _ v s => modDom x (fun d => { d with syncCnt := v }) s,
   rcReg (o + 0x40) 1 (fun s _ => (getDom x s).drCnt) fun _ v s => modDom x (fun d => { d with drCnt := v }) s,
   rcReg (o + 0x44) 1 (fun s _ => (getDom x s).pathStepCnt) fun _ v s => modDom x (fun d => { d with pathStepCnt := v }) s]

def tbuRegs : List Reg :=
  [roReg 0x00 1 fun s _ => tbuStatus s,
   rwReg 0x04 1 (fun s _ => s.tbu.ctrl) fun _ v s => writeTbuCtrl v s,
   roReg 0x08 1 fun s _ => BitVec.ofNat 32 s.tbu.epoch,
   rcReg 0x0C 1 (fun s _ => s.tbu.stepCnt) fun _ v s => setTbu (fun t => { t with stepCnt := v }) s,
   w1cReg 0x10 (fun s => s.tbu.event) fun w s => setTbu (fun t => { t with event := w }) s,
   rwReg 0x14 1 (fun s _ => s.tbu.eventEn) fun _ v s => setTbu (fun t => { t with eventEn := keep v 11 0 }) s,
   rwlReg 0x20 1 (fun s _ => s.tbu.pathStepTh) fun _ v s => setTbu (fun t => { t with pathStepTh := clampW 24 1 0xFFFFFF v }) s,
   rwlReg 0x24 1 (fun s _ => s.tbu.agreeTh) fun _ v s => setTbu (fun t => { t with agreeTh := clampW 24 1 0xFFFFFF v }) s,
   rwlReg 0x28 1 (fun s _ => s.tbu.lockTh) fun _ v s => setTbu (fun t => { t with lockTh := clampW 24 1 0xFFFFFF v }) s,
   rwlReg 0x2C 1 (fun s _ => s.tbu.holdLimit) fun _ v s =>
     evalSuspect false false (setTbu (fun t => { t with holdLimit := clampW 16 1 0xFFFF v }) (evalSuspect false false s)),
   rwReg 0x30 1 (fun s _ => s.tbu.pps.cfg) fun _ v s => putPps v s,
   rwReg 0x34 1 (fun s _ => s.tbu.pps.inDelay) fun _ v s => setTbu (fun t => { t with pps := { t.pps with inDelay := v } }) s,
   roReg 0x38 1 fun s _ => s.tbu.pps.inDev,
   rcReg 0x3C 1 (fun s _ => s.tbu.pps.inCnt) fun _ v s => setTbu (fun t => { t with pps := { t.pps with inCnt := v } }) s,
   roReg 0x40 3 fun s k => ofInt 32 (nth s.tbu.cross k 0),
   roReg 0x50 1 fun s _ => utcWord s,
   woReg 0x60 1 fun _ v s => tbuSnap v s,
   roReg 0x64 1 fun s _ => BitVec.ofNat 32 s.tbu.snapEpoch,
   roReg 0x70 3 fun s k => timeWord s.tbu.snapFree k,
   roReg 0x80 3 fun s k => timeWord s.tbu.snapTime k,
   roReg 0x90 3 fun s k => timeWord s.tbu.snapA k,
   roReg 0xA0 3 fun s k => timeWord s.tbu.snapB k,
   rwReg 0xB0 4 (fun s k => nth s.tbu.asym k 0#32) fun k v s => setTbu (fun t => { t with asym := setAt t.asym k v }) s]
  ++ domRegs 0x100 .a ++ domRegs 0x200 .b ++
  [rwlReg 0x300 1 (fun s _ => s.tbu.tcCfg) fun _ v s => putTcCfg v s,
   rcReg 0x304 1 (fun s _ => s.tbu.tcFwd) fun _ v s => setTbu (fun t => { t with tcFwd := v }) s,
   rcReg 0x308 1 (fun s _ => s.tbu.tcSat) fun _ v s => setTbu (fun t => { t with tcSat := v }) s,
   rcReg 0x30C 1 (fun s _ => s.tbu.tcUnm) fun _ v s => setTbu (fun t => { t with tcUnm := v }) s]

/-! NET -/

def setNet (f : Net → Net) (s : State) : State := { s with net := f s.net }

/-- NET_PSTAT[p] (R144). -/
def pstat (s : State) (p : Nat) : Word :=
  let q := portOf s p
  wordOf [(10, 2, q.fecAct), (9, 1, b2n q.dsActive), (8, 1, b2n q.lpiRx), (7, 1, b2n q.lpiTx), (6, 1, b2n (preemptActive q)),
    (5, 1, b2n (pausedNow s p)), (4, 1, b2n q.anDone), (3, 1, b2n q.linkUp),
    (0, 3, if q.dsActive then 3 else q.speed)]

/-- NET_PCFG[p]: MODE 000 turns the port off (R114, R143). -/
def putPcfg (p : Nat) (v : Word) (s : State) : State :=
  let s := modPort p (fun q => { q with cfg := pcfgNext q.cfg v s.sys.locked }) s
  if (portOf s p).mode = 0 then linkDown p s else s

/-- NET_MAC_ADDR[p]: octets 2 to 5, then octets 0 and 1. -/
def putMac (hi : Bool) (p : Nat) (v : Word) (s : State) : State :=
  modPort p (fun q => { q with
    mac := if hi then fld v.toNat 15 0 * 2 ^ 32 + fld q.mac 31 0 else fld q.mac 47 32 * 2 ^ 32 + v.toNat }) s

def preemptWord (s : State) (p : Nat) : Word :=
  let q := portOf s p
  wordOf [(8, 8, fld q.preempt.toNat 15 8), (4, 2, fld q.preempt.toNat 5 4), (2, 2, q.verify.code), (0, 2, fld q.preempt.toNat 1 0)]

/-- NET_PREEMPT_CFG[p] (R129, R145): a change of EN or VERIFY_DIS starts verification anew (log 30). -/
def putPreempt (p : Nat) (v : Word) (s : State) : State :=
  let w := wordOf [(8, 8, max 1 (min 128 (fld v.toNat 15 8))), (4, 2, fld v.toNat 5 4), (0, 2, fld v.toNat 1 0)]
  let was := fld (portOf s p).preempt.toNat 1 0
  let s := modPort p (fun q => { q with preempt := w }) s
  if was = fld v.toNat 1 0 then s else startVerify p s

def putLpi (p : Nat) (v : Word) (s : State) : State :=
  modPort p (fun q => { q with lpi := wordOf [(4, 12, max 1 (fld v.toNat 15 4)), (0, 1, fld v.toNat 0 0)] }) s

/-- NET_CNT[p][k]: octet counts are read low word first, which latches the high word and clears both (R141). A pause in force counts up to now. -/
def netCntWord (p : Nat) (s : State) (k : Nat) : Word :=
  let q := portOf s p
  match k with
  | 1 => wordAt q.rxOct 0
  | 2 => q.rxHi
  | 18 => wordAt q.txOct 0
  | 19 => q.txHi
  | 22 => satAdd (nth q.cnt 22 0#32) (q.pausedFor s.tbu.free / (1000 * fr))
  | k => nth q.cnt k 0#32

/-- What a read leaves of a counter: octets of frames that this cycle counted are kept (R7, R141). -/
def netCntPut (p k : Nat) (v : Word) (s : State) : State :=
  let old := portOf s.began p
  match k with
  | 1 => modPort p (fun q => { q with rxHi := wordAt old.rxOct 1, rxOct := q.rxOct - old.rxOct }) s
  | 2 => s
  | 18 => modPort p (fun q => { q with txHi := wordAt old.txOct 1, txOct := q.txOct - old.txOct }) s
  | 19 => s
  | 22 => modPort p (fun q => { q with cnt := setAt q.cnt 22 v }) (settlePause p s.tbu.free (accountEmits s))
  | k => modPort p (fun q => { q with cnt := setAt q.cnt k v }) s

def portMap (f : Port → Bool) (s : State) : Nat := bitmap 4 fun p => f (portOf s p)

def netRegs : List Reg :=
  [roReg 0x00 1 fun s _ => BitVec.ofNat 32 (portMap Port.linkUp s),
   w1cReg 0x10 (fun s => s.net.event) fun w s => setNet (fun n => { n with event := w }) s,
   rwReg 0x14 1 (fun s _ => s.net.eventEn) fun _ v s => setNet (fun n => { n with eventEn := keep v 11 0 }) s,
   rwlReg 0x20 1 (fun s _ => s.net.prpCfg) fun _ v s => setNet (fun n => { n with prpCfg := keep v 1 0 }) s,
   rwlReg 0x24 1 (fun s _ => s.net.prpForget) fun _ v s => setNet (fun n => { n with prpForget := clampW 16 1 10000 v }) s,
   roReg 0x28 1 fun s _ => wordOf [(16, 16, (nth s.net.prp 1 []).length), (0, 16, (nth s.net.prp 0 []).length)],
   rcReg 0x2C 1 (fun s _ => s.net.prpEvict) fun _ v s => setNet (fun n => { n with prpEvict := v }) s,
   (mixReg 0x1000 1 pcfgRead putPcfg).every 0x400 4,
   (roReg 0x1004 1 pstat).every 0x400 4,
   (rwlReg 0x1008 1 (fun s p => (portOf s p).maxFrame) fun p v s => modPort p (fun q => { q with maxFrame := clampW 14 1518 9216 v }) s).every 0x400 4,
   (rwlReg 0x100C 1 (fun s p => wordAt (portOf s p).mac 0) (putMac false)).every 0x400 4,
   (rwlReg 0x1010 1 (fun s p => wordAt (portOf s p).mac 1) (putMac true)).every 0x400 4,
   (rwlReg 0x1014 1 preemptWord putPreempt).every 0x400 4,
   (rwReg 0x1018 1 (fun s p => (portOf s p).lpi) putLpi).every 0x400 4,
   (rwReg 0x101C 1 (fun s p => (portOf s p).ds) dsWrite).every 0x400 4]
  ++ ((List.range 4).map fun p => rcReg (0x1100 + p * 0x400) 32 (netCntWord p) (netCntPut p))

/-! ING -/

def setIng (f : Ing → Ing) (s : State) : State := { s with ing := f s.ing }

/-- ING_FIFO_WM: 0 stores 1; above 524,415 what is stored is open (log 2). -/
def putWm (v : Word) (s : State) : State :=
  let w := fld v.toNat 19 0
  let (w, s) := if 524415 < w then
      let (k, s) := drawFree s
      ((Config.freeBits k).toNat % 2 ^ 20, s)
    else (max 1 w, s)
  setIng (fun i => { i with wm := BitVec.ofNat 32 w }) s

/-- The fast or injected entry, and the slow state, that ING_EP_SEL names (R10). -/
def selFast (s : State) : Option EpEntry :=
  let c := fld s.ing.epSel.toNat 31 30
  let i := fld s.ing.epSel.toNat 29 0
  if c = 0 ∨ c = 2 then
    (lookupK s.ing.eps (if c = 0 then fastEntry i else injEntry i)).filter fun e => decide (i < 16384 ∧ e.id = s.ing.epSel.toNat)
  else none
def selSlow (s : State) : Option Unit512 :=
  if fld s.ing.epSel.toNat 31 30 = 1 then lookupK s.ing.slow (fld s.ing.epSel.toNat 29 0) else none

def epSelStat (s : State) : Word :=
  match selFast s, selSlow s with
  | some e, _ => wordOf [(2, 1, b2n e.valid), (0, 2, 1)]
  | none, some u => wordOf [(2, 1, b2n (slowValid u)), (0, 2, 2)]
  | none, none => 0#32

def epDataWord (s : State) (k : Nat) : Word :=
  match selFast s, selSlow s with
  | some e, _ => wordAt e.entry.toNat k
  | none, some u => wordAt u.toNat k
  | none, none => 0#32

/-- ING_EP_RT (R185). -/
def epRtWord (s : State) (k : Nat) : Word :=
  match selFast s with
  | none => 0#32
  | some e =>
    let r := e.rt
    match k with
    | 0 => r.accepted
    | 1 => BitVec.ofNat 32 r.lastTs
    | 2 => wordOf [(16, 16, satN 16 r.authFail), (0, 16, satN 16 r.replayN)]
    | 3 => wordOf [(16, 16, satN 16 r.chkErr), (8, 8, r.lastEpoch), (0, 8, r.lastFlags)]
    | 4 => BitVec.ofNat 32 r.cur.high
    | 5 => BitVec.ofNat 32 r.cur.seen
    | 6 => BitVec.ofNat 32 r.next.high
    | _ => wordOf [(1, 1, b2n r.stale), (0, 1, b2n r.mismatch)]

def pktCount (s : State) (n : Nat) : Word := BitVec.ofNat 32 (fifoOf s n).pkts.length

/-- An engine works on a frame within one command; it stays busy while its FIFO has not taken what the frame gave (log 31). -/
def ingRegs : List Reg :=
  [roReg 0x00 1 fun s _ => wordOf [(16, 1, b2n (decide (s.sys.runState = .run))), (0, 16, bitmap 16 fun n => !(engineFree s n))],
   rwReg 0x04 1 (fun s _ => s.ing.cfg) fun _ v s => setIng (fun i => { i with cfg := wordOf [(8, 6, fld v.toNat 13 8), (0, 4, fld v.toNat 3 0)] }) s,
   rwlReg 0x08 1 (fun s _ => s.ing.portC37) fun _ v s => setIng (fun i => { i with portC37 := keep v 15 0 }) s,
   rwlReg 0x0C 1 (fun s _ => s.ing.port905) fun _ v s => setIng (fun i => { i with port905 := keep v 15 0 }) s,
   rwlReg 0x10 1 (fun s _ => s.ing.portHxg) fun _ v s => setIng (fun i => { i with portHxg := keep v 15 0 }) s,
   rwlReg 0x14 1 (fun s _ => s.ing.utcDef) fun _ v s => setIng (fun i => { i with utcDef := keep v 15 0 }) s,
   rwlReg 0x18 1 (fun s _ => s.ing.tqTh) fun _ v s => setIng (fun i => { i with tqTh := keep v 6 0 }) s,
   w1cReg 0x20 (fun s => s.ing.event) fun w s => setIng (fun i => { i with event := w }) s,
   rwReg 0x24 1 (fun s _ => s.ing.eventEn) fun _ v s => setIng (fun i => { i with eventEn := keep v 11 0 }) s,
   rwlReg 0x28 1 (fun s _ => s.ing.wm) fun _ v s => putWm v s,
   w1cReg 0x2C (fun s => s.ing.wmEvent) fun w s => setIng (fun i => { i with wmEvent := w }) s,
   woReg 0x30 1 fun _ v s => ingFlush v s,
   roReg 0x34 1 fun s _ => BitVec.ofNat 32 (bitmap 16 fun n => (fifoOf s n).full),
   rcReg 0x38 1 (fun s _ => s.ing.spill) fun _ v s => setIng (fun i => { i with spill := v }) s,
   roReg 0x40 16 fun s n => BitVec.ofNat 32 (fifoOf s n).level,
   roReg 0x80 16 pktCount,
   rcReg 0xC0 16 (fun s k => nth s.ing.frames k 0#32) fun k v s => setIng (fun i => { i with frames := setAt i.frames k v }) s,
   rcReg 0x100 32 (fun s k => nth s.ing.cnt k 0#32) fun k v s => setIng (fun i => { i with cnt := setAt i.cnt k v }) s,
   rwReg 0x200 1 (fun s _ => s.ing.epSel) fun _ v s => setIng (fun i => { i with epSel := v }) s,
   roReg 0x204 1 fun s _ => epSelStat s,
   roReg 0x240 16 epDataWord,
   roReg 0x280 8 epRtWord]

end Sys2Proof.Machine
end

