-- ==== Sys2Proof/Machine/Registers.lean ====
section
/-! DEFINITION. Reads and writes of BAR0 (R4 to R8, R354, R355, R555 to R557). -/

namespace Sys2Proof.Machine

/-- The register list of a block, by its base ÷ 0x1_0000 (R354, R557). -/
def blockRegs : Nat → List Reg
  | 0 => sysRegs
  | 1 => hifRegs
  | 2 => tbuRegs
  | 3 => netRegs
  | 4 => ingRegs
  | 5 => alnRegs
  | 6 => dfcRegs
  | 7 => lseRegs
  | 8 => osmRegs
  | 9 => sepRegs
  | 10 => tkxRegs
  | 11 => fltRegs
  | 12 => logRegs
  | 13 => kstRegs
  | 14 => mbxRegs
  | 15 => pairRegs
  | _ => []

/-- The register at a BAR0 offset; none where it is reserved or the offset is not aligned. -/
def regAt (a : Nat) : Option (Reg × Nat) := if a % 4 ≠ 0 then none else findReg (blockRegs (a / 65536)) (a % 65536)

/-- The current value of the word at an offset, with no effect. -/
def regWord (a : Nat) (s : State) : Word :=
  match regAt a with
  | some (r, k) => r.get s k
  | none => 0#32

/-- `n` consecutive words. -/
def span (a n : Nat) : List Nat := (List.range n).map fun k => a + 4 * k

/-- Offsets whose read latches others, with those (R555 and the read windows of R554). -/
def latchTable : List (Nat × List Nat) :=
  [(0x10060, span 0x10064 1), (0x20108, span 0x2010C 2), (0x20114, span 0x20118 1), (0x20134, span 0x20138 1), (0x20208, span 0x2020C 2),
   (0x20214, span 0x20218 1), (0x20234, span 0x20238 1), (0x40240, span 0x40244 15 ++ span 0x40280 8), (0x60080, span 0x60084 15 ++ span 0x600C0 8),
   (0x70420, span 0x70424 7 ++ span 0x70440 2), (0x80140, span 0x80144 31 ++ span 0x801C0 8), (0x80210, span 0x80214 3),
   (0x90090, span 0x90094 7), (0x900D0, span 0x900D4 3), (0x90210, span 0x90214 1), (0x92120, span 0x92124 7), (0x92190, span 0x92194 3),
   (0xA00B0, span 0xA00B4 3), (0xB0020, span 0xB0024 5), (0xC0010, span 0xC0014 1), (0xC0018, span 0xC001C 1), (0xD0024, span 0xD0028 1),
   (0xD0030, span 0xD0034 1), (0xD0060, span 0xD0064 7), (0xD0080, span 0xD0084 7), (0xD0110, span 0xD0114 3), (0xF0040, span 0xF0044 7),
   (0xF0060, span 0xF0064 1), (0xF0068, span 0xF006C 1)]
  ++ (List.range 16).map fun i => (0xB0100 + 0x20 * i, span (0xB0104 + 0x20 * i) 5)

def latchedBy (a : Nat) : List Nat := (lookupK latchTable a).getD []
def isLatched (a : Nat) : Bool := latchTable.any fun e => e.2.contains a

/-- The words that a read of `a` latches, as they stand. -/
def takeLatches (a : Nat) (s : State) : State :=
  { s with latches := (latchedBy a).foldl (fun l b => insertK l b (regWord b s)) s.latches }

/-- A read of an RC register: the value before the updates of this cycle, which are kept (R4, R7). -/
def readClear (r : Reg) (k : Nat) (s : State) : State :=
  let old := r.get s.began k
  onPrior (r.put k 0#32) (r.put k (r.kept old (r.get s k)) { s with readData := old })

/-- A write of a W1C register: a bit that this cycle set stays (R6). -/
def writeW1c (r : Reg) (k : Nat) (v : Word) (s : State) : State :=
  let m := v &&& r.get s.began k
  onPrior (r.put k m) (r.put k m s)

/-- A read of one aligned word by the host. -/
def readOpen (a : Nat) (s : State) : State :=
  match regAt a with
  | none => { s with readData := 0#32 }
  | some (r, k) =>
    if isLatched a then { s with readData := (lookupK s.latches a).getD 0#32 } else
    match r.act with
    | some f => f k s
    | none =>
      let s' := takeLatches a s
      if r.acc = .rc then readClear r k s' else { s' with readData := r.get s k }

/-- A BAR0 read: until READY only SYS_ID and SYS_STATUS answer (R8). -/
def barRead (a : Nat) (s : State) : State :=
  if barOpen s then readOpen a s
  else { s with readData := if s.sys.ready = false ∧ (a = 0 ∨ a = 4) then regWord a s else 0#32 }

/-- RWL registers of a block accept writes: until CONFIG_LOCK, and HIF's while HIF_OPEN is 1 (R4, R392, R528). -/
def rwlOpen (b : Nat) (s : State) : Bool := if b = 1 then hifWritable s else !s.sys.locked

/-- A write of one aligned word, by its access code (R4). -/
def writeOpen (a : Nat) (v : Word) (s : State) : State :=
  match regAt a with
  | none => s
  | some (r, k) =>
    match r.acc with
    | .ro => s
    | .rc => s
    | .w1c => writeW1c r k v s
    | .rwl => if rwlOpen (a / 65536) s then r.put k v s else s
    | _ => r.put k v s

/-- A BAR0 write; until READY it is discarded (R8). -/
def barWrite (a : Nat) (v : Word) (s : State) : State := if barOpen s then writeOpen a v s else s

/-- A host write to BAR0: of 64 bits as two of 32, low word first; of another size or alignment it is discarded (R355). -/
def hostWrite (a : Access) (v : Dword) (s : State) : State :=
  if !a.aligned then s
  else if a.bits = 32 then barWrite a.off (v.setWidth 32) s
  else barWrite (a.off + 4) (BitVec.ofNat 32 (v.toNat >>> 32)) (barWrite a.off (v.setWidth 32) s)

/-- A host read of BAR0, as two reads where it is of 64 bits; 0 for another size or alignment, and everywhere in BAR2 (R355, R356). -/
def hostRead (bar2 : Bool) (a : Access) (s : State) : State :=
  if bar2 || !a.aligned then { s with readData := 0#32, readHigh := 0#32 }
  else if a.bits = 32 then { barRead a.off s with readHigh := 0#32 }
  else
    let lo := barRead a.off s
    let hi := barRead (a.off + 4) lo
    { hi with readData := lo.readData, readHigh := hi.readData }

end Sys2Proof.Machine
end

