-- ==== Sys2Proof/Machine/Boot.lean ====
section
/-! DEFINITION. Power, start-up and resets (R424, R456, R461, R462, R471, R474, R479, R480, R517 to R533). -/

namespace Sys2Proof.Machine

/-- How a start-up began (R525). -/
inductive Source where
  | power
  | brownOut
  | resetN
  | sysReset
  deriving DecidableEq, Repr

def Source.code : Source → Nat
  | .power => 0
  | .resetN => 1
  | .sysReset => 2
  | .brownOut => 3

/-- Cold starts initialise DRAM, the Logbook included (R519, R526). -/
def Source.cold : Source → Bool
  | .power => true
  | .brownOut => true
  | _ => false

/-! What a reset keeps (R526) -/

/-- The Key Store across a reset: fuses, cells, banks and AON contents stay; registers return to their reset values. -/
def kstAfter (cold : Bool) (k : Kst) : Kst :=
  { k with
    event := 0#32, eventEn := 0#32, cnt := List.replicate 8 0#32, slotSel := 0#32, rootOk := false, nonce := 0#256,
    nonceLive := false, attestSeq := if cold then 0 else k.attestSeq, rtcWr := none }

/-- HIF across a reset; SYS_RESET keeps the link and configuration space. -/
def hifAfter (src : Source) (h : Hif) : Hif :=
  if src = .sysReset then
    { Hif.reset with bme := h.bme, msixEn := h.msixEn, msixMask := h.msixMask, d3hot := h.d3hot, linkWidth := h.linkWidth, linkSpeed := h.linkSpeed
                     payload := h.payload, readReq := h.readReq, advisory := h.advisory, abort := h.abort }
  else Hif.reset

/-- The Logbook across a warm start: its records; a cold one empties it. -/
def logAfter (cold : Bool) (l : Log) : Log := if cold then Log.reset else { Log.reset with recs := l.recs }

/-- Every part at its reset value but what the source keeps. -/
def resetParts (src : Source) (s : State) : State :=
  { State.reset with
    sys := { Sys.reset with powered := true, aon := s.sys.aon, prevFail := s.sys.prevFail }
    hif := hifAfter src s.hif
    log := logAfter src.cold s.log
    kst := kstAfter src.cold s.kst
    pending := s.pending, out := s.out, freeCtr := s.freeCtr, readData := s.readData }

/-! Steps of the start-up (R519) -/

/-- The first power-up draws the master root (R456). -/
def drawRoot (s : State) : State :=
  if s.kst.root.isSome || s.kst.destroyed || decide (lcState s ≠ 0) then s else
  let (k, s) := drawFree s
  { s with kst := { s.kst with root := some (Config.freeBits k) } }

/-- The record that a cut transition owes: what step 2 and the destruction of R461 and R462 still do. -/
def finishCut (s : State) : State :=
  let torn := s.kst.lcTorn
  let a := match s.kst.lc.reverse.drop 1 with | (c, _) :: _ => c | [] => 0
  let s := if lcState s = 4 then { s with kst := { s.kst with root := none, destroyed := true, rootOk := false, cert := [] } } else s
  let s := zeroiseOthers { s with kst := { s.kst with lcTorn := false } }
  if torn then
    kstEvent 4 (logEv 0x41 13 0 (argOf [(285, 3, a), (282, 3, lcState s), (277, 5, lcLeft s), (276, 1, 1)]) s)
  else s

/-- A slot whose later buffer is incomplete keeps the older one (R471). -/
def tornSlot (s : State) (k : Nat) : State :=
  let x := slotOfKey s k
  if x.hi ≤ x.gen then s else
  let s := setSlot k { x with torn := true } s
  kstEvent 0 (logEv 0x40 13 0 (argOf [(282, 6, k), (250, 32, x.gen), (218, 32, x.hi)]) (kstCnt 4 1 s))

/-- Retention lost while VIN was absent: the real-time counter restarts from 0 (R480). -/
def restartRtc (s : State) : State :=
  if !s.kst.retPend then s else { s with kst := { s.kst with rtc := 0, rtcAt := s.sys.aon } }

/-- Retention lost while VIN was absent: slots and the record (R480). -/
def retentionLost (s : State) : State :=
  if !s.kst.retPend then s else
  logTamper 1 (kstEvent 3 (revokeAll 4 { s with kst := { s.kst with retPend := false } }))

/-- A share is drawn where none is held and TAMPER_N is high (R479). -/
def drawShare (s : State) : State :=
  if s.kst.share.isSome || s.kst.tamperActive then s else
  let (k, s) := drawFree s
  { s with kst := { s.kst with share := some (Config.freeBits k) } }

/-- Step 8 for the Key Store. -/
def bootKeys (s : State) : State :=
  drawShare (retentionLost ((List.range 64).foldl tornSlot (finishCut s)))

/-- The Logbook's scan: the next SEQ and the lowest that may be present (R424). -/
def scanLog (s : State) : State :=
  let l := ((s.log.recs.filter fun r => recValid r.2).map fun r => recSeq r.2)
  { s with log := { s.log with seqNext := maxN l + 1, oldest := l.foldl min (maxN l + 1) } }

/-- Both domains start at the real-time counter (R78). -/
def loadOffsets (s : State) : State :=
  let off : Int := ((rtcNow s * secFr : Nat) : Int)
  { s with tbu := { s.tbu with domA := { s.tbu.domA with offset := off }, domB := { s.tbu.domB with offset := off } } }

/-- A bank is accepted (R522). -/
def bankOk (b : BootIn) (s : State) (k : Nat) : Bool :=
  match nth s.kst.banks k none with
  | some (_, svn) => decide (s.kst.minSvn ≤ svn) && !(b.bankBad.testBit k)
  | none => false

/-- The bank that runs: the newer one, else the other. -/
def pickBank (b : BootIn) (s : State) : Option Nat :=
  let n := s.kst.newBank
  if bankOk b s n then some n else if bankOk b s (1 - n) then some (1 - n) else none

/-- ARG of the start-up record (R532). -/
def bootArg (src : Source) (prev bank svn : Nat) : Nat := argOf [(284, 4, src.code), (280, 4, prev), (279, 1, bank), (263, 16, svn)]

/-- The start-up record goes straight into the Logbook; what waited enters the queue after it (R424). -/
def bootRecord (src : Source) (prev bank svn : Nat) (s : State) : State :=
  logStore (stampEv (if src.cold then 1 else 2) 0 0 (bootArg src prev bank svn) s) { s with log := { s.log with active := true } }

/-- A start-up that ends without READY: with a failure code, or cut short by another reset source where the code is 0 (R524, R527). -/
def bootFails (b : BootIn) (code step : Nat) (s : State) : State :=
  { s with
    sys := { s.sys with prevFail := if code = 0 then s.sys.prevFail else code, aon := s.sys.aon + b.ms * 256000000 }
    tbu := { s.tbu with running := decide (3 < step), free := if step ≤ 3 then 0 else b.free * 256 }
    log := { s.log with active := false } }

/-- The failure a start-up meets before step 8: one of the straps or the root (R519, R520, R524), or one of its environment. -/
def earlyFail (b : BootIn) : Option (Nat × Nat) :=
  let own : Option (Nat × Nat) :=
    if 2 ≤ b.mode then some (2, 0xA) else none
  match own, b.fail with
  | some (p, c), some (q, d) => if q < p then some (q, d) else some (p, c)
  | some x, none => some x
  | none, x => x

/-- The halt for boundary scan after step 2 (R520). -/
def bootHalts (b : BootIn) (s : State) : Bool := decide (b.mode = 1) && (decide (lcState s = 0) || decide (lcState s = 3))

/-- Steps 9 and 10: firmware accepted, the start-up record, READY (R522, R523, R474, R479). -/
def bootReady (src : Source) (b : BootIn) (bank : Nat) (s : State) : State :=
  let (meas, svn) := (nth s.kst.banks bank none).getD (0#256, 0)
  let prev := s.sys.prevFail
  let fb := decide (bank ≠ s.kst.newBank)
  let s := bootRecord src prev bank svn s
  let s := bootKeys s
  let s := { s with
    sys := { s.sys with
      ready := true, prevFail := 0, laneBad := b.laneBad
      resetCause := wordOf [(8, 4, prev), (0, 4, src.code)]
      boot := wordOf [(20, 12, satN 12 b.ms), (11, 1, b2n fb), (10, 1, bank), (8, 2, b.mode)] }
    kst := { s.kst with fwMeas := meas, fwSvn := svn, minSvn := max s.kst.minSvn svn, bank := bank }
    net := { s.net with ports := s.net.ports.zipIdx.map fun p => { p.1 with mac := nth b.macs p.2 0 } }
    flt := { s.flt with low := false, minDone := false }
    swm := { s.swm with hb := [true, true, true], winAt := s.tbu.free } }
  let s := drivePins (setRunState .config 0xFE s)
  if s.kst.tamperWait then tamperRevoke s else s

/-- Start-up from its first step to READY, to a failure or to the halt. -/
def bootUp (src : Source) (b : BootIn) (s : State) : State :=
  let s := resetParts src s
  let fail := earlyFail b
  let failIn := fun (lo hi : Nat) => match fail with
    | some (p, c) => if lo ≤ p ∧ p ≤ hi then some (p, c) else none
    | none => none
  match failIn 0 2 with
  | some (p, c) => bootFails b c p s
  | none =>
    let s := drawRoot s
    if bootHalts b s then { s with sys := { s.sys with halted := true, aon := s.sys.aon + b.ms * 256000000 } }
    else
      let s := { s with kst := { s.kst with rootOk := s.kst.root.isSome && !s.kst.destroyed } }
      match failIn 3 8 with
      | some (p, c) => bootFails b c p s
      | none =>
        let kept := src = .sysReset
        let s := { s with
          sys := { s.sys with aon := s.sys.aon + b.ms * 256000000 }
          tbu := { s.tbu with running := true, free := b.free * 256 }
          hif := { s.hif with
            linkWidth := if kept then s.hif.linkWidth else (b.link.map fun l => l.1.lanes).getD 0
            linkSpeed := if kept then s.hif.linkSpeed else (b.link.map fun l => l.2.code).getD 0 } }
        let s := loadOffsets (restartRtc (scanLog s))
        match failIn 9 9, pickBank b s with
        | none, some k => bootReady src b k s
        | some (p, 0), _ => bootFails { b with ms := 0 } 0 p (bootKeys s)
        | e, _ =>
          let c := match e with | some (_, c) => c | none => 7
          -- Step 9 failed: the record, what waited behind it, then INIT until the next reset.
          let s := bootKeys (bootRecord src s.sys.prevFail (1 - s.kst.newBank) 0 s)
          { s with sys := { s.sys with prevFail := c }, log := { s.log with active := false } }

/-! Sources (R517, R525 to R528) -/

/-- POWER_ON: VIN rises through the threshold. -/
def powerOn (b : BootIn) (s : State) : State :=
  if s.sys.powered then s else
  let held := match s.sys.vinFallAt with
    | some t => decide (s.sys.aon - t < 256000000000)
    | none => false
  bootUp (if held then .brownOut else .power) b s

/-- What a power loss cuts short. -/
def cutShort (c : PowerCut) (s : State) : State :=
  match c with
  | .nothing => s
  | .key k => setSlot k { slotOfKey s k with hi := nextGen (slotOfKey s k) } s
  | .lifecycle b owner cert =>
    let a := lcState s
    if (lcAuth a b).isNone ∨ (lcLeft s ≤ 1 ∧ b ≠ 4) then s else
    { s with kst := { s.kst with
        lc := s.kst.lc ++ [(b, if b = 2 then owner else [])], cert := if a = 0 ∧ b = 1 then cert else s.kst.cert, lcTorn := true } }

/-- POWER_LOSS: VIN falls through the threshold: outputs stop, FAULT_N is low, DRAM and every register are lost (R517). -/
def powerLoss (c : PowerCut) (s : State) : State :=
  if !s.sys.powered then s else
  let s := if s.sys.ready then cutShort c s else s
  let t := resetParts .power s
  { t with
    sys := { t.sys with powered := false, vinFallAt := some s.sys.aon }
    kst := { t.kst with retLost := t.kst.retPend } }

/-- RESET_N was low for `low` ns: from 1 to 10 µs the outcome is open (R525). -/
def resetPin (low : Nat) (b : BootIn) (s : State) : State :=
  if !s.sys.powered || decide (low < 1000) then s
  else if 10000 ≤ low then bootUp .resetN b s
  else
    let (k, s) := drawFree s
    if Config.freeBool k then bootUp .resetN b s else s

/-- SYS_RESET with its key; it takes effect 10 µs later (R525, R531). -/
def sysResetWrite (v : Word) (b : BootIn) (s : State) : State :=
  if barOpen s && decide (fld v.toNat 31 16 = 0x4858) && bitOf v 0 then bootUp .sysReset b (passTime 2560000 s) else s

/-- Completions of commands that were read are discarded (R528). -/
def Ctx.dropped (c : Ctx) : Ctx := { c with discard := true }

/-- PERST_N (R526, R528): HIF returns to its reset values, but for what it shows of the image, which is kept. -/
def perst (width : LinkWidth) (speed : LinkSpeed) (s : State) : State :=
  if !s.sys.powered then s else
  let h := s.hif
  let on := s.sys.ready
  let s := { s with
    latches := s.latches.filter fun e => decide (e.1 / 65536 ≠ 1)
    hif := { Hif.reset with
      open_ := s.sys.locked, imgState := h.imgState, digest := h.digest, imgSeq := h.imgSeq, linkWidth := width.lanes, linkSpeed := speed.code
      sched := h.sched.map fun x => { x with ctx := x.ctx.dropped } }
    sys := { s.sys with maintPend := s.sys.maintPend.map fun m => (m.1.map Ctx.dropped, m.2) }
    dfc := { s.dfc with chains := s.dfc.chains.map fun c =>
      (c.1, { c.2 with swap := c.2.swap.map fun (w : Swap) => { w with ctx := w.ctx.map Ctx.dropped } }) }
    pair := { s.pair with
      startPend := s.pair.startPend.map Ctx.dropped
      switchAt := s.pair.switchAt.map fun w => (w.1.dropped, w.2)
      keyPend := s.pair.keyPend.map fun (k : MirrorPend) => { k with ctx := k.ctx.dropped } } }
  if on then { s with mbx := { s.mbx with chans := s.mbx.chans.map clearChan, locks := List.replicate 16 none } } else s

/-- SYS_TEMP_UPDATE (R531). -/
def tempUpdate (vin : Nat) (temp : Int) (s : State) : State :=
  if !s.sys.powered then s else
  { s with sys := { s.sys with vin := BitVec.ofNat 32 (vin % 65536), temp := BitVec.ofNat 32 (ifld 16 temp) } }

end Sys2Proof.Machine
end

