-- ==== Sys2Proof/Machine/Watch.lean ====
section
/-! DEFINITION. The Safety Watch's checks and the detectors that stand alone (R30, R91, R93, R342, R428, R432, R445, R447, R448). -/

namespace Sys2Proof.Machine

/-- HEARTBEAT: a toggle has been absent for 1.0 ms. -/
def toggleLost (who : Nat) (s : State) : State :=
  raiseFault (FaultIn.plain 0x0C (heartDomain who)) { s with swm := { s.swm with hb := setAt s.swm.hb who false } }

/-- Disciplined time that forward steps have added since the oldest uncommitted tick's boundary, in 2^-16 ns (log 35). -/
def jumped (s : State) : Int :=
  let tm : Int := (s.aln.next * secFr : Nat) / (frate s : Int)
  (s.swm.jumps.map fun j => if tm ≤ j.2 then j.2 - max tm j.1 else 0).foldl (· + ·) 0

/-- COMMIT_WATCHDOG: the oldest uncommitted tick has passed Tm + WAIT_MAX + 1.0 ms. While MAINT_ENTER waits no tick is due (log 28). -/
def commitWatch (s : State) : State :=
  if ticking s && tmReached (frate s) s.aln.next ((s.swm.waitMax * fr + msFr : Nat) : Int) (discTime s - jumped s) then
    raiseFault (FaultIn.plain 0x0D 5) s
  else s

/-- PHASE_MARK: D1 or D2 of the tick in progress is missing at its mark limit, or was taken after it. -/
def phaseWatch (s : State) : State :=
  match s.tkx.cur with
  | none => s
  | some c =>
    if s.sys.runState = .run && (!(c.d1 && c.d2) || c.lateMark) && decide (c.at_ + markLimit s ≤ s.tbu.free) then raiseFault (FaultIn.plain 0x0E 10) s else s

/-- TIME_CLOCK_WINDOW: a window of 50 ms of the SAFE clock ends (R93). -/
def clockWindow (s : State) : State :=
  if !s.tbu.running then s else
  let adv : Int := s.tbu.free - s.swm.winAt
  let off := (adv - 50 * msFr).natAbs
  let s := { s with swm := { s.swm with winAt := s.tbu.free } }
  if 50 * msFr < off * 1000 then raiseFault (FaultIn.plain 0x0B 2) s else s

/-- SWM_SELFTEST (R448). -/
def selfTest (comparators heartbeats : Bool) (s : State) : State :=
  if comparators && heartbeats then
    { s with swm := { s.swm with
        selfPass := true, lockOk := true, selfTs := ts32 s, cnt := modAt s.swm.cnt 0 (satAdd · 1) } }
  else raiseFault (FaultIn.plain 0x16 0) { s with swm := { s.swm with selfPass := false, lockOk := comparators } }

/-- FW_WATCHDOG of a control core. -/
def fwWatch (core : Nat) (s : State) : State := raiseFault { FaultIn.plain 0x11 12 with unit := core % 4 } s

/-- SRAM_SCRUB_PASS: what the pass met is reported in order (R30). -/
def scrubPass (l : List FaultIn) (s : State) : State := l.foldl (fun s x => raiseFault x s) s

/-- A ball has settled: 20 µs have passed since its last change. Until then no readback is taken (R342, R549). -/
def Pin.settled (p : Pin) (now : Nat) : Bool := match p.changed with
  | some t => decide (t + 20000 * fr ≤ now)
  | none => true

/-- ALM_READBACK_SAMPLE (R342). -/
def readback (k : Nat) (level : Bool) (s : State) : State :=
  match s.ala.pins[k]? with
  | none => s
  | some p =>
    if !(p.settled s.tbu.free) then s else
    let s := { s with ala := { s.ala with pins := setAt s.ala.pins k { p with readback := level } } }
    if level = p.level then s else raiseFault (FaultIn.plain 0x0A 11) s

/-- REPLAY_BUDGET_EXPIRY (R445), measured from the end of the reset. -/
def replayBudget (s : State) : State :=
  match s.aln.replay with
  | none => s
  | some (_, t) =>
    let from_ := match winOf s 5 with
      | some w => w.resetEnd
      | none => t + resetLen 5
    if s.sys.guarEff = 2 && decide (from_ + s.sys.replayUs * 1000 * fr ≤ s.tbu.free) then noteQuorum (replayRest s) else s

/-- The packet that the service of the FIFOs gives has an uncorrectable word (R178). -/
def eccServed : Option (Nat × Pkt) × State → State
  | (some (n, _), s) => raiseFault { FaultIn.plain 0x06 4 with region := .fifo n 0 } { s with aln := { s.aln with rr := n } }
  | (none, s) => s

/-- PACKET_PLACE (R178, R186): a replayed packet first; a packet with an uncorrectable word is discarded. The Churn places nothing during its
own reset (R430). -/
def packetPlace (ecc : Bool) (s : State) : State :=
  match winOf s 5 with
  | some w =>
    if s.tbu.free < w.resetEnd then s
    else if s.aln.replay.isSome then noteQuorum (replayStep s) else s
  | none =>
    if s.aln.replay.isSome then noteQuorum (replayStep s)
    else if ecc then eccServed (serveFifo 16 (s.aln.rr + 1) (advanceFront s))
    else placeNext s

end Sys2Proof.Machine
end

