-- ==== Sys2Proof/Machine/RunBase.lean ====
section
/-! DEFINITION. What every command's meaning shares: time passes first, and an event of the running module needs READY (log 33). -/

namespace Sys2Proof.Machine

abbrev Result := Host.Outcome State Fault Refusal

/-- A command: the cycle before it ends and `dt` passes, then its operation takes place. -/
def run (dt : Nat) (op : State → State) (s : State) : Result := .next (op (elapse dt s))

/-- Before READY nothing of the running module happens. -/
def live (op : State → State) (s : State) : State := if s.sys.ready then op s else s

/-- A host access to BAR0 or BAR2. -/
def onBar (op : State → State) (s : State) : State := if barOpen s then op s else s

/-- A host read over BAR0; a closed BAR0 answers 0 (R8). -/
def onRead (op : State → State) (s : State) : State := if barOpen s then op s else { s with readData := 0#32 }

/-- An event of port p, 0 to 3. -/
def onPort (p : Nat) (op : State → State) : State → State := live fun s => if p < 4 then op s else s

/-- A message of the peer arrives while a lane is up. -/
def onYoke (op : State → State) : State → State := live fun s => if yokeUp s then op s else s

/-- An event that can end phases, tasks or commits: the Helm goes on, and mirrored commands take effect after the tick (R498). -/
def onTick (op : State → State) : State → State := live fun s => drainMirrored (settle (op s))

/-- An event that can end a recovery: marks that waited are used too (R508). -/
def onRecovery (op : State → State) : State → State := live fun s => drainMirrored (settle (drainMarks (settle (op s))))

/-- An event that may set disciplined time for the first time (R83). -/
def withStep (op : State → State) (s : State) : State :=
  let t := op s
  if t.tbu.epoch = s.tbu.epoch then t else timeStepped (discTime s) t

end Sys2Proof.Machine
end

