-- ==== Sys2Proof/Machine/RunCommands.lean ====
section
/-! DEFINITION. The commands of the CMD and INJECT rings (R374 to R380, and the chapters of each). -/

namespace Sys2Proof.Machine

def execNop (dt : Nat) (d : Desc) (s : State) : Result := run dt (live (nopCmd d)) s
def execConfigLoad (dt : Nat) (d : Desc) (list : Option (List (BitVec 128))) (image : Option Image) (s : State) : Result :=
  run dt (live (configLoadCmd d list image)) s
def execStart (dt : Nat) (d : Desc) (s : State) : Result := run dt (live (startDesc d)) s
def execConfigLock (dt : Nat) (d : Desc) (s : State) : Result := run dt (live (configLockCmd d)) s
def execMaintEnter (dt : Nat) (d : Desc) (s : State) : Result := run dt (onTick (maintEnterCmd d)) s
def execMaintExit (dt : Nat) (d : Desc) (s : State) : Result := run dt (live (maintExitCmd d)) s
def execUnconfigure (dt : Nat) (d : Desc) (s : State) : Result := run dt (live (unconfigureCmd d)) s
def execFwLoad (dt : Nat) (d : Desc) (list : Option (List (BitVec 128))) (image : Option (List Byte)) (s : State) : Result :=
  run dt (live (fwLoadCmd d list image)) s
def execStep (dt : Nat) (d : Desc) (s : State) : Result := run dt (onTick (stepDesc d)) s
def execDfcCoefLoad (dt : Nat) (d : Desc) (words : Option (List Word)) (s : State) : Result := run dt (live (dfcCoefLoadCmd d words)) s
def execLogClear (dt : Nat) (d : Desc) (s : State) : Result := run dt (live (logClearCmd d)) s
def execLogExport (dt : Nat) (d : Desc) (s : State) : Result := run dt (live (logExportCmd d)) s
def execKeyGenerate (dt : Nat) (d : Desc) (cellErr : Bool) (s : State) : Result := run dt (live (keyGenerateCmd d cellErr)) s
def execKeyImport (dt : Nat) (d : Desc) (blob : Option (List Byte)) (s : State) : Result := run dt (live (keyImportCmd d blob)) s
def execKeyRoll (dt : Nat) (d : Desc) (blob : Option (List Byte)) (cellErr : Bool) (s : State) : Result :=
  run dt (live (keyRollCmd d blob cellErr)) s
def execKeyRevoke (dt : Nat) (d : Desc) (s : State) : Result := run dt (live (keyRevokeCmd d)) s
def execLifecycle (dt : Nat) (d : Desc) (sig aux : Option (List Byte)) (s : State) : Result := run dt (live (lifecycleCmd d sig aux)) s
def execAttest (dt : Nat) (d : Desc) (challenge : Option (List Byte)) (s : State) : Result := run dt (live (attestCmd d challenge)) s
def execPairSwitchover (dt : Nat) (d : Desc) (s : State) : Result := run dt (live (pairSwitchoverCmd d)) s
def execInject (dt : Nat) (d : Desc) (frame : Option (List Byte)) (s : State) : Result := run dt (live (injectCmd d frame)) s

end Sys2Proof.Machine
end

