-- ==== Sys2Proof/Machine/RunFaults.lean ====
section
/-! DEFINITION. Commands of the balls, alarm frames, the Fault Collector, the Safety Watch and the Logbook (R340 to R346, R426 to R454, R410 to R419). -/

namespace Sys2Proof.Machine

def execPinFollowExpiry (dt pin : Nat) (s : State) : Result := run dt (live (pinFollow pin)) s
def execAlmReadbackSample (dt pin : Nat) (level : Bool) (s : State) : Result := run dt (onTick (readback pin level)) s
def execAlaPinClear (dt : Nat) (mask : Word) (s : State) : Result := run dt (onBar (pinClear (fld mask.toNat 7 0))) s
def execAlarmFrameRetx (dt group : Nat) (s : State) : Result := run dt (live (groupRetx group)) s

def execFaultDetected (dt : Nat) (x : FaultIn) (s : State) : Result := run dt (onTick (raiseFault x)) s
def execRestartComplete (dt domain : Nat) (s : State) : Result := run dt (onRecovery (restartComplete domain)) s
def execReplayBudgetExpiry (dt : Nat) (s : State) : Result := run dt (onRecovery replayBudget) s
/-- The 1.0 ms minimum of FAULT_N ends (R432). -/
def execFaultNMinExpiry (dt : Nat) (s : State) : Result := run dt (live tryRelease) s
def execFaultConditionCleared (dt code domain : Nat) (s : State) : Result := run dt (live (conditionCleared code domain)) s
def execFaultnRelease (dt : Nat) (s : State) : Result := run dt (onBar faultnRelease) s
def execFirstClr (dt : Nat) (s : State) : Result := run dt (onBar firstClr) s
def execFltInject (dt : Nat) (v : Word) (s : State) : Result := run dt (onBar (onTick (fltInject v))) s
def execHeartbeat (dt who : Nat) (s : State) : Result := run dt (onTick fun s => if who < 3 then toggleLost who s else s) s
def execCommitWatchdog (dt : Nat) (s : State) : Result := run dt (onTick commitWatch) s
def execPhaseMark (dt : Nat) (s : State) : Result := run dt (onTick phaseWatch) s
def execTimeClockWindow (dt : Nat) (s : State) : Result := run dt (onTick clockWindow) s
def execSwmSelftest (dt : Nat) (comparators heartbeats : Bool) (s : State) : Result := run dt (onTick (selfTest comparators heartbeats)) s
def execFwWatchdog (dt core : Nat) (s : State) : Result := run dt (onTick (fwWatch core)) s
def execSramScrubPass (dt : Nat) (errors : List FaultIn) (s : State) : Result := run dt (onTick (scrubPass errors)) s
def execLogRecordWrite (dt : Nat) (s : State) : Result := run dt (live logWriteNext) s

end Sys2Proof.Machine
end

