-- ==== Sys2Proof/Machine/RunHost.lean ====
section
/-! DEFINITION. Doorbells, rings, the bus, registers and mailboxes (R4 to R8, R353 to R370, R387 to R389, R396 to R407, R529). -/

namespace Sys2Proof.Machine

/-- A ring of the 64 (R356). -/
def onRing (n : Nat) (op : State → State) (s : State) : State := if n < 64 then op s else s

def execTailDoorbell (dt : Nat) (a : Access) (v : Dword) (s : State) : Result := run dt (doorbellWrite a v) s
def execHeadDoorbell (dt : Nat) (a : Access) (v : Dword) (s : State) : Result := run dt (doorbellWrite a v) s
def execRingEnable (dt ring : Nat) (v : Word) (s : State) : Result :=
  run dt (onBar (onRing ring (writeRingCfg ring (v ||| 0x80000000#32)))) s
def execRingDisable (dt ring : Nat) (v : Word) (s : State) : Result :=
  run dt (onBar (onRing ring (writeRingCfg ring (v &&& 0x7FFFFFFF#32)))) s
def execRecordDeadline (dt ring : Nat) (s : State) : Result := run dt (live (onRing ring (recordDeadline ring))) s
def execIrqCoalTimer (dt ring : Nat) (s : State) : Result := run dt (live (onRing ring (irqCoalTimer ring))) s
def execBusMasterEnableChange (dt : Nat) (bme : Bool) (msix : MsixCtl) (dev : DevCtl) (s : State) : Result :=
  run dt (busMasterChange bme msix dev) s
def execPowerStateChange (dt : Nat) (d3hot : Bool) (s : State) : Result := run dt (powerState d3hot) s
def execMsixUnmask (dt vector : Nat) (s : State) : Result := run dt (onRing vector (msixUnmask vector)) s

def execRegisterWrite (dt : Nat) (a : Access) (v : Dword) (s : State) : Result := run dt (hostWrite a v) s
def execRegisterReadClear (dt : Nat) (r : BarRead) (s : State) : Result := run dt (hostRead r.bar2 r.at_) s
def execLatchedWordRead (dt : Nat) (r : BarRead) (s : State) : Result := run dt (hostRead r.bar2 r.at_) s

def execMbxH2cWrite (dt chan : Nat) (w : Word) (s : State) : Result := run dt (onBar (h2cWrite chan w)) s
def execMbxC2hRead (dt chan : Nat) (s : State) : Result := run dt (onRead (c2hRead chan)) s
def execMbxC2hAck (dt chan : Nat) (v : Word) (s : State) : Result := run dt (onBar (c2hAck chan v)) s
def execMbxCorePush (dt chan : Nat) (back : Bool) (w : Word) (s : State) : Result := run dt (live (corePush chan back w)) s
def execMbxCorePop (dt chan : Nat) (back : Bool) (s : State) : Result := run dt (live (corePop chan back)) s
def execMbxCoreAck (dt chan : Nat) (back : Bool) (v : Word) (s : State) : Result := run dt (live (coreAck chan back v)) s
def execMbxTimeout (dt chan : Nat) (back : Bool) (s : State) : Result := run dt (live (mbxTimeout chan back)) s
/-- The host reads over BAR0; a core, 1 to 4, does not. -/
def execMbxLockRead (dt lock reader : Nat) (s : State) : Result :=
  run dt (if reader = 0 then onRead (lockRead lock 0) else live fun s => if reader ≤ 4 then lockRead lock reader s else s) s
/-- The host writes over BAR0; a core, 1 to 4, does not. -/
def execMbxLockRelease (dt : Nat) (l : LockUse) (v : Word) (s : State) : Result :=
  run dt (if l.who = 0 then onBar (lockRelease l.lock v) else live fun s => if l.who ≤ 4 then lockRelease l.lock v s else s) s

end Sys2Proof.Machine
end

