-- ==== Sys2Proof/Machine/RunNet.lean ====
section
/-! DEFINITION. Commands of the Ethernet ports and of Ingest (R114 to R182). -/

namespace Sys2Proof.Machine

/-- Pause changes how EMIT tasks of ports are accounted (R52). -/
def execPortFrameReceive (dt port : Nat) (rx : RxIn) (s : State) : Result := run dt (onPort port fun s => portReceive port rx (accountEmits s)) s
def execTcEntryExpire (dt : Nat) (s : State) : Result := run dt (live tcExpire) s
def execPrpEntryForget (dt pair : Nat) (s : State) : Result := run dt (live (prpForget pair)) s
def execPauseTimerExpiry (dt port : Nat) (s : State) : Result := run dt (onPort port fun s => pauseExpiry port (accountEmits s)) s
def execPortFrameTransmit (dt port : Nat) (s : State) : Result := run dt (onPort port (transmitPort port)) s
def execLinkDown (dt port : Nat) (s : State) : Result := run dt (onPort port fun s => marksDue (linkDown port (accountEmits s))) s
/-- A port whose calibration failed stays down (R524). -/
def execLinkUp (dt port : Nat) (link : LinkIn) (s : State) : Result :=
  run dt (onPort port fun s => if s.sys.laneBad.testBit port then s else linkUp port link s) s
def execPreemptVerifyTimer (dt port : Nat) (s : State) : Result := run dt (onPort port (verifyTimer port)) s
def execLpiIdleTimer (dt port : Nat) (s : State) : Result := run dt (onPort port (lpiIdle port)) s
def execDsInterval (dt port : Nat) (s : State) : Result := run dt (onPort port fun s => marksDue (dsInterval port (accountEmits s))) s
def execDsEnableWrite (dt port : Nat) (v : Word) (s : State) : Result := run dt (onBar (onPort port fun s => marksDue (dsWrite port v (accountEmits s)))) s

def execIngestFrame (dt port : Nat) (spdu : Option Spdu) (s : State) : Result := run dt (onPort port (ingestFrame port spdu)) s
def execGooseTalExpiry (dt entry : Nat) (s : State) : Result := run dt (live (gooseTal entry)) s
def execIngFifoFlush (dt : Nat) (mask : Word) (s : State) : Result := run dt (onBar (ingFlush mask)) s
def execFlushDone (dt fifo : Nat) (s : State) : Result := run dt (live (flushDone fifo)) s

end Sys2Proof.Machine
end

