-- ==== Sys2Proof/Machine/RunPair.lean ====
section
/-! DEFINITION. Commands of the pair and the Yoke (R487 to R510). -/

namespace Sys2Proof.Machine

def execForceActive (dt : Nat) (v : Word) (s : State) : Result := run dt (onBar (forceActive v)) s
def execPairQueryTimeout (dt : Nat) (s : State) : Result := run dt (live queryTimeout) s
def execYokeUp (dt : Nat) (peer : PairHello) (s : State) : Result := run dt (live (yokeComesUp peer)) s
def execLaneDown (dt lane : Nat) (s : State) : Result := run dt (live fun s => if lane < 2 then laneDown lane s else s) s
def execLaneUp (dt lane : Nat) (s : State) : Result := run dt (live fun s => if lane < 2 ∧ laneGood lane s then laneUp lane s else s) s
def execYokeCrc (dt : Nat) (s : State) : Result := run dt (onYoke yokeCrc) s
def execYokeHeartbeatSend (dt : Nat) (s : State) : Result := run dt (live hbSend) s
def execYokeHeartbeatReceive (dt lane : Nat) (time : Int) (s : State) : Result :=
  run dt (onYoke fun s => if (lane = 0 ∧ s.pair.lane0) ∨ (lane = 1 ∧ s.pair.lane1) then hbReceive lane time s else s) s
def execYokeHeartbeatMissed (dt lane : Nat) (s : State) : Result := run dt (live fun s => if lane < 2 then hbMissed lane s else s) s
def execPeerFatal (dt : Nat) (s : State) : Result := run dt (onYoke peerFatal) s
def execPeerAttestReceive (dt : Nat) (a : PeerAttest) (s : State) : Result := run dt (onYoke (attestReceive a)) s
def execSnapshotReceive (dt : Nat) (x : Snapshot) (s : State) : Result := run dt (onYoke (snapshotReceive x)) s
def execSynced (dt : Nat) (s : State) : Result := run dt (live synced) s
def execSyncFail (dt : Nat) (s : State) : Result := run dt (live syncFail) s
def execJoinRetry (dt : Nat) (s : State) : Result := run dt (live joinRetry) s
def execCommitMarkReceive (dt : Nat) (m : CommitMark) (s : State) : Result := run dt (onYoke fun s => drainMirrored (settle (commitMarkReceive m s))) s
def execMarkMissing (dt : Nat) (s : State) : Result := run dt (onTick markMissing) s
def execEmitMarkReceive (dt seq : Nat) (s : State) : Result := run dt (onYoke (emitMarkReceive seq)) s
def execFrameMarkReceive (dt group stNum : Nat) (s : State) : Result := run dt (onYoke (frameMarkReceive group stNum)) s
def execInjectForwardReceive (dt id : Nat) (frame : List Byte) (s : State) : Result := run dt (onYoke (injectForward id frame)) s
def execMirrorCommandReceive (dt : Nat) (c : MirrorCmd) (s : State) : Result := run dt (onYoke (mirrorReceive c)) s
def execMirrorAckReceive (dt : Nat) (s : State) : Result := run dt (onYoke mirrorAck) s
def execMirrorFail (dt : Nat) (s : State) : Result := run dt (live mirrorFail) s
def execDigestReceive (dt : Nat) (m : DigestMsg) (s : State) : Result := run dt (onYoke (digestReceive m)) s
def execDigestTimeout (dt : Nat) (s : State) : Result := run dt (live digestTimeout) s
def execPairStateExchange (dt : Nat) (peer : PairHello) (s : State) : Result := run dt (onYoke (stateExchange peer)) s

end Sys2Proof.Machine
end

