-- ==== Sys2Proof/Machine/RunPower.lean ====
section
/-! DEFINITION. Commands of power, resets, the Key Store's registers and the always-on domain (R460, R479 to R481, R515 to R533). -/

namespace Sys2Proof.Machine

def execKstNonceRead (dt : Nat) (s : State) : Result := run dt (onRead nonceRead) s
def execKstTamperArm (dt : Nat) (v : Word) (s : State) : Result := run dt (onBar (tamperArm v)) s
def execKstTamperClr (dt : Nat) (v : Word) (s : State) : Result := run dt (onBar (tamperClr v)) s
def execTamperEvent (dt low : Nat) (s : State) : Result := run dt (tamperEvent low) s
/-- TAMPER_N counts as high after 4 AON cycles (R479). -/
def execTamperRestore (dt high : Nat) (s : State) : Result := run dt (fun s => if 4 ≤ high then tamperRestore s else s) s
def execRetentionLoss (dt : Nat) (s : State) : Result := run dt retentionLoss s
def execPowerOn (dt : Nat) (boot : BootIn) (s : State) : Result := run dt (powerOn boot) s
def execPowerLoss (dt : Nat) (cut : PowerCut) (s : State) : Result := run dt (powerLoss cut) s
def execResetN (dt low : Nat) (boot : BootIn) (s : State) : Result := run dt (resetPin low boot) s
def execSysReset (dt : Nat) (v : Word) (boot : BootIn) (s : State) : Result := run dt (sysResetWrite v boot) s
def execPerstN (dt : Nat) (linkWidth : LinkWidth) (linkSpeed : LinkSpeed) (s : State) : Result := run dt (perst linkWidth linkSpeed) s
def execSysTempUpdate (dt vin : Nat) (temp : Int) (s : State) : Result := run dt (tempUpdate vin temp) s

end Sys2Proof.Machine
end

