-- ==== Sys2Proof/Machine/RunTick.lean ====
section
/-! DEFINITION. Commands of the tick: the Churn, the Helm, the engines, EMIT, grid-edge aggregation, checkpoints (R38 to R73, R186 to R330, R442). -/

namespace Sys2Proof.Machine

/-- TICK_BOUNDARY: Φ follows disciplined time while values are placed (R193). -/
def tickBoundary (s : State) : State := if s.aln.placing then advanceFront s else s

def execTickBoundary (dt : Nat) (s : State) : Result := run dt (live tickBoundary) s
def execPacketPlace (dt : Nat) (ecc : Bool) (s : State) : Result := run dt (onRecovery (packetPlace ecc)) s
/-- A follower uses a mark that R40 held back. -/
def execTickCommit (dt : Nat) (s : State) : Result := run dt (onRecovery tickCommit) s
def execTickFinal (dt : Nat) (s : State) : Result := run dt (onTick finalizeDue) s
def execHelmProjection (dt : Nat) (s : State) : Result := run dt (onTick projection) s
def execDelayListExpiry (dt : Nat) (s : State) : Result := run dt (onTick delayExpiry) s
def execDfcCommitTaskComplete (dt group : Nat) (s : State) : Result := run dt (onTick (dfcComplete group)) s
def execSepTaskComplete (dt : Nat) (s : State) : Result := run dt (onTick sepComplete) s
def execLseSolveComplete (dt : Nat) (upset : Bool) (s : State) : Result := run dt (onTick (solveComplete upset)) s
def execLseAnalyzeComplete (dt : Nat) (s : State) : Result := run dt (onTick analyzeComplete) s
def execOsmUpdateComplete (dt set : Nat) (s : State) : Result := run dt (onTick (osmComplete set)) s
def execOsmLocationComplete (dt : Nat) (s : State) : Result := run dt (onTick locComplete) s
def execOsmDeferredUpdate (dt set : Nat) (s : State) : Result := run dt (onTick (osmDeferComplete set)) s
def execEmitComplete (dt : Nat) (port : Option Nat) (s : State) : Result := run dt (onTick (emitComplete port)) s
def execResolveAComplete (dt g : Nat) (upset : Bool) (s : State) : Result := run dt (onTick (resolveAComplete g upset)) s
def execResolveBComplete (dt g : Nat) (s : State) : Result := run dt (onTick (resolveBComplete g)) s
def execGeBucketClose (dt : Nat) (s : State) : Result := run dt (onTick geBucketClose) s
def execGeAggregation (dt : Nat) (s : State) : Result := run dt (onTick geAggTask) s
def execCheckpointDeadline (dt : Nat) (s : State) : Result := run dt (onTick checkpointDeadline) s
def execCheckpointDrainComplete (dt : Nat) (s : State) : Result := run dt (live checkpointDone) s

end Sys2Proof.Machine
end

