-- ==== Sys2Proof/Machine/RunTime.lean ====
section
/-! DEFINITION. Commands of the Sextant (R74 to R110, R481). -/

namespace Sys2Proof.Machine

/-- A Sync or Follow_Up serves the domain whose PORT_MASK and DOMAIN_NUMBER take it. -/
def execPtpSyncReceive (dt : Nat) (m : SyncIn) (s : State) : Result :=
  run dt (onTick (withStep fun s =>
    syncFor .b m.port m.num m.source m.seq m.twoStep m.t1 m.corr m.logInt
      (syncFor .a m.port m.num m.source m.seq m.twoStep m.t1 m.corr m.logInt s))) s
def execPtpFollowUpReceive (dt : Nat) (m : FollowUpIn) (s : State) : Result :=
  run dt (onTick (withStep fun s =>
    followUpFor .b m.port m.num m.source m.seq m.t1 m.corr (followUpFor .a m.port m.num m.source m.seq m.t1 m.corr s))) s
def execPtpAnnounceReceive (dt port num : Nat) (m : Announce) (s : State) : Result :=
  run dt (onPort port fun s => leapUpdate (announceFor .b port num m (announceFor .a port num m s))) s
def execPdelayReceive (dt port : Nat) (m : PdelayIn) (s : State) : Result := run dt (onPort port (pdelayReceive port m)) s
def execPdelayRequestTimer (dt port : Nat) (s : State) : Result := run dt (onPort port (pdelayRequest port)) s
def execAnnounceTimeout (dt : Nat) (dom : DomId) (s : State) : Result := run dt (live (announceTimeout dom)) s
def execSyncTimeout (dt : Nat) (dom : DomId) (s : State) : Result := run dt (live (syncTimeout dom)) s
def execHoldoverLimit (dt : Nat) (s : State) : Result := run dt (live (evalSuspect false false)) s
def execPpsInEdge (dt : Nat) (s : State) : Result := run dt (live ppsInEdge) s
def execPpsInLost (dt : Nat) (s : State) : Result := run dt (live ppsInLost) s
def execPpsOutSecond (dt : Nat) (s : State) : Result := run dt (live ppsOutSecond) s
def execPpsOutFall (dt : Nat) (s : State) : Result := run dt (live ppsOutFall) s
def execTbuSnap (dt : Nat) (v : Word) (s : State) : Result := run dt (onBar (tbuSnap v)) s
def execTbuCtrlWrite (dt : Nat) (v : Word) (s : State) : Result := run dt (onBar (writeTbuCtrl v)) s
def execTbuDcfgWrite (dt : Nat) (dom : DomId) (v : Word) (s : State) : Result := run dt (onBar (putDcfg dom v)) s
def execRtcUpdate (dt : Nat) (s : State) : Result := run dt (live rtcUpdate) s

end Sys2Proof.Machine
end

