-- ==== Sys2Proof/Machine/Dispatch.lean ====
section
/-! DEFINITION. One arm for each command: a direct call of its meaning. -/

namespace Sys2Proof.Machine

def exec (i : Instr) (s : State) : Host.Outcome State Fault Refusal :=
  match i with
  | .nop dt d => Sys2Proof.Machine.execNop dt d s
  | .configLoad dt d list image => Sys2Proof.Machine.execConfigLoad dt d list image s
  | .start dt d => Sys2Proof.Machine.execStart dt d s
  | .configLock dt d => Sys2Proof.Machine.execConfigLock dt d s
  | .maintEnter dt d => Sys2Proof.Machine.execMaintEnter dt d s
  | .maintExit dt d => Sys2Proof.Machine.execMaintExit dt d s
  | .unconfigure dt d => Sys2Proof.Machine.execUnconfigure dt d s
  | .fwLoad dt d list image => Sys2Proof.Machine.execFwLoad dt d list image s
  | .step dt d => Sys2Proof.Machine.execStep dt d s
  | .dfcCoefLoad dt d words => Sys2Proof.Machine.execDfcCoefLoad dt d words s
  | .logClear dt d => Sys2Proof.Machine.execLogClear dt d s
  | .logExport dt d => Sys2Proof.Machine.execLogExport dt d s
  | .keyGenerate dt d cellErr => Sys2Proof.Machine.execKeyGenerate dt d cellErr s
  | .keyImport dt d blob => Sys2Proof.Machine.execKeyImport dt d blob s
  | .keyRoll dt d blob cellErr => Sys2Proof.Machine.execKeyRoll dt d blob cellErr s
  | .keyRevoke dt d => Sys2Proof.Machine.execKeyRevoke dt d s
  | .lifecycle dt d sig aux => Sys2Proof.Machine.execLifecycle dt d sig aux s
  | .attest dt d challenge => Sys2Proof.Machine.execAttest dt d challenge s
  | .pairSwitchover dt d => Sys2Proof.Machine.execPairSwitchover dt d s
  | .inject dt d frame => Sys2Proof.Machine.execInject dt d frame s
  | .tailDoorbell dt a v => Sys2Proof.Machine.execTailDoorbell dt a v s
  | .headDoorbell dt a v => Sys2Proof.Machine.execHeadDoorbell dt a v s
  | .ringEnable dt ring v => Sys2Proof.Machine.execRingEnable dt ring v s
  | .ringDisable dt ring v => Sys2Proof.Machine.execRingDisable dt ring v s
  | .recordDeadline dt ring => Sys2Proof.Machine.execRecordDeadline dt ring s
  | .irqCoalTimer dt ring => Sys2Proof.Machine.execIrqCoalTimer dt ring s
  | .busMasterEnableChange dt bme msix dev => Sys2Proof.Machine.execBusMasterEnableChange dt bme msix dev s
  | .powerStateChange dt d3hot => Sys2Proof.Machine.execPowerStateChange dt d3hot s
  | .registerWrite dt a v => Sys2Proof.Machine.execRegisterWrite dt a v s
  | .registerReadClear dt r => Sys2Proof.Machine.execRegisterReadClear dt r s
  | .latchedWordRead dt r => Sys2Proof.Machine.execLatchedWordRead dt r s
  | .portFrameReceive dt port rx => Sys2Proof.Machine.execPortFrameReceive dt port rx s
  | .tcEntryExpire dt => Sys2Proof.Machine.execTcEntryExpire dt s
  | .prpEntryForget dt pair => Sys2Proof.Machine.execPrpEntryForget dt pair s
  | .pauseTimerExpiry dt port => Sys2Proof.Machine.execPauseTimerExpiry dt port s
  | .portFrameTransmit dt port => Sys2Proof.Machine.execPortFrameTransmit dt port s
  | .linkDown dt port => Sys2Proof.Machine.execLinkDown dt port s
  | .linkUp dt port link => Sys2Proof.Machine.execLinkUp dt port link s
  | .preemptVerifyTimer dt port => Sys2Proof.Machine.execPreemptVerifyTimer dt port s
  | .lpiIdleTimer dt port => Sys2Proof.Machine.execLpiIdleTimer dt port s
  | .dsInterval dt port => Sys2Proof.Machine.execDsInterval dt port s
  | .dsEnableWrite dt port v => Sys2Proof.Machine.execDsEnableWrite dt port v s
  | .ptpSyncReceive dt m => Sys2Proof.Machine.execPtpSyncReceive dt m s
  | .ptpFollowUpReceive dt m => Sys2Proof.Machine.execPtpFollowUpReceive dt m s
  | .ptpAnnounceReceive dt port num m => Sys2Proof.Machine.execPtpAnnounceReceive dt port num m s
  | .pdelayReceive dt port m => Sys2Proof.Machine.execPdelayReceive dt port m s
  | .pdelayRequestTimer dt port => Sys2Proof.Machine.execPdelayRequestTimer dt port s
  | .announceTimeout dt dom => Sys2Proof.Machine.execAnnounceTimeout dt dom s
  | .syncTimeout dt dom => Sys2Proof.Machine.execSyncTimeout dt dom s
  | .holdoverLimit dt => Sys2Proof.Machine.execHoldoverLimit dt s
  | .ppsInEdge dt => Sys2Proof.Machine.execPpsInEdge dt s
  | .ppsInLost dt => Sys2Proof.Machine.execPpsInLost dt s
  | .ppsOutSecond dt => Sys2Proof.Machine.execPpsOutSecond dt s
  | .tbuSnap dt v => Sys2Proof.Machine.execTbuSnap dt v s
  | .tbuCtrlWrite dt v => Sys2Proof.Machine.execTbuCtrlWrite dt v s
  | .tbuDcfgWrite dt dom v => Sys2Proof.Machine.execTbuDcfgWrite dt dom v s
  | .rtcUpdate dt => Sys2Proof.Machine.execRtcUpdate dt s
  | .tickBoundary dt => Sys2Proof.Machine.execTickBoundary dt s
  | .ingestFrame dt port spdu => Sys2Proof.Machine.execIngestFrame dt port spdu s
  | .gooseTalExpiry dt entry => Sys2Proof.Machine.execGooseTalExpiry dt entry s
  | .ingFifoFlush dt mask => Sys2Proof.Machine.execIngFifoFlush dt mask s
  | .flushDone dt fifo => Sys2Proof.Machine.execFlushDone dt fifo s
  | .packetPlace dt ecc => Sys2Proof.Machine.execPacketPlace dt ecc s
  | .tickCommit dt => Sys2Proof.Machine.execTickCommit dt s
  | .tickFinal dt => Sys2Proof.Machine.execTickFinal dt s
  | .helmProjection dt => Sys2Proof.Machine.execHelmProjection dt s
  | .delayListExpiry dt => Sys2Proof.Machine.execDelayListExpiry dt s
  | .dfcCommitTaskComplete dt group => Sys2Proof.Machine.execDfcCommitTaskComplete dt group s
  | .sepTaskComplete dt => Sys2Proof.Machine.execSepTaskComplete dt s
  | .lseSolveComplete dt upset => Sys2Proof.Machine.execLseSolveComplete dt upset s
  | .lseAnalyzeComplete dt => Sys2Proof.Machine.execLseAnalyzeComplete dt s
  | .osmUpdateComplete dt set => Sys2Proof.Machine.execOsmUpdateComplete dt set s
  | .osmLocationComplete dt => Sys2Proof.Machine.execOsmLocationComplete dt s
  | .osmDeferredUpdate dt set => Sys2Proof.Machine.execOsmDeferredUpdate dt set s
  | .emitComplete dt port => Sys2Proof.Machine.execEmitComplete dt port s
  | .resolveAComplete dt g upset => Sys2Proof.Machine.execResolveAComplete dt g upset s
  | .resolveBComplete dt g => Sys2Proof.Machine.execResolveBComplete dt g s
  | .geBucketClose dt => Sys2Proof.Machine.execGeBucketClose dt s
  | .geAggregation dt => Sys2Proof.Machine.execGeAggregation dt s
  | .checkpointDeadline dt => Sys2Proof.Machine.execCheckpointDeadline dt s
  | .pinFollowExpiry dt pin => Sys2Proof.Machine.execPinFollowExpiry dt pin s
  | .almReadbackSample dt pin level => Sys2Proof.Machine.execAlmReadbackSample dt pin level s
  | .alaPinClear dt mask => Sys2Proof.Machine.execAlaPinClear dt mask s
  | .alarmFrameRetx dt group => Sys2Proof.Machine.execAlarmFrameRetx dt group s
  | .faultDetected dt x => Sys2Proof.Machine.execFaultDetected dt x s
  | .restartComplete dt domain => Sys2Proof.Machine.execRestartComplete dt domain s
  | .replayBudgetExpiry dt => Sys2Proof.Machine.execReplayBudgetExpiry dt s
  | .faultNMinExpiry dt => Sys2Proof.Machine.execFaultNMinExpiry dt s
  | .faultConditionCleared dt code domain => Sys2Proof.Machine.execFaultConditionCleared dt code domain s
  | .faultnRelease dt => Sys2Proof.Machine.execFaultnRelease dt s
  | .firstClr dt => Sys2Proof.Machine.execFirstClr dt s
  | .fltInject dt v => Sys2Proof.Machine.execFltInject dt v s
  | .heartbeat dt who => Sys2Proof.Machine.execHeartbeat dt who s
  | .commitWatchdog dt => Sys2Proof.Machine.execCommitWatchdog dt s
  | .phaseMark dt => Sys2Proof.Machine.execPhaseMark dt s
  | .timeClockWindow dt => Sys2Proof.Machine.execTimeClockWindow dt s
  | .swmSelftest dt comparators heartbeats => Sys2Proof.Machine.execSwmSelftest dt comparators heartbeats s
  | .fwWatchdog dt core => Sys2Proof.Machine.execFwWatchdog dt core s
  | .sramScrubPass dt errors => Sys2Proof.Machine.execSramScrubPass dt errors s
  | .logRecordWrite dt => Sys2Proof.Machine.execLogRecordWrite dt s
  | .mbxH2cWrite dt chan w => Sys2Proof.Machine.execMbxH2cWrite dt chan w s
  | .mbxC2hRead dt chan => Sys2Proof.Machine.execMbxC2hRead dt chan s
  | .mbxC2hAck dt chan v => Sys2Proof.Machine.execMbxC2hAck dt chan v s
  | .mbxCorePush dt chan back w => Sys2Proof.Machine.execMbxCorePush dt chan back w s
  | .mbxCoreAck dt chan back v => Sys2Proof.Machine.execMbxCoreAck dt chan back v s
  | .mbxTimeout dt chan back => Sys2Proof.Machine.execMbxTimeout dt chan back s
  | .mbxLockRead dt lock reader => Sys2Proof.Machine.execMbxLockRead dt lock reader s
  | .mbxLockRelease dt l v => Sys2Proof.Machine.execMbxLockRelease dt l v s
  | .kstNonceRead dt => Sys2Proof.Machine.execKstNonceRead dt s
  | .kstTamperArm dt v => Sys2Proof.Machine.execKstTamperArm dt v s
  | .kstTamperClr dt v => Sys2Proof.Machine.execKstTamperClr dt v s
  | .tamperEvent dt low => Sys2Proof.Machine.execTamperEvent dt low s
  | .tamperRestore dt high => Sys2Proof.Machine.execTamperRestore dt high s
  | .powerOn dt boot => Sys2Proof.Machine.execPowerOn dt boot s
  | .powerLoss dt cut => Sys2Proof.Machine.execPowerLoss dt cut s
  | .resetN dt low boot => Sys2Proof.Machine.execResetN dt low boot s
  | .sysReset dt v boot => Sys2Proof.Machine.execSysReset dt v boot s
  | .perstN dt linkWidth linkSpeed => Sys2Proof.Machine.execPerstN dt linkWidth linkSpeed s
  | .forceActive dt v => Sys2Proof.Machine.execForceActive dt v s
  | .pairQueryTimeout dt => Sys2Proof.Machine.execPairQueryTimeout dt s
  | .yokeUp dt peer => Sys2Proof.Machine.execYokeUp dt peer s
  | .laneDown dt lane => Sys2Proof.Machine.execLaneDown dt lane s
  | .yokeCrc dt => Sys2Proof.Machine.execYokeCrc dt s
  | .yokeHeartbeatSend dt => Sys2Proof.Machine.execYokeHeartbeatSend dt s
  | .yokeHeartbeatMissed dt lane => Sys2Proof.Machine.execYokeHeartbeatMissed dt lane s
  | .peerFatal dt => Sys2Proof.Machine.execPeerFatal dt s
  | .peerAttestReceive dt a => Sys2Proof.Machine.execPeerAttestReceive dt a s
  | .snapshotReceive dt x => Sys2Proof.Machine.execSnapshotReceive dt x s
  | .synced dt => Sys2Proof.Machine.execSynced dt s
  | .syncFail dt => Sys2Proof.Machine.execSyncFail dt s
  | .joinRetry dt => Sys2Proof.Machine.execJoinRetry dt s
  | .commitMarkReceive dt m => Sys2Proof.Machine.execCommitMarkReceive dt m s
  | .markMissing dt => Sys2Proof.Machine.execMarkMissing dt s
  | .emitMarkReceive dt seq => Sys2Proof.Machine.execEmitMarkReceive dt seq s
  | .frameMarkReceive dt group stNum => Sys2Proof.Machine.execFrameMarkReceive dt group stNum s
  | .injectForwardReceive dt id frame => Sys2Proof.Machine.execInjectForwardReceive dt id frame s
  | .mirrorCommandReceive dt c => Sys2Proof.Machine.execMirrorCommandReceive dt c s
  | .mirrorAckReceive dt => Sys2Proof.Machine.execMirrorAckReceive dt s
  | .mirrorFail dt => Sys2Proof.Machine.execMirrorFail dt s
  | .digestReceive dt m => Sys2Proof.Machine.execDigestReceive dt m s
  | .digestTimeout dt => Sys2Proof.Machine.execDigestTimeout dt s
  | .ppsOutFall dt => Sys2Proof.Machine.execPpsOutFall dt s
  | .laneUp dt lane => Sys2Proof.Machine.execLaneUp dt lane s
  | .yokeHeartbeatReceive dt lane time => Sys2Proof.Machine.execYokeHeartbeatReceive dt lane time s
  | .pairStateExchange dt peer => Sys2Proof.Machine.execPairStateExchange dt peer s
  | .mbxCorePop dt chan back => Sys2Proof.Machine.execMbxCorePop dt chan back s
  | .retentionLoss dt => Sys2Proof.Machine.execRetentionLoss dt s
  | .checkpointDrainComplete dt => Sys2Proof.Machine.execCheckpointDrainComplete dt s
  | .msixUnmask dt vector => Sys2Proof.Machine.execMsixUnmask dt vector s
  | .sysTempUpdate dt vin temp => Sys2Proof.Machine.execSysTempUpdate dt vin temp s

end Sys2Proof.Machine
end

