-- ==== Sys2Proof/WellFormed.lean ====
section
/-! DEFINITION. The shape checks of commands: operands that name a thing the module has. Every meaning is total; an ill-formed command is one
that no host, bus or pin can send. -/

namespace Sys2Proof

/-- The opcodes of R374. -/
def listedOpcodes : List Nat :=
  [0x00, 0x01, 0x02, 0x03, 0x04, 0x05, 0x06, 0x07, 0x10, 0x20, 0x30, 0x31, 0x40, 0x41, 0x42, 0x43, 0x44, 0x45, 0x50, 0x60]

/-- An opcode read from a descriptor has 8 bits, and is unknown only where R374 does not list it. -/
def DescRead.wellFormed : DescRead → Bool
  | .unknown op => decide (op < 256) && !(listedOpcodes.contains op)
  | _ => true

/-- A descriptor's fields keep to their widths (R372), and its ring exists (R357). -/
def Desc.wellFormed (d : Desc) : Bool :=
  d.read.wellFormed && decide (d.ring < 64) && decide (d.schedSec < 2 ^ 48) && decide (d.schedNs < 2 ^ 32)

/-- A step with a code that R524 gives it. -/
def failWellFormed (x : Nat × Nat) : Bool :=
  [(1, 1), (3, 2), (2, 3), (4, 4), (5, 5), (6, 6), (7, 6), (9, 7), (2, 8), (8, 8)].contains x ||
    (decide (2 ≤ x.1) && decide (x.1 ≤ 9) && x.2 = 9)

/-- What a start-up meets (R392, R520 to R524). -/
def BootIn.wellFormed (b : BootIn) : Bool :=
  decide (b.mode < 4) && (match b.fail with | none => true | some x => failWellFormed x) &&
    decide (b.laneBad < 64) && decide (b.bankBad < 4) && decide (b.macs.length = 4) &&
    b.macs.all fun m => decide (m < 2 ^ 48)

/-- A bit of a fault's description: its code has 8 bits and its domain is one of R427. -/
def FaultIn.wellFormed (x : FaultIn) : Bool := decide (x.code < 256) && decide (x.domain < 16)

/-- An access of 8 to 64 bits within a BAR (R351, R355). -/
def Access.wellFormed (size : Nat) (a : Access) : Bool := [8, 16, 32, 64].contains a.bits && decide (a.off < size)

/-- A read within its BAR. -/
def BarRead.wellFormed (r : BarRead) : Bool := r.at_.wellFormed (if r.bar2 then 0x10000 else 0x100000)

/-- Sizes that the function supports (R351). -/
def DevCtl.wellFormed (c : DevCtl) : Bool := [128, 256, 512].contains c.payload && [128, 256, 512, 1024, 2048, 4096].contains c.readReq

/-- The channel of a mailbox among the 14. -/
def chanWellFormed (c : Nat) : Bool := decide (c < 14)

/-- The shape of a command. -/
def Instr.wellFormed : Instr → Bool
  | .nop _ d => d.wellFormed
  | .configLoad _ d _ _ => d.wellFormed
  | .start _ d => d.wellFormed
  | .configLock _ d => d.wellFormed
  | .maintEnter _ d => d.wellFormed
  | .maintExit _ d => d.wellFormed
  | .unconfigure _ d => d.wellFormed
  | .fwLoad _ d _ _ => d.wellFormed
  | .step _ d => d.wellFormed
  | .dfcCoefLoad _ d _ => d.wellFormed
  | .logClear _ d => d.wellFormed
  | .logExport _ d => d.wellFormed
  | .keyGenerate _ d _ => d.wellFormed
  | .keyImport _ d _ => d.wellFormed
  | .keyRoll _ d _ _ => d.wellFormed
  | .keyRevoke _ d => d.wellFormed
  | .lifecycle _ d _ _ => d.wellFormed
  | .attest _ d _ => d.wellFormed
  | .pairSwitchover _ d => d.wellFormed
  | .inject _ d _ => d.wellFormed
  | .tailDoorbell _ a _ => a.wellFormed 0x10000
  | .headDoorbell _ a _ => a.wellFormed 0x10000
  | .ringEnable _ n _ => decide (n < 64)
  | .ringDisable _ n _ => decide (n < 64)
  | .recordDeadline _ n => decide (n < 64)
  | .irqCoalTimer _ n => decide (n < 64)
  | .busMasterEnableChange _ _ _ c => c.wellFormed
  | .powerStateChange _ _ => true
  | .registerWrite _ a _ => a.wellFormed 0x100000
  | .registerReadClear _ r => r.wellFormed
  | .latchedWordRead _ r => r.wellFormed
  | .portFrameReceive _ p _ => decide (p < 4)
  | .tcEntryExpire _ => true
  | .prpEntryForget _ n => decide (n < 2)
  | .pauseTimerExpiry _ p => decide (p < 4)
  | .portFrameTransmit _ p => decide (p < 4)
  | .linkDown _ p => decide (p < 4)
  | .linkUp _ p _ => decide (p < 4)
  | .preemptVerifyTimer _ p => decide (p < 4)
  | .lpiIdleTimer _ p => decide (p < 4)
  | .dsInterval _ p => decide (p < 4)
  | .dsEnableWrite _ p _ => decide (p < 4)
  | .ptpSyncReceive _ m => decide (m.port < 4) && decide (m.num < 256)
  | .ptpFollowUpReceive _ m => decide (m.port < 4) && decide (m.num < 256)
  | .ptpAnnounceReceive _ p n _ => decide (p < 4) && decide (n < 256)
  | .pdelayReceive _ p _ => decide (p < 4)
  | .pdelayRequestTimer _ p => decide (p < 4)
  | .announceTimeout _ _ => true
  | .syncTimeout _ _ => true
  | .holdoverLimit _ => true
  | .ppsInEdge _ => true
  | .ppsInLost _ => true
  | .ppsOutSecond _ => true
  | .tbuSnap _ _ => true
  | .tbuCtrlWrite _ _ => true
  | .tbuDcfgWrite _ _ _ => true
  | .rtcUpdate _ => true
  | .tickBoundary _ => true
  | .ingestFrame _ p _ => decide (p < 4)
  | .gooseTalExpiry _ e => decide (e < 16384)
  | .ingFifoFlush _ _ => true
  | .flushDone _ f => decide (f < 16)
  | .packetPlace _ _ => true
  | .tickCommit _ => true
  | .tickFinal _ => true
  | .helmProjection _ => true
  | .delayListExpiry _ => true
  | .dfcCommitTaskComplete _ g => decide (g < 16)
  | .sepTaskComplete _ => true
  | .lseSolveComplete _ _ => true
  | .lseAnalyzeComplete _ => true
  | .osmUpdateComplete _ n => decide (n < 8)
  | .osmLocationComplete _ => true
  | .osmDeferredUpdate _ n => decide (n ≤ 8)
  | .emitComplete _ p => match p with | none => true | some p => decide (p < 4)
  | .resolveAComplete _ _ _ => true
  | .resolveBComplete _ _ => true
  | .geBucketClose _ => true
  | .geAggregation _ => true
  | .checkpointDeadline _ => true
  | .pinFollowExpiry _ p => decide (p < 8)
  | .almReadbackSample _ p _ => decide (p < 8)
  | .alaPinClear _ _ => true
  | .alarmFrameRetx _ g => decide (g < 8)
  | .faultDetected _ x => x.wellFormed
  | .restartComplete _ d => decide (d < 16)
  | .replayBudgetExpiry _ => true
  | .faultNMinExpiry _ => true
  | .faultConditionCleared _ c d => decide (c < 256) && decide (d < 16)
  | .faultnRelease _ => true
  | .firstClr _ => true
  | .fltInject _ _ => true
  | .heartbeat _ w => decide (w < 3)
  | .commitWatchdog _ => true
  | .phaseMark _ => true
  | .timeClockWindow _ => true
  | .swmSelftest _ _ _ => true
  | .fwWatchdog _ c => decide (c < 4)
  | .sramScrubPass _ es => es.all FaultIn.wellFormed
  | .logRecordWrite _ => true
  | .mbxH2cWrite _ c _ => decide (c < 4)
  | .mbxC2hRead _ c => decide (c < 4)
  | .mbxC2hAck _ c _ => decide (c < 4)
  | .mbxCorePush _ c _ _ => chanWellFormed c
  | .mbxCoreAck _ c _ _ => chanWellFormed c
  | .mbxTimeout _ c _ => chanWellFormed c
  | .mbxLockRead _ l r => decide (l < 16) && decide (r ≤ 4)
  | .mbxLockRelease _ l _ => decide (l.lock < 16 ∧ l.who < 5)
  | .kstNonceRead _ => true
  | .kstTamperArm _ _ => true
  | .kstTamperClr _ _ => true
  | .tamperEvent _ _ => true
  | .tamperRestore _ _ => true
  | .powerOn _ b => b.wellFormed
  | .powerLoss _ c => match c with | .key n => decide (n < 64) | _ => true
  | .resetN _ _ b => b.wellFormed
  | .sysReset _ _ b => b.wellFormed
  | .perstN _ _ _ => true
  | .forceActive _ _ => true
  | .pairQueryTimeout _ => true
  | .yokeUp _ _ => true
  | .laneDown _ l => decide (l < 2)
  | .yokeCrc _ => true
  | .yokeHeartbeatSend _ => true
  | .yokeHeartbeatMissed _ l => decide (l < 2)
  | .peerFatal _ => true
  | .peerAttestReceive _ _ => true
  | .snapshotReceive _ _ => true
  | .synced _ => true
  | .syncFail _ => true
  | .joinRetry _ => true
  | .commitMarkReceive _ _ => true
  | .markMissing _ => true
  | .emitMarkReceive _ _ => true
  | .frameMarkReceive _ g _ => decide (g < 8)
  | .injectForwardReceive _ _ _ => true
  | .mirrorCommandReceive _ _ => true
  | .mirrorAckReceive _ => true
  | .mirrorFail _ => true
  | .digestReceive _ _ => true
  | .digestTimeout _ => true
  | .ppsOutFall _ => true
  | .laneUp _ l => decide (l < 2)
  | .yokeHeartbeatReceive _ l _ => decide (l < 2)
  | .pairStateExchange _ _ => true
  | .mbxCorePop _ c _ => chanWellFormed c
  | .retentionLoss _ => true
  | .checkpointDrainComplete _ => true
  | .msixUnmask _ v => decide (v < 64)
  | .sysTempUpdate _ v t => decide (v < 65536) && decide (-32768 ≤ t) && decide (t < 32768)

end Sys2Proof
end

