-- ==== Sys2Proof/Safety.lean ====
section
/-! DEFINITION. The terms in which statements speak of a safe run: what the state of a module always looks like, what no command changes, and
when a command at the head of a ring runs. -/

namespace Sys2Proof.Machine

/-- Lengths of the state's fixed arrays. -/
structure Sizes where
  rings : Nat
  msix  : Nat
  ports : Nat
  fifos : Nat
  pins  : Nat
  chans : Nat
  locks : Nat
  slots : Nat
  deriving DecidableEq, Repr

def State.sizes (s : State) : Sizes :=
  { rings := s.hif.rings.length, msix := s.hif.msix.length, ports := s.net.ports.length, fifos := s.ing.fifos.length,
    pins := s.ala.pins.length, chans := s.mbx.chans.length, locks := s.mbx.locks.length, slots := s.kst.slots.length }

/-- 64 rings with 256 words of MSI-X table, 4 ports, 16 FIFOs, 8 balls, 14 mailbox channels, 16 locks, 64 key slots
(R116, R163, R340, R357, R387, R396, R406, R463). -/
def Sizes.full : Sizes := { rings := 64, msix := 256, ports := 4, fifos := 16, pins := 8, chans := 14, locks := 16, slots := 64 }

/-- The arrays have the lengths the spec gives them. -/
def Shaped (s : State) : Prop := s.sizes = Sizes.full

/-- What only time, power, resets, the bus's configuration and life-cycle transitions change, with the queue, which no command changes. -/
structure Fixed where
  powered  : Bool
  ready    : Bool
  inInit   : Bool
  sizes    : Sizes
  lc       : List (Nat × List Byte)
  minSvn   : Nat
  free     : Nat
  running  : Bool
  bme      : Bool
  d3hot    : Bool
  msixEn   : Bool
  msixMask : Bool
  aon      : Nat
  pending  : List Instr
  deriving DecidableEq, Repr

def State.fixed (s : State) : Fixed :=
  { powered := s.sys.powered, ready := s.sys.ready, inInit := decide (s.sys.runState = .init), sizes := s.sizes, lc := s.kst.lc,
    minSvn := s.kst.minSvn, free := s.tbu.free, running := s.tbu.running, bme := s.hif.bme, d3hot := s.hif.d3hot, msixEn := s.hif.msixEn,
    msixMask := s.hif.msixMask, aon := s.sys.aon, pending := s.pending }

/-- The run state, as lemmas carry it. -/
structure Course where
  run : RunState
  deriving DecidableEq, Repr

def State.course (s : State) : Course := { run := s.sys.runState }

/-- READY is set exactly outside INIT, and only a module with power has it (R32, R517, R523). -/
def ModeOk (s : State) : Prop :=
  (s.sys.ready = true ↔ s.sys.runState ≠ .init) ∧ (s.sys.ready = true → s.sys.powered = true)

/-- Life-cycle records, the oldest first, follow one another by transitions that R459 allows. -/
def LcChain : List (Nat × List Byte) → Prop
  | [] => True
  | [_] => True
  | x :: y :: r => (lcAuth x.1 y.1).isSome ∧ LcChain (y :: r)

/-- The life-cycle log: BLANK first, allowed transitions, at most 32 records, and the last of them DECOMMISSIONED (R459). -/
def LcOk (l : List (Nat × List Byte)) : Prop :=
  l.head? = some (0, []) ∧ LcChain l ∧ l.length ≤ 32 ∧ (l.length = 32 → (l.getLast?.map Prod.fst) = some 4)

/-- The invariant of every reachable state. -/
def Inv (s : State) : Prop := Shaped s ∧ ModeOk s ∧ LcOk s.kst.lc

/-- A reset source that restarts the module, or loss of power (R525). -/
def restarts : Instr → Bool
  | .powerOn _ _ => true
  | .powerLoss _ _ => true
  | .resetN _ _ _ => true
  | .sysReset _ _ _ => true
  | _ => false

/-- Rows that act on a module that is not READY: power, resets, the bus, the always-on domain. -/
def actsBeforeReady : Instr → Bool
  | .powerOn _ _ => true
  | .powerLoss _ _ => true
  | .resetN _ _ _ => true
  | .perstN _ _ _ => true
  | .tamperEvent _ _ => true
  | .tamperRestore _ _ => true
  | .retentionLoss _ => true
  | .busMasterEnableChange _ _ _ _ => true
  | .powerStateChange _ _ => true
  | .sysTempUpdate _ _ _ => true
  | _ => false

/-- A descriptor at the head of its ring is read, passes R375 up to its parameters, and runs. -/
def CanRun (o : Opcode) (d : Desc) (s : State) : Prop :=
  s.sys.ready = true ∧ headWaits s d.ring = true ∧ complFree s d.ring = true ∧ d.read = .good ∧ judgeHead o d s = none

/-- The ring commands that R375 alone refuses: opcode, time passed, descriptor. -/
def plainHead : Instr → Option (Opcode × Nat × Desc)
  | .nop dt d => some (.nop, dt, d)
  | .configLoad dt d _ _ => some (.configLoad, dt, d)
  | .start dt d => some (.start, dt, d)
  | .configLock dt d => some (.configLock, dt, d)
  | .maintExit dt d => some (.maintExit, dt, d)
  | .unconfigure dt d => some (.unconfigure, dt, d)
  | .fwLoad dt d _ _ => some (.fwLoad, dt, d)
  | .logClear dt d => some (.logClear, dt, d)
  | .logExport dt d => some (.logExport, dt, d)
  | .keyGenerate dt d _ => some (.keyGenerate, dt, d)
  | .keyImport dt d _ => some (.keyImport, dt, d)
  | .keyRoll dt d _ _ => some (.keyRoll, dt, d)
  | .keyRevoke dt d => some (.keyRevoke, dt, d)
  | .lifecycle dt d _ _ => some (.lifecycle, dt, d)
  | .attest dt d _ => some (.attest, dt, d)
  | .pairSwitchover dt d => some (.pairSwitchover, dt, d)
  | _ => none

/-- `t` is `s` but for the host interface and what left the module. -/
def OnlyHost (s t : State) : Prop := t = { s with hif := t.hif, out := t.out }

/-- `t` is `s` but for the ports, the host interface and what left the module. -/
def OnlyPorts (s t : State) : Prop := t = { s with net := t.net, hif := t.hif, out := t.out }

/-- `t` is `s` but for the Sextant, the Logbook's intake, the host interface, the free values drawn and what left the module. -/
def OnlyTime (s t : State) : Prop := t = { s with tbu := t.tbu, log := t.log, hif := t.hif, freeCtr := t.freeCtr, out := t.out }

/-- `t` is `s` but for Ingest, status points, grid-edge reports, the journal, fault counters, the ports, the host interface and what left the
module. -/
def OnlyIngest (s t : State) : Prop := t = { s with
  ing := t.ing, sep := t.sep, ge := t.ge, net := t.net, hif := t.hif, out := t.out
  aln := { s.aln with journal := t.aln.journal, overflow := t.aln.overflow }, flt := { s.flt with cnt := t.flt.cnt } }

/-- `t` is `s` but for Ingest's FIFOs, the Churn, its overflow counter, the Helm's re-solves, the host interface and what left the module. -/
def OnlyChurn (s t : State) : Prop := t = { s with ing := t.ing, aln := t.aln, flt := t.flt, tkx := t.tkx, hif := t.hif, out := t.out }

/-- Unit `u` is the completion of a descriptor read at index `i` of its ring, with an opcode, a status and RESULT `r` (R373). -/
def IsCompl (u : Unit512) (d : Desc) (i op : Nat) (st : Status) (r : Nat) : Prop :=
  fld u.toNat 247 240 = st.code ∧ fld u.toNat 239 232 = op ∧ fld u.toNat 231 226 = d.ring % 64 ∧ fld u.toNat 223 208 = i % 65536 ∧
    fld u.toNat 207 176 = d.tag.toNat ∧ fld u.toNat 95 0 = r % 2 ^ 96

/-- Between `s` and `t` the descriptor at the head of its ring was taken, and its completion is the last entry of the COMPL ring that the ring
names (R358, R370). -/
def Completes (s t : State) (d : Desc) (op : Nat) (st : Status) (r : Nat) : Prop :=
  (ringOf t d.ring).head = ((ringOf s d.ring).head + 1) % (ringOf s d.ring).size ∧ (ringOf t d.ring).blocked = false ∧
    ∃ u, (ringOf t (ringOf s d.ring).complRing).mem.getLast? = some u ∧ IsCompl u d (ringOf s d.ring).head op st r

end Sys2Proof.Machine
end

