-- ==== Sys2Proof/Certificates/Slice0/Obligations.lean ====
section
/-! DEFINITION. Statements about the block, for the provers. -/

open Sys2Proof Sys2Proof.Machine

/-- For every command c, every queue r behind it and every state s, a step of s with c in front of r is exec c of s with the queue r; with no command waiting a step answers the same state (the model's choice, log 1). -/
def Obligations.StepRunsFront : Prop :=
  (∀ (c : Instr) (r : List Instr) (s : State), step { s with pending := c :: r } = exec c { s with pending := r }) ∧
  ∀ s : State, s.pending = [] → step s = .next s

/-- State.reset has every array at its length, is not READY in INIT, and its life-cycle log holds one record, BLANK. -/
def Obligations.ResetInvariant : Prop :=
  Inv State.reset

/-- For every state that meets Inv (the arrays have the lengths the spec gives them; READY exactly outside INIT and only with power; the life-cycle log starts BLANK, follows allowed transitions, and holds at most 32 records of which the 32nd is DECOMMISSIONED), a step that answers a next state gives one that meets it. -/
def Obligations.StepInvariant : Prop :=
  ∀ s t : State, Inv s → step s = .next t → Inv t

/-- For every command other than POWER_ON, POWER_LOSS, RESET_N and SYS_RESET, in every state whose run state is SAFE or INIT, exec answers a next state with the same run state. -/
def Obligations.SafeUntilRestart : Prop :=
  ∀ (i : Instr) (s : State), restarts i = false → s.sys.runState = .safe ∨ s.sys.runState = .init →
    ∃ t, exec i s = .next t ∧ t.sys.runState = s.sys.runState

/-- For every command and every state, exec answers a next state whose life-cycle log begins with the log before, whose MIN_SVN is at least the one before, and whose always-on time is not earlier; the queue of commands is as it was. -/
def Obligations.FusesOnlyGrow : Prop :=
  ∀ (i : Instr) (s : State), ∃ t, exec i s = .next t ∧
    s.kst.lc <+: t.kst.lc ∧ s.kst.minSvn ≤ t.kst.minSvn ∧ s.sys.aon ≤ t.sys.aon ∧ t.pending = s.pending

/-- For every command other than the restarts, exec answers a next state whose TBU_FREE has moved on by the time that passed, where the time PLL has locked, and stands otherwise. -/
def Obligations.FreeClockNotSet : Prop :=
  ∀ (i : Instr) (s : State), restarts i = false →
    ∃ t dt, exec i s = .next t ∧ t.tbu.free = (if s.tbu.running then s.tbu.free + dt * 256 else s.tbu.free)

/-- While the module is not READY, every other command answers a state that differs at most in the time that passed and the two words a register read returned (the model's reading of R8 and R523, log 33). -/
def Obligations.NotReadyQuiet : Prop :=
  ∀ (i : Instr) (s : State), s.sys.ready = false → actsBeforeReady i = false →
    ∃ dt v w, exec i s = .next { elapse dt s with readData := v, readHigh := w }

/-- A NOP at the head of a ring, read and judged legal, completes with OK: head advances, the ring is not blocked, its completion is the last entry of the COMPL ring, and nothing outside the host interface and the output changes. -/
def Obligations.NopCompletes : Prop :=
  ∀ (dt : Nat) (d : Desc) (s : State),
    let s0 := elapse dt s
    CanRun .nop d s0 →
    ∃ t, exec (.nop dt d) s = .next t ∧ OnlyHost s0 t ∧ Completes s0 t d 0x00 .ok 0

/-- For NOP, CONFIG_LOAD, START, CONFIG_LOCK, MAINT_EXIT, UNCONFIGURE, FW_LOAD, LOG_CLEAR, LOG_EXPORT, the four key commands, LIFECYCLE, ATTEST and PAIR_SWITCHOVER: a descriptor read at the head of its ring that fails a check of R375 (ring type, standby, run state, SCHED, exclusive work) completes with the status of the first failure and RESULT 0, and nothing outside the host interface and the output changes. -/
def Obligations.RefusedDescriptorCompletes : Prop :=
  ∀ (i : Instr) (o : Opcode) (dt : Nat) (d : Desc) (s : State) (st : Status),
    let s0 := elapse dt s
    plainHead i = some (o, dt, d) → s0.sys.ready = true →
    headWaits s0 d.ring = true → complFree s0 d.ring = true → d.read = .good → judgeHead o d s0 = some st →
    ∃ t, exec i s = .next t ∧ OnlyHost s0 t ∧ Completes s0 t d o.code st 0

/-- A legal CONFIG_LOCK completes with OK: CONFIG_LOCKED is 1, the HIF block's RWL registers no longer accept writes, and of the rest only the Logbook's intake, the host interface and the output change. -/
def Obligations.ConfigLockCompletes : Prop :=
  ∀ (dt : Nat) (d : Desc) (s : State),
    let s0 := elapse dt s
    CanRun .configLock d s0 →
    ∃ t, exec (.configLock dt d) s = .next t ∧ t.sys = { s0.sys with locked := true } ∧ t.hif.open_ = false ∧
      t = { s0 with sys := t.sys, hif := t.hif, log := t.log, out := t.out } ∧
      (s0.sys.locked = true → t.log = s0.log) ∧ Completes s0 t d 0x03 .ok 0

/-- A legal MAINT_EXIT completes with OK: the run state is RUN, packets are placed, no tick is open, the next tick to commit is the first whose Tm is later than now, and not before its distance from the last commit, limit states are 0, the solver's hold is 0, and time, faults, ports, ingest, keys, mailboxes and the image are unchanged. -/
def Obligations.MaintExitCompletes : Prop :=
  ∀ (dt : Nat) (d : Desc) (s : State),
    let s0 := elapse dt s
    CanRun .maintExit d s0 →
    ∃ t, exec (.maintExit dt d) s = .next t ∧ t.sys = { s0.sys with runState := .run } ∧ t.aln.placing = true ∧ t.aln.ticks = [] ∧
      t.aln.next = firstAfter s0 (discTime s0) ∧ t.tkx = { s0.tkx with cur := none, notBefore := max s0.tkx.notBefore s0.tbu.free } ∧
      t.ala.conds.lims = [] ∧ (∀ z ∈ t.lse.hold, z = c0) ∧
      t = { s0 with sys := t.sys, hif := t.hif, log := t.log, aln := t.aln, tkx := t.tkx, dfc := t.dfc, lse := t.lse, osm := t.osm,
                             ge := t.ge, ala := t.ala, out := t.out } ∧
      Completes s0 t d 0x05 .ok 0

/-- A legal UNCONFIGURE leads from MAINTENANCE to CONFIG: no reporting rate is in force, no coefficient swap pends, what is scheduled is at most what was, and time, faults, ports, ingest, the window, keys, mailboxes and the image are unchanged; with nothing scheduled or pending it completes with OK. -/
def Obligations.UnconfigureCompletes : Prop :=
  ∀ (dt : Nat) (d : Desc) (s : State),
    let s0 := elapse dt s
    CanRun .unconfigure d s0 →
    ∃ t, exec (.unconfigure dt d) s = .next t ∧ t.sys = { s0.sys with runState := .config, rate := 0 } ∧
      (∀ c ∈ t.dfc.chains, c.2.swap = none) ∧ t.hif.sched = s0.hif.sched.filter (fun c => c.cmd.inMaint) ∧ t.pair.switchAt = none ∧
      t = { s0 with sys := t.sys, hif := t.hif, log := t.log, dfc := t.dfc, ala := t.ala, pair := { s0.pair with switchAt := none },
                             out := t.out } ∧
      (s0.hif.sched = [] → (∀ c ∈ s0.dfc.chains, c.2.swap = none) → s0.pair.switchAt = none → Completes s0 t d 0x06 .ok 0)

/-- An unscheduled legal MAINT_ENTER, no other one in progress: with no tick in progress the run state is MAINTENANCE, no tick is open, no packet is placed, no alarm is active, and the Helm goes on from there; with a tick in progress it waits and the run state stays RUN. -/
def Obligations.MaintEnterCompletes : Prop :=
  ∀ (dt : Nat) (d : Desc) (s : State),
    let s0 := elapse dt s
    CanRun .maintEnter d s0 → d.sched = false → s0.sys.maintPend = none →
    ∃ u, exec (.maintEnter dt d) s = .next (drainMirrored (settle u)) ∧
      (s0.tkx.cur = none → u.sys = { s0.sys with runState := .maintenance } ∧ u.aln.placing = false ∧ u.aln.ticks = [] ∧
        u.ala.active = [] ∧ u.ala.values = [] ∧ u.ge.running = false ∧ u.tbu = s0.tbu ∧ u.kst.slots = s0.kst.slots ∧ u.flt = s0.flt ∧
        u.ing = s0.ing ∧ u.dfc = { s0.dfc with cnt := u.dfc.cnt } ∧ u.image = s0.image) ∧
      (s0.tkx.cur ≠ none → u.sys.runState = .run ∧ u.sys.maintPend.isSome = true ∧ u.tkx = s0.tkx ∧ u.aln = s0.aln)

/-- A legal CONFIG_LOAD whose parameters and list hold and whose image was read completes: an image that passes every check is loaded, with its digest and sequence number in RESULT; one that fails leaves no image and IMAGE_STATE refused, and RESULT 0. An image that is loaded takes every endpoint out of CFG_MISMATCH. Beside that only the image, the Logbook's intake, the host interface and the output change. -/
def Obligations.ConfigLoadCompletes : Prop :=
  ∀ (dt : Nat) (d : Desc) (l : List (BitVec 128)) (i : Image) (s : State),
    let s0 := elapse dt s
    CanRun .configLoad d s0 →
    (let q := loadParams d.params
     256 ≤ q.total ∧ q.total ≤ 1073741824 ∧ q.addr % 16 = 0 ∧ listOk q l = true) →
    let v := judgeImage s0 (listed i) (loadParams d.params).total
    ∃ t, exec (.configLoad dt d (some l) (some i)) s = .next t ∧
      t = { s0 with image := t.image, ing := { s0.ing with eps := t.ing.eps }, hif := t.hif, log := t.log, out := t.out } ∧
      (v ≠ .ok → t.ing = s0.ing) ∧ (v = .ok → (∀ e ∈ t.ing.eps, e.2.rt.mismatch = false) ∧ t.image = some (listed i) ∧ t.hif.imgState = .loaded ∧ t.hif.digest = i.digest ∧ t.hif.imgSeq = i.seq) ∧
      (v ≠ .ok → t.image = none ∧ t.hif.imgState = .refused ∧ t.hif.digest = 0 ∧ t.hif.imgSeq = 0) ∧
      Completes s0 t d 0x01 v (if v = .ok then i.digest.toNat * 2 ^ 32 + i.seq.toNat else 0)

/-- A legal START whose conditions hold, ROLE 0: the run state is RUN, the reporting rate and guarantee mode in force are the image's and the register's, the first tick to commit is the first whose Tm is later than now and will have TICK_SEQ 0, the window is open and empty, and time, faults, keys, mailboxes and the image are unchanged. With a ROLE other than 0 the module asks its peer and waits; where a condition fails it completes with the status and no effect. -/
def Obligations.StartCompletes : Prop :=
  ∀ (dt : Nat) (d : Desc) (s : State),
    let s0 := elapse dt s
    CanRun .start d s0 →
    (∀ i, s0.image = some i → judgeStart s0 = .ok → fld s0.pair.cfg.toNat 1 0 = 0 →
      ∃ t, exec (.start dt d) s = .next t ∧ t.sys.runState = .run ∧ t.sys.rate = i.hier.rate ∧ t.sys.guarEff = modeReg s0 ∧ t.pair.st = .unpaired ∧
        t.aln.placing = true ∧ t.aln.ticks = [] ∧ t.tkx.lastSeq = none ∧ t.tkx.nextSeq = 0 ∧ t.tkx.cur = none ∧
        t.aln.next = firstAfter t (discTime t) ∧ t.tbu = s0.tbu ∧ t.flt = s0.flt ∧ t.kst = s0.kst ∧ t.mbx = s0.mbx ∧ t.image = s0.image) ∧
    (judgeStart s0 = .ok → fld s0.pair.cfg.toNat 1 0 ≠ 0 →
      ∃ t, exec (.start dt d) s = .next t ∧ t.sys = { s0.sys with exclusive := true } ∧ t.pair.startPend.isSome = true ∧
        t = { s0 with sys := t.sys, hif := t.hif, pair := t.pair, out := t.out }) ∧
    (judgeStart s0 ≠ .ok →
      ∃ t, exec (.start dt d) s = .next t ∧ OnlyHost s0 t ∧ Completes s0 t d 0x02 (judgeStart s0) 0)

/-- A legal FW_LOAD whose parameters and list hold and whose image was read completes. Where it completes with OK the image's signature verifies, its version is not below MIN_SVN, and its measurement and version stand in the bank that is not in use; otherwise no bank changes. Of the Key Store only the banks and the counts change, and outside it only the host interface and the output. -/
def Obligations.FwLoadCompletes : Prop :=
  ∀ (dt : Nat) (d : Desc) (l : List (BitVec 128)) (b : List Byte) (s : State),
    let s0 := elapse dt s
    CanRun .fwLoad d s0 → lcState s0 ≠ 4 →
    (let q := loadParams d.params
     256 ≤ q.total ∧ q.total ≤ 16777216 ∧ q.addr % 16 = 0 ∧ listOk q l = true) →
    let img := padTo (loadParams d.params).total (b.take (loadParams d.params).total)
    let n := img.length
    let svn := leNat (sub img 6 2)
    ∃ t st r, exec (.fwLoad dt d (some l) (some b)) s = .next t ∧ Completes s0 t d 0x07 st r ∧
      t = { s0 with hif := t.hif, out := t.out, kst := { s0.kst with banks := t.kst.banks, newBank := t.kst.newBank, cnt := t.kst.cnt } } ∧
      (st = .ok → ecdsaVerify Config.fwKey (beNat (sha256 (img.take (n - 64)))) (beAt img (n - 64) 32) (beAt img (n - 32) 32) = true ∧
        s0.kst.minSvn ≤ svn ∧ t.kst.newBank = 1 - s0.kst.bank ∧
        t.kst.banks = setAt s0.kst.banks (1 - s0.kst.bank) (some (BitVec.ofNat 256 (beNat (sha256 img)), svn))) ∧
      (st ≠ .ok → t.kst.banks = s0.kst.banks ∧ t.kst.newBank = s0.kst.newBank)

/-- A legal STEP of MODE 0 and an AMOUNT other than 0: OFFSET of the selected domain rises by AMOUNT ns, TIME_EPOCH and the count of steps go on by one, the other domain and TBU_FREE stand, and what the step does to the window follows; outside RUN with nothing scheduled it completes with OK, with AMOUNT and the new epoch in RESULT, and changes nothing outside the Sextant, the Logbook's intake, the host interface and the output. A STEP of amount 0 completes with OK and changes no time. -/
def Obligations.StepCompletes : Prop :=
  ∀ (dt : Nat) (d : Desc) (s : State),
    let s0 := elapse dt s
    CanRun .step d s0 → fld d.params.toNat 319 319 = 0 →
    let a := (BitVec.ofNat 64 (fld d.params.toNat 383 320)).toInt
    ∃ v u, exec (.step dt d) s = .next (drainMirrored (settle u)) ∧ OnlyHost (timeStepped (discTime s0) v) u ∧
      v = { s0 with tbu := v.tbu, log := v.log, hif := v.hif, out := v.out } ∧ v.tbu.free = s0.tbu.free ∧
      (a = 0 → v.tbu = s0.tbu) ∧
      (a ≠ 0 → selDom v = { selDom s0 with offset := (selDom s0).offset + a * 65536 } ∧
        (if selB s0 then v.tbu.domA = s0.tbu.domA else v.tbu.domB = s0.tbu.domB) ∧ v.tbu.epoch = (s0.tbu.epoch + 1) % 256 ∧
        v.tbu.stepCnt = satAdd s0.tbu.stepCnt 1) ∧
      (s0.sys.runState ≠ .run → s0.hif.sched = [] → Completes s0 u d 0x10 .ok (ifld 64 a * 2 ^ 32 + v.tbu.epoch))

/-- A legal unscheduled DFC_COEF_LOAD of a preset for a chain that takes loads and has none pending: the staging bank takes the preset and the swap pends with this command, the ring is not blocked, and of the Separator only that chain changes. With one pending it completes with E_BUSY and counts LOAD_REFUSED. -/
def Obligations.CoefLoadPends : Prop :=
  ∀ (dt : Nat) (d : Desc) (w : Option (List Word)) (c : Chain) (s : State),
    let s0 := elapse dt s
    CanRun .dfcCoefLoad d s0 → d.sched = false →
    chainOf s0 (coefParams d.params).chain = some c → c.coefLock = false → (coefParams d.params).filter < 4 →
    let k := (coefParams d.params).chain
    let f := (coefParams d.params).filter
    (c.swap = none → ∃ t x, exec (.dfcCoefLoad dt d w) s = .next t ∧ OnlyHost { s0 with dfc := t.dfc } t ∧
      t.dfc = { s0.dfc with chains := insertK s0.dfc.chains k (c.stage (presetTaps f) (presetCoefs f) x) } ∧
      (x.ctx.map fun y => (y.ring, y.tag, y.opcode)) = some (d.ring, d.tag, 0x20) ∧ x.late = false ∧ (ringOf t d.ring).blocked = false) ∧
    (c.swap ≠ none → ∃ t, exec (.dfcCoefLoad dt d w) s = .next t ∧
      OnlyHost { s0 with dfc := { s0.dfc with cnt := modAt s0.dfc.cnt 6 (satAdd · 1) } } t ∧ Completes s0 t d 0x20 .busy 0)

/-- A legal LOG_CLEAR completes with OK: the Logbook holds one complete record, that of the clearing, and the next SEQ has gone on by at least one. A legal LOG_EXPORT to an enabled STREAM ring from a SEQ that exists completes with OK and changes no record. Outside the Logbook, the host interface and the output nothing changes. -/
def Obligations.LogCommandsComplete : Prop :=
  (∀ (dt : Nat) (d : Desc) (s : State),
    let s0 := elapse dt s
    CanRun .logClear d s0 →
    ∃ t r, exec (.logClear dt d) s = .next t ∧ (t.log.recs.filter fun e => recValid e.2).length = 1 ∧ (s0.log.dropPend = 0 → t.log.queue = []) ∧ s0.log.seqNext < t.log.seqNext ∧ t.log.oldest + 1 = t.log.seqNext ∧
      t = { s0 with log := t.log, hif := t.hif, out := t.out } ∧ Completes s0 t d 0x30 .ok r) ∧
  ∀ (dt : Nat) (d : Desc) (s : State),
    let s0 := elapse dt s
    CanRun .logExport d s0 →
    (ringOf s0 (fld d.params.toNat 299 294)).enabled = true → (ringOf s0 (fld d.params.toNat 299 294)).type = .stream →
    fld d.params.toNat 383 320 < s0.log.seqNext →
    ∃ t r, exec (.logExport dt d) s = .next t ∧ t.log.recs = s0.log.recs ∧ t.log.seqNext = s0.log.seqNext ∧ t.log.queue = s0.log.queue ∧
      t = { s0 with log := t.log, hif := t.hif, out := t.out } ∧ Completes s0 t d 0x31 .ok r

/-- A legal KEY_GENERATE, KEY_IMPORT or unscheduled KEY_ROLL whose checks pass (R465 to R468) on a module without a follower writes the prepared slot and no other but the children of a rolled key, and outside the Key Store, the replay windows of the endpoints on that slot, which start again, the drawn free value, the host interface and the output nothing changes; the new slot is VALID and its generation is one above the highest. A KEY_GENERATE or KEY_ROLL whose checks pass and that meets a failed integrity code in its slot completes with E_INTERNAL and RESULT 0, and KEY_CELL is raised for the slot. -/
def Obligations.KeyCommandsComplete : Prop :=
  ∀ (i : Instr) (o : Opcode) (dt : Nat) (d : Desc) (r : KeyUpd) (s v : State),
    let s0 := elapse dt s
    plainHead i = some (o, dt, d) → CanRun o d s0 →
    (((i = .keyGenerate dt d true ∧ prepGenerate d.params s0 = (.upd r, v)) ∨
      ∃ b, i = .keyRoll dt d b true ∧ rollOf d.params b s0 = (.upd r, v)) →
     ∃ u, OnlyHost s0 u ∧ Completes s0 u d o.code .internal 0 ∧
       exec i s = .next (noteWaits (drainMirrored (settle (raiseFault { FaultIn.plain 0x12 13 with detail := r.slot } u))))) ∧
    (d.sched = false → hasFollower s0 = false →
    ((i = .keyGenerate dt d false ∧ prepGenerate d.params s0 = (.upd r, v)) ∨
     (∃ b, i = .keyImport dt d b ∧ prepImport d.params b s0 = .upd r ∧ v = s0) ∨
     (∃ b, i = .keyRoll dt d b false ∧ rollOf d.params b s0 = (.upd r, v))) →
    ∃ t x, exec i s = .next t ∧ Completes s0 t d o.code .ok x ∧
      t = { s0 with kst := t.kst, ing := { s0.ing with eps := t.ing.eps }, freeCtr := v.freeCtr, hif := t.hif, out := t.out } ∧
      (∀ e ∈ t.ing.eps, fld e.2.entry.toNat 102 97 = r.slot → (slotOfKey s0 r.slot).gen ≠ r.new.gen → e.2.rt.cur = Replay.reset) ∧
      r.new.st = .valid ∧ r.new.gen = nextGen (slotOfKey s0 r.slot) ∧ r.new.hi = r.new.gen ∧ r.slot < 64 ∧
      (r.slot < s0.kst.slots.length → slotOfKey t r.slot = r.new) ∧
      ∀ k, k ≠ r.slot → slotOfKey t k = (if r.roll && isChild r.slot (slotOfKey s0 r.slot) (slotOfKey s0 k) then
        { slotOfKey s0 k with parGen := r.new.gen } else slotOfKey s0 k))

/-- A legal KEY_REVOKE of a slot that is VALID or ORPHANED, on a module without a follower: the slot is REVOKED with cause 1 and no value, each VALID descendant is ORPHANED, every other slot stands, and MIN_SVN, the life cycle and the tamper latch stand. Revoking a REVOKED slot changes no slot. -/
def Obligations.KeyRevokeCompletes : Prop :=
  ∀ (dt : Nat) (d : Desc) (s : State),
    let s0 := elapse dt s
    CanRun .keyRevoke d s0 → keyLegal s0 = true → hasFollower s0 = false → s0.kst.slots.length = 64 →
    let k := fld d.params.toNat 383 378
    ∃ t, exec (.keyRevoke dt d) s = .next t ∧ t.kst.lc = s0.kst.lc ∧ t.kst.minSvn = s0.kst.minSvn ∧ t.kst.tamperLatched = s0.kst.tamperLatched ∧
      ((slotOfKey s0 k).st = .valid ∨ (slotOfKey s0 k).st = .orphaned →
        (slotOfKey t k).st = .revoked ∧ (slotOfKey t k).cause = 1 ∧ (slotOfKey t k).val = [] ∧
        ∀ j, j ≠ k → slotOfKey t j = (if (descendants s0 k).contains j then { slotOfKey s0 j with st := .orphaned, cause := 2 } else slotOfKey s0 j)) ∧
      ((slotOfKey s0 k).st = .revoked → t.kst.slots = s0.kst.slots ∧ Completes s0 t d 0x43 .ok 0)

/-- A legal LIFECYCLE completes, and every nonce before it is used up; where it completes with OK the transition is one that R459 allows and the log has one more record, with the new state; otherwise the log stands. A legal ATTEST whose buffer is long enough, with a root key and a challenge, completes with OK, counts the attestation, draws one free value and changes nothing else outside the host interface and the output. -/
def Obligations.LifecycleAttestComplete : Prop :=
  (∀ (dt : Nat) (d : Desc) (sig aux : Option (List Byte)) (s : State),
    let s0 := elapse dt s
    CanRun .lifecycle d s0 →
    ∃ t st, exec (.lifecycle dt d sig aux) s = .next t ∧ t.kst.nonceLive = false ∧ t.sys = s0.sys ∧
      (st ≠ .ok → t.kst.lc = s0.kst.lc ∧ t.kst.slots = s0.kst.slots) ∧
      (st = .ok → (lcAuth (lcState s0) (fld d.params.toNat 383 381)).isSome = true ∧ lcState t = fld d.params.toNat 383 381 ∧
        t.kst.lc.length = s0.kst.lc.length + 1) ∧
      (s0.hif.sched = [] → ∃ r, Completes s0 t d 0x44 st r)) ∧
  ∀ (dt : Nat) (d : Desc) (c : List Byte) (s : State),
    let s0 := elapse dt s
    CanRun .attest d s0 → lcState s0 ≠ 4 → s0.kst.rootOk = true →
    1344 + (if fld d.params.toNat 242 242 = 1 then s0.kst.cert.length else 0) ≤ fld d.params.toNat 255 243 →
    ∃ t r, exec (.attest dt d (some c)) s = .next t ∧ Completes s0 t d 0x45 .ok r ∧
      t = { s0 with kst := { s0.kst with attestSeq := s0.kst.attestSeq + 1, cnt := t.kst.cnt }, freeCtr := s0.freeCtr + 1,
                             hif := t.hif, out := t.out }

/-- A legal unscheduled PAIR_SWITCHOVER on an ACTIVE module whose peer is STANDBY, none pending, is kept for the next commit; otherwise it completes with E_STATE. A scheduled PAIR_SWITCHOVER whose time lies at most a day ahead and is not past, with room among the 256 waiting commands, is kept with its time and no longer blocks its ring. -/
def Obligations.SwitchoverAndScheduled : Prop :=
  ∀ (dt : Nat) (d : Desc) (s : State),
    let s0 := elapse dt s
    CanRun .pairSwitchover d s0 →
    (d.sched = false → switchOk s0 = true → s0.pair.switchAt = none → ∃ t c, exec (.pairSwitchover dt d) s = .next t ∧
      t = { s0 with pair := { s0.pair with switchAt := some (c, false) }, hif := t.hif, out := t.out } ∧ c.ring = d.ring ∧ c.tag = d.tag) ∧
    (d.sched = false → (switchOk s0 = false ∨ s0.pair.switchAt ≠ none) → ∃ t, exec (.pairSwitchover dt d) s = .next t ∧
      OnlyHost s0 t ∧ Completes s0 t d 0x50 .state 0) ∧
    (d.sched = true → s0.hif.sched.length < 256 → discTime s0 ≤ (((d.schedSec * 1000000000 + d.schedNs) * fr : Nat) : Int) →
      (((d.schedSec * 1000000000 + d.schedNs) * fr : Nat) : Int) ≤ discTime s0 + ((86400 * secFr : Nat) : Int) →
      ∃ t x, exec (.pairSwitchover dt d) s = .next t ∧ OnlyHost s0 t ∧ t.hif.sched = s0.hif.sched ++ [x] ∧
        x.atNs = d.schedSec * 1000000000 + d.schedNs ∧ x.late = false ∧ x.cmd = .pairSwitchover ∧ (ringOf t d.ring).blocked = false)

/-- A legal INJECT whose target FIFO has room completes: with E_PARAM where its length is not 18 to 9,216 octets or its identifier is not of the injected class, and no endpoint changes; otherwise with the status of the frame's judgement. The run state, time, keys and the image stand. -/
def Obligations.InjectCompletes : Prop :=
  ∀ (dt : Nat) (d : Desc) (b : List Byte) (s : State),
    let s0 := elapse dt s
    CanRun .inject d s0 → injectWaits d s0 = false →
    let id := fld d.params.toNat 383 352
    let len := fld d.params.toNat 287 274
    ∃ t st, exec (.inject dt d (some b)) s = .next t ∧ Completes s0 t d 0x60 st 0 ∧ (st = .ok ∨ st = .param) ∧
      t.sys = s0.sys ∧ t.kst = s0.kst ∧ t.image = s0.image ∧ t.flt = s0.flt ∧ t.aln = s0.aln ∧ t.tkx = s0.tkx ∧
      (len < 18 ∨ 9216 < len ∨ id / 2 ^ 30 ≠ 2 → st = .param ∧ t.ing.eps = s0.ing.eps ∧ t.ing.fifos = s0.ing.fifos)

/-- A doorbell write while BAR2 is open, aligned, of 32 or 64 bits, at n × 0x400 with n below 64, INDEX in the low half word: on a disabled ring it is discarded and sets DB_BAD; on a host-produced ring an INDEX below the size becomes tail and any other is discarded, counted in DB_IGNORED and sets DB_RANGE; on a device-produced ring an INDEX from head to tail becomes head, what lay before it leaves the ring's memory, and any other is discarded, counted and sets DB_BAD. Nothing outside the host interface and the output changes. A write elsewhere in BAR2, or of another size (the model's choice, log 155), and one while BAR2 is closed, changes nothing. -/
def Obligations.DoorbellMovesIndex : Prop :=
  ∀ (i : Instr) (dt : Nat) (a : Access) (v : Dword) (s : State),
    let s0 := elapse dt s
    (i = .tailDoorbell dt a v ∨ i = .headDoorbell dt a v) →
    let n := a.off / 0x400
    let x := v.toNat % 65536
    let r := ringOf s0 n
    let k := (x + r.size - r.head) % r.size
    (barOpen s0 = false ∨ a.aligned = false ∨ a.off % 0x400 ≠ 0 ∨ 64 ≤ n → exec i s = .next s0) ∧
    (barOpen s0 = true → a.aligned = true → a.off % 0x400 = 0 → n < 64 → ∃ t, exec i s = .next t ∧ OnlyHost s0 t ∧
      (r.enabled = false → t.hif.rings = s0.hif.rings ∧ bitOf t.hif.event 1 = true) ∧
      (r.enabled = true → r.host = true →
        (x < r.size → t.hif.rings = modAt s0.hif.rings n (fun q => { q with tail := x })) ∧
        (r.size ≤ x → t.hif.rings = s0.hif.rings ∧ bitOf t.hif.event 0 = true ∧
          nth t.hif.cnt 6 0#32 = nth (modAt s0.hif.cnt 6 (satAdd · 1)) 6 0#32)) ∧
      (r.enabled = true → r.host = false →
        (x < r.size → k ≤ r.used → (ringOf t n).head = x ∧ r.mem.drop k <+: (ringOf t n).mem) ∧
        (r.size ≤ x ∨ r.used < k → t.hif.rings = s0.hif.rings ∧ bitOf t.hif.event 1 = true ∧
          nth t.hif.cnt 6 0#32 = nth (modAt s0.hif.cnt 6 (satAdd · 1)) 6 0#32)))

/-- RING_ENABLE of a disabled ring whose registers accept writes: the ring is enabled with TYPE, COMPL_RING, VECTOR and IRQ_EN of the value and SIZE_LOG2 brought into 4 to 16; with nothing held or staged head, tail and RING_SEQ are 0 and the expected PHASE is 1. RING_DISABLE of an enabled ring: the ring is disabled, its base, head, tail, type and memory stand, and no record is left staged on a STREAM ring. The other rings' registers stand, and nothing outside the host interface and the output changes. RWL registers that are locked keep the ring as it is. -/
def Obligations.RingEnableDisable : Prop :=
  ∀ (dt n : Nat) (v : Word) (s : State),
    let s0 := elapse dt s
    n < s0.hif.rings.length → n < 64 → barOpen s0 = true →
    let r := ringOf s0 n
    (hifWritable s0 = false → exec (.ringEnable dt n v) s = .next s0 ∧ exec (.ringDisable dt n v) s = .next s0) ∧
    (hifWritable s0 = true → r.enabled = false → ∃ t, exec (.ringEnable dt n v) s = .next t ∧ OnlyHost s0 t ∧
      let q := ringOf t n
      q.enabled = true ∧ fld q.cfg.toNat 30 29 = fld v.toNat 30 29 ∧ fld q.cfg.toNat 28 24 = max 4 (min 16 (fld v.toNat 28 24)) ∧
        fld q.cfg.toNat 23 11 = fld v.toNat 23 11 ∧ q.base = r.base ∧
        (r.held = [] → r.staged = [] → q.head = 0 ∧ q.tail = 0 ∧ q.seq = 0 ∧ q.phase = true ∧ q.mem = [])) ∧
    (hifWritable s0 = true → r.enabled = true → ∃ t, exec (.ringDisable dt n v) s = .next t ∧ OnlyHost s0 t ∧
      let q := ringOf t n
      q.enabled = false ∧ q.type = r.type ∧ q.base = r.base ∧ q.head = r.head ∧ q.tail = r.tail ∧ q.mem = r.mem ∧ q.held = r.held ∧
        (r.type = .stream → ∀ x, QItem.rcd x ∉ q.staged) ∧ ∀ m, m ≠ n → ringOf t m = ringOf s0 m)

/-- RECORD_DEADLINE on a ring leaves no staged record whose deadline has passed and adds at most to what is lost. IRQ_COAL_TIMER on a ring with IRQ_EN whose COAL_US has passed since its first entry not signalled clears the count and the time; with MSI-X on, the bus on and the vector not masked one message leaves, and otherwise, with MSI-X on, the vector's pending bit is set. Nothing outside the host interface and the output changes. -/
def Obligations.DeadlineAndIrqTimers : Prop :=
  (∀ (dt n : Nat) (s : State),
    let s0 := elapse dt s
    n < 64 → s0.sys.ready = true →
    ∃ t, exec (.recordDeadline dt n) s = .next t ∧ OnlyHost s0 t ∧
      (∀ x, QItem.rcd x ∈ (ringOf t n).staged → s0.tbu.free < x.deadline ∧ QItem.rcd x ∈ (ringOf s0 n).staged)) ∧
  ∀ (dt n t0 : Nat) (s : State),
    let s0 := elapse dt s
    n < 64 → s0.sys.ready = true →
    let r := ringOf s0 n
    let v := r.vector
    let us := fld r.coal.toNat 31 16
    r.coalAt = some t0 → us ≠ 0 → t0 + us * 1000 * fr ≤ s0.tbu.free → r.irqEn = true →
    ∃ t, exec (.irqCoalTimer dt n) s = .next t ∧ OnlyHost s0 t ∧
      t.hif.rings = modAt s0.hif.rings n (fun q => { q with coalCnt := 0, coalAt := none }) ∧
      (s0.hif.msixEn = true → s0.hif.msixMask = false → vecMasked s0 v = false → busOn s0 = true →
        t.out = s0.out ++ [.msix v ((nth s0.hif.msix (4 * v) 0#32).toNat + (nth s0.hif.msix (4 * v + 1) 0#32).toNat * 2 ^ 32)
          (nth s0.hif.msix (4 * v + 2) 0#32)] ∧ t.hif.pba = s0.hif.pba) ∧
      (s0.hif.msixEn = true → s0.hif.msixMask = true ∨ vecMasked s0 v = true ∨ busOn s0 = false → t.out = s0.out ∧ t.hif.pba.getLsbD v = true)

/-- BUS_MASTER_ENABLE_CHANGE and POWER_STATE_CHANGE on a powered module store what they carry and change nothing outside the host interface and the output; where the bus stays off they change nothing else at all, and where it is on no vector that may be sent stays pending. A clearing of the error status of AER clears the advisory error and the recorded abort, and a change without it keeps the abort. MSIX_UNMASK clears the vector's mask bit; a pending message of a vector that may be sent goes out. -/
def Obligations.BusConfiguration : Prop :=
  (∀ (dt : Nat) (b : Bool) (x : MsixCtl) (c : DevCtl) (s : State),
    let s0 := elapse dt s
    let h := { s0.hif with bme := b, msixEn := x.en, msixMask := x.mask, payload := c.payload, readReq := c.readReq,
                           advisory := s0.hif.advisory && !c.clearAer, abort := if c.clearAer then none else s0.hif.abort }
    s0.sys.powered = true →
    ∃ t, exec (.busMasterEnableChange dt b x c) s = .next t ∧ OnlyHost s0 t ∧
      t.hif.bme = b ∧ t.hif.msixEn = x.en ∧ t.hif.msixMask = x.mask ∧ t.hif.payload = c.payload ∧ t.hif.readReq = c.readReq ∧
      t.hif.advisory = h.advisory ∧ t.hif.abort = h.abort ∧ t.hif.d3hot = s0.hif.d3hot ∧
      ((b && !s0.hif.d3hot) = false → t = { s0 with hif := h }) ∧
      ((b && !s0.hif.d3hot && x.en && !x.mask) = true → ∀ v, v < 64 → vecMasked t v = false → t.hif.pba.getLsbD v = false)) ∧
  (∀ (dt : Nat) (d3 : Bool) (s : State),
    let s0 := elapse dt s
    s0.sys.powered = true →
    ∃ t, exec (.powerStateChange dt d3) s = .next t ∧ OnlyHost s0 t ∧ t.hif.d3hot = d3 ∧ t.hif.bme = s0.hif.bme ∧
      ((s0.hif.bme && !d3) = false → t = { s0 with hif := { s0.hif with d3hot := d3 } }) ∧
      (d3 = true → barOpen t = false)) ∧
  ∀ (dt v : Nat) (s : State),
    let s0 := elapse dt s
    v < 64 → s0.hif.msix.length = 256 → barOpen s0 = true →
    ∃ t, exec (.msixUnmask dt v) s = .next t ∧ OnlyHost s0 t ∧ vecMasked t v = false ∧ t.hif.rings = s0.hif.rings ∧
      (s0.hif.pba.getLsbD v = true → s0.hif.msixEn = true → s0.hif.msixMask = false → busOn s0 = true →
        t.hif.pba.getLsbD v = false ∧ ∃ x, t.out = s0.out ++ [x]) ∧
      (s0.hif.pba.getLsbD v = false → t.out = s0.out ∧ t.hif.pba = s0.hif.pba)

/-- While BAR0 is open, an access that is not aligned, of another size than 32 or 64 bits, or to BAR2 where it is a read, changes nothing but the read data, which is 0. REGISTER_WRITE of 32 bits to a read-only register, a read-clear one, an RWL one that is locked, or a reserved offset changes nothing; to a write-1-to-clear register it clears the bits written 1 that were set when the cycle began; to any other it stores by the register's own rule. REGISTER_READ_CLEAR of 32 bits answers the register's value as the cycle began and clears it but for what the cycle added, and of a register whose read acts does that act; of a reserved offset it answers 0. A read of a latched word answers the word as it was latched and changes nothing else, and a read of its first word latches it. A write of 64 bits is two of 32 in one cycle, low word first, and a read of 64 bits is two reads. -/
def Obligations.RegisterAccess : Prop :=
  ∀ (dt : Nat) (bar2 : Bool) (w : Access) (v : Dword) (s : State),
    let s0 := elapse dt s
    let a := w.off
    let x : Word := v.setWidth 32
    barOpen s0 = true →
    (w.aligned = false → exec (.registerWrite dt w v) s = .next s0) ∧
    (bar2 = true ∨ w.aligned = false → exec (.registerReadClear dt ⟨bar2, w⟩) s = .next { s0 with readData := 0, readHigh := 0 } ∧
      exec (.latchedWordRead dt ⟨bar2, w⟩) s = .next { s0 with readData := 0, readHigh := 0 }) ∧
    (w.aligned = true → w.bits = 32 →
      (regAt a = none → exec (.registerWrite dt w v) s = .next s0 ∧
        exec (.registerReadClear dt ⟨false, w⟩) s = .next { s0 with readData := 0, readHigh := 0 }) ∧
      (∀ r k, regAt a = some (r, k) →
        (r.acc = .ro ∨ r.acc = .rc ∨ (r.acc = .rwl ∧ rwlOpen (a / 65536) s0 = false) → exec (.registerWrite dt w v) s = .next s0) ∧
        (r.acc = .rw ∨ r.acc = .wo ∨ r.acc = .mix ∨ (r.acc = .rwl ∧ rwlOpen (a / 65536) s0 = true) →
          exec (.registerWrite dt w v) s = .next (r.put k x s0)) ∧
        (r.acc = .w1c → ∃ p, exec (.registerWrite dt w v) s = .next { r.put k (x &&& r.get s0.began k) s0 with prior := p }) ∧
        (isLatched a = false → r.act = none → r.acc = .rc →
          let u := takeLatches a s0
          let old := r.get u.began k
          ∃ p, exec (.registerReadClear dt ⟨false, w⟩) s =
            .next { r.put k (r.kept old (r.get u k)) { u with readData := old } with prior := p, readHigh := 0 }) ∧
        (∀ f, isLatched a = false → r.act = some f → exec (.registerReadClear dt ⟨false, w⟩) s = .next { f k s0 with readHigh := 0 }) ∧
        (isLatched a = true → exec (.latchedWordRead dt ⟨false, w⟩) s =
          .next { s0 with readData := (lookupK s0.latches a).getD 0#32, readHigh := 0 }) ∧
        (isLatched a = false → r.act = none → r.acc ≠ .rc → ∃ t, exec (.latchedWordRead dt ⟨false, w⟩) s = .next t ∧
          t = { s0 with readData := r.get s0 k, readHigh := 0, latches := t.latches } ∧
          ∀ b ∈ latchedBy a, lookupK t.latches b = some (regWord b s0)))) ∧
    (w.aligned = true → w.bits = 64 →
      (∃ t u, exec (.registerWrite dt ⟨a, 32⟩ v) s = .next t ∧ exec (.registerWrite 0 ⟨a + 4, 32⟩ (v >>> 32)) t = .next u ∧
        exec (.registerWrite dt w v) s = .next u) ∧
      ∀ i, i ∈ [Instr.registerReadClear dt ⟨false, w⟩, .latchedWordRead dt ⟨false, w⟩] →
        let lo := barRead a s0
        let hi := barRead (a + 4) lo
        exec i s = .next { hi with readData := lo.readData, readHigh := hi.readData })

/-- While the module is not READY, a read of SYS_ID or SYS_STATUS, alone or as one of the two words of a 64-bit read, answers the register's value, every other read answers 0, and every host write, of a register, a doorbell or a mailbox, changes nothing but the time that passes. -/
def Obligations.ClosedBeforeReady : Prop :=
  ∀ (dt n k : Nat) (b : Bool) (w : Access) (v : Word) (y : Dword) (d : DomId) (s : State),
    let s0 := elapse dt s
    let at_ := fun (a : Nat) => if a = 0 ∨ a = 4 then regWord a s0 else 0
    s0.sys.ready = false →
    (∀ i, i ∈ [Instr.registerReadClear dt ⟨b, w⟩, .latchedWordRead dt ⟨b, w⟩] →
      exec i s = .next (if b || !w.aligned then { s0 with readData := 0, readHigh := 0 } else
        { s0 with readData := at_ w.off, readHigh := if w.bits = 64 then at_ (w.off + 4) else 0 })) ∧
    (∀ i, i ∈ [Instr.mbxC2hRead dt n, .mbxLockRead dt n 0, .kstNonceRead dt] → exec i s = .next { s0 with readData := 0 }) ∧
    ∀ i, i ∈ [Instr.registerWrite dt w y, .tailDoorbell dt w y, .headDoorbell dt w y, .ringEnable dt n v, .ringDisable dt n v, .dsEnableWrite dt n v,
        .tbuSnap dt v, .tbuCtrlWrite dt v, .tbuDcfgWrite dt d v, .ingFifoFlush dt v, .alaPinClear dt v, .faultnRelease dt, .firstClr dt,
        .fltInject dt v, .mbxH2cWrite dt n v, .mbxC2hAck dt n v, .mbxLockRelease dt ⟨n, k⟩ v, .kstTamperArm dt v, .kstTamperClr dt v, .forceActive dt v,
        .msixUnmask dt n] →
      exec i s = .next s0

/-- A host write of a word to channel 0 to 3, a core's push, a host read and a core's pop. A push into a queue with space appends the word, seen by its reader within the stated time; a host write to a full queue is discarded, sets the channel's reject bit and is a Completer Abort of AER, a core's push ends in a bus error and changes nothing else. A pop of a queue whose first word its reader sees answers that word and removes it; a host read with none answers 0 and sets underrun, a core's pop changes nothing. The other direction and the other channels stand, and nothing outside the mailboxes, the host interface's counts, the output, the free values and the read data changes. -/
def Obligations.MailboxWords : Prop :=
  ∀ (dt c : Nat) (back : Bool) (w : Word) (s : State),
    let s0 := elapse dt s
    s0.mbx.chans.length = 14 →
    let now := s0.tbu.free
    let frame := fun (t : State) => t = { s0 with mbx := t.mbx, hif := t.hif, out := t.out, freeCtr := t.freeCtr, readData := t.readData } ∧
      ∀ k, k ≠ c → chanOf t k = chanOf s0 k
    (barOpen s0 = true → c < 4 → ∃ t, exec (.mbxH2cWrite dt c w) s = .next t ∧ frame t ∧ (chanOf t c).back = (chanOf s0 c).back ∧
      ((chanOf s0 c).fwd.space now ≠ 0 → ∃ e, (chanOf t c).fwd.q = (chanOf s0 c).fwd.q ++ [⟨w, e⟩] ∧ now ≤ e ∧ e ≤ now + mbxWake) ∧
      ((chanOf s0 c).fwd.space now = 0 → (chanOf t c).fwd = (chanOf s0 c).fwd ∧ (chanOf t c).reject = true ∧ bitOf t.mbx.event (8 + c) = true ∧
        t.hif.advisory = true ∧ t.hif.abort = some (0xE0100 + c * 0x20))) ∧
    (barOpen s0 = true → c < 4 → ∃ t, exec (.mbxC2hRead dt c) s = .next t ∧ frame t ∧ (chanOf t c).fwd = (chanOf s0 c).fwd ∧
      (∀ e q, (chanOf s0 c).back.q = e :: q → e.at_ ≤ now → t.readData = e.word ∧ (chanOf t c).back.q = q) ∧
      ((∀ e q, (chanOf s0 c).back.q = e :: q → now < e.at_) → t.readData = 0 ∧ (chanOf t c).back.q = (chanOf s0 c).back.q ∧
        (chanOf t c).underrun = true)) ∧
    (s0.sys.ready = true → c < 14 → (c < 4 → back = true) → ∃ t, exec (.mbxCorePush dt c back w) s = .next t ∧ frame t ∧
      (chanOf t c).dir (!back) = (chanOf s0 c).dir (!back) ∧
      (((chanOf s0 c).dir back).space now ≠ 0 → ∃ e, ((chanOf t c).dir back).q = ((chanOf s0 c).dir back).q ++ [⟨w, e⟩] ∧ now ≤ e ∧ e ≤ now + mbxWake) ∧
      (((chanOf s0 c).dir back).space now = 0 → t = { s0 with out := s0.out ++ [.busError c back] })) ∧
    (s0.sys.ready = true → c < 14 → (c < 4 → back = false) → ∃ t, exec (.mbxCorePop dt c back) s = .next t ∧ frame t ∧
      (chanOf t c).dir (!back) = (chanOf s0 c).dir (!back) ∧
      (∀ e q, ((chanOf s0 c).dir back).q = e :: q → e.at_ ≤ now → t.readData = e.word ∧ ((chanOf t c).dir back).q = q) ∧
      ((∀ e q, ((chanOf s0 c).dir back).q = e :: q → now < e.at_) → t = s0))

/-- MBX_C2H_ACK and a core's acknowledgement store the word; the direction's timer is disarmed where its SEQ is the one named and stands otherwise; no queue changes. MBX_TIMEOUT of a direction whose timer ran out disarms it and, on channels 0 to 3, sets the channel's timeout bit; of one that has not run out, or with no timer, nothing changes. A read of a free lock 0 to 15 by the host or by core 0 to 3 gives it to the reader and answers ACQUIRED; a read of a held lock answers its holder and changes nothing. A write of 1 to RELEASE frees the lock whoever writes, a write of 0 changes nothing. The other locks stand, and nothing but the locks and the read data changes. -/
def Obligations.MailboxAcksAndLocks : Prop :=
  ∀ (dt c k who : Nat) (back : Bool) (v : Word) (s : State),
    let s0 := elapse dt s
    let now := s0.tbu.free
    let acked := fun (b : Bool) (t : State) => t = { s0 with mbx := t.mbx, hif := t.hif, out := t.out } ∧
      (∀ k, k ≠ c → chanOf t k = chanOf s0 k) ∧ ((chanOf t c).dir b).ack = v ∧ ((chanOf t c).dir b).q = ((chanOf s0 c).dir b).q ∧
      (chanOf t c).dir (!b) = (chanOf s0 c).dir (!b) ∧
      ((chanOf t c).dir b).timer = (((chanOf s0 c).dir b).timer.filter fun m => decide (m.seq ≠ fld v.toNat 31 16))
    (s0.mbx.chans.length = 14 →
      (barOpen s0 = true → c < 4 → ∃ t, exec (.mbxC2hAck dt c v) s = .next t ∧ acked true t) ∧
      (s0.sys.ready = true → c < 14 → (c < 4 → back = false) → ∃ t, exec (.mbxCoreAck dt c back v) s = .next t ∧ acked back t) ∧
      (s0.sys.ready = true → c < 14 → ∃ t, exec (.mbxTimeout dt c back) s = .next t ∧
        (∀ m, ((chanOf s0 c).dir back).timer = some m → m.at_ + ackMs s0 * 1000000 * fr < now →
          t = { s0 with mbx := t.mbx, hif := t.hif, log := t.log, out := t.out } ∧ ((chanOf t c).dir back).timer = none ∧
          ((chanOf t c).dir back).q = ((chanOf s0 c).dir back).q ∧ (c < 4 → (chanOf t c).timeout = true)) ∧
        ((∀ m, ((chanOf s0 c).dir back).timer = some m → now ≤ m.at_ + ackMs s0 * 1000000 * fr) → t = s0))) ∧
    (k < 16 → s0.mbx.locks.length = 16 → who ≤ 4 → (who = 0 → barOpen s0 = true) → s0.sys.ready = true →
      (∃ t, exec (.mbxLockRead dt k who) s = .next t ∧ t = { s0 with mbx := { s0.mbx with locks := t.mbx.locks }, readData := t.readData } ∧
        (nth s0.mbx.locks k none = none → t.mbx.locks = setAt s0.mbx.locks k (some who) ∧ bitOf t.readData 31 = true ∧
          fld t.readData.toNat 2 0 = who) ∧
        (∀ o, nth s0.mbx.locks k none = some o → t.mbx.locks = s0.mbx.locks ∧ bitOf t.readData 31 = false ∧ fld t.readData.toNat 2 0 = o % 8)) ∧
      exec (.mbxLockRelease dt ⟨k, who⟩ v) s =
        .next (if bitOf v 0 then { s0 with mbx := { s0.mbx with locks := setAt s0.mbx.locks k none } } else s0))

/-- An untagged frame of 64 octets to the port's maximum with a good FCS that is neither PTP nor MAC Control and whose IP and UDP parts pass, on a port that is up, no PRP pair and no bridge: it enters the receive FIFO with no error flag and counts RX_OK, or, where the FIFO is full, counts the overflow. With a bad FCS and DELIVER_BAD 0 it counts RX_FCS_ERR only. On a port that is down nothing is received. Only this port, the accounting of running EMIT tasks, the host interface and the output change. -/
def Obligations.FrameReceived : Prop :=
  ∀ (dt p : Nat) (b : List Byte) (s : State),
    let s0 := elapse dt s
    s0.sys.ready = true → p < 4 → s0.net.ports.length = 4 →
    let q := portOf s0 p
    let n := b.length
    let good := (crc32 (b.take (n - 4))).toNat = leNat (b.drop (n - 4))
    ∃ t, exec (.portFrameReceive dt p (.frame b)) s = .next t ∧ OnlyPorts { s0 with tkx := (accountEmits s0).tkx } t ∧
      (bridged s0 p = false → paired s0 p = false → ∀ k, k ≠ p → portOf t k = portOf s0 k) ∧
      (q.linkUp = false → t = accountEmits s0) ∧
      (q.linkUp = true → 64 ≤ n → n ≤ q.max → n ≤ 16383 → paired s0 p = false → bridged s0 p = false →
        (¬ good → q.deliverBad = false → (portOf t p).rx = q.rx ∧ (portOf t p).cnt = modAt q.cnt 5 (satAdd · 1)) ∧
        (good → beAt b 12 2 ∉ [0x88A8, 0x8100, 0x8808, 0x88F7] → judgeIp (beAt b 12 2) ((b.take (n - 4)).drop 14) = .ok →
          (q.rx.length < 64 → (portOf t p).cnt = modAt q.cnt 0 (satAdd · 1) ∧ ∃ x, (portOf t p).rx = q.rx ++ [x] ∧ x.bytes = b ∧
            x.st.port = p ∧ x.st.length = n ∧ x.st.fcsErr = false ∧ x.st.ipErr = false ∧ x.st.udpErr = false ∧ x.st.runt = false ∧
            x.st.oversize = false ∧ x.arr = discTime s0) ∧
          (64 ≤ q.rx.length → (portOf t p).rx = q.rx ∧ (portOf t p).cnt = modAt q.cnt 7 (satAdd · 1) ∧ bitOf t.net.event 11 = true)))

/-- PORT_FRAME_TRANSMIT on a port that is up, awake, not paused and with a free line: the first express frame starts; with none, a suspended frame resumes; with neither, the first preemptable frame starts; a started frame without a PTP mark leaves as it is, and frames that waited for room enter the transmit FIFO. A port that is to shift to another rate renegotiates then. A port whose link is down loses what waits. -/
def Obligations.FrameTransmitted : Prop :=
  ∀ (dt p : Nat) (f : TxFrame) (r : List TxFrame) (s : State),
    let s0 := elapse dt s
    s0.sys.ready = true → p < 4 → s0.net.ports.length = 4 →
    let now := s0.tbu.free
    let q := portOf s0 p
    (q.linkUp = false → ∃ t, exec (.portFrameTransmit dt p) s = .next t ∧ (portOf t p).express = [] ∧ (portOf t p).pre = [] ∧
      (portOf t p).line = none ∧ ∀ k, k ≠ p → portOf t k = portOf s0 k) ∧
    (∀ d, q.linkUp = true → pausedNow s0 p = false → q.wakeAt ≤ now → (∀ l, q.line = some l → lineEnd q l ≤ now) → q.dsPend = some d →
      q.suspended = none → ∃ t, exec (.portFrameTransmit dt p) s = .next t ∧ (portOf t p).linkUp = false ∧ (portOf t p).dsActive = d ∧
        (portOf t p).dsPend = none) ∧
    (q.linkUp = true → pausedNow s0 p = false → q.wakeAt ≤ now → (∀ l, q.line = some l → lineEnd q l ≤ now) → q.dsPend = none → f.mark = .none →
      (q.express = f :: r → ∃ t, exec (.portFrameTransmit dt p) s = .next t ∧ (portOf t p).express = r ∧ (portOf t p).pre = q.pre ∧
        (portOf t p).suspended = q.suspended ∧ ((portOf t p).line.map fun l => (l.frame, l.express, l.at_)) = some (f, true, now) ∧
        Out.frame p f.body f.rct ∈ t.out) ∧
      (q.express = [] → q.suspended = none → q.pre = f :: r → ∃ t, exec (.portFrameTransmit dt p) s = .next t ∧ (portOf t p).express = [] ∧
        (portOf t p).pre = r ++ q.todo.take (64 - r.length) ∧ (portOf t p).todo = q.todo.drop (64 - r.length) ∧ ((portOf t p).line.map fun l => (l.frame, l.express, l.at_)) = some (f, false, now) ∧
        Out.frame p f.body f.rct ∈ t.out) ∧
      (∀ l, q.express = [] → q.suspended = some l → ∃ t, exec (.portFrameTransmit dt p) s = .next t ∧ (portOf t p).pre = q.pre ∧
        (portOf t p).suspended = none ∧ (portOf t p).line = some { l with at_ := now }))

/-- LINK_UP of a port whose calibration passed, down and in a mode other than 000: the link is up at the speed of its mode, or of 10 Gb/s where it is downshifted; under Clause 73 its base page left. LINK_DOWN of a port that is up: the link is down, both queues and the line are empty, no pause and no low-power idle is in force. PAUSE_TIMER_EXPIRY of a pause that has ended clears it. The other ports stand, and only the ports, the accounting of EMIT tasks, the EMIT_MARKs that wait, the host interface and the output change. -/
def Obligations.LinkChanges : Prop :=
  ∀ (dt p : Nat) (l : LinkIn) (s : State),
    let s0 := elapse dt s
    s0.sys.ready = true → p < 4 → s0.net.ports.length = 4 →
    let a := { s0 with tkx := (accountEmits s0).tkx }
    let q := portOf s0 p
    let others := fun (t : State) => ∀ k, k ≠ p → portOf t k = portOf s0 k
    let marked := fun (t : State) => OnlyPorts { a with pair := { s0.pair with toMark := t.pair.toMark } } t
    (s0.sys.laneBad.testBit p = false → q.linkUp = false → q.mode ≠ 0 →
      ∃ t, exec (.linkUp dt p l) s = .next t ∧ OnlyPorts s0 t ∧ others t ∧ (portOf t p).linkUp = true ∧
        (portOf t p).speed = (if q.dsActive then 3 else q.mode) ∧ (portOf t p).express = q.express ∧
        (q.anEn = true → clause73 (portOf t p).speed = true → Out.basePage p (basePage (portOf t p).speed q.mode q.fec) ∈ t.out)) ∧
    (s0.sys.laneBad.testBit p = true ∨ q.linkUp = true ∨ q.mode = 0 → exec (.linkUp dt p l) s = .next s0) ∧
    (q.linkUp = true → ∃ t, exec (.linkDown dt p) s = .next t ∧ marked t ∧ others t ∧ (portOf t p).linkUp = false ∧
      (portOf t p).express = [] ∧ (portOf t p).pre = [] ∧ (portOf t p).line = none ∧ (portOf t p).pause = none ∧ (portOf t p).lpiTx = false) ∧
    (∀ b e, q.pause = some (b, e) → ∃ t, exec (.pauseTimerExpiry dt p) s = .next t ∧ OnlyPorts a t ∧ others t ∧
      (portOf t p).pause = (if s0.tbu.free < e then some (b, e) else none) ∧ (portOf t p).express = q.express ∧ (portOf t p).pre = q.pre)

/-- A verification attempt that ran out is repeated with one more mPacket, and after three attempts verification has failed. A port with LPI enabled whose link partner has EEE, idle for IDLE_US at 10 Gb/s or more with nothing to send, enters low-power idle. After one second the downshift interval restarts its counts; a port that may downshift and whose traffic was low for HOLD intervals shifts, at once or at the end of the frame in transmission. A DS write that enables with limits not ordered is refused; another is stored with its fields in range, ENABLE cleared where the port may not downshift. -/
def Obligations.PortTimers : Prop :=
  ∀ (dt p : Nat) (v : Word) (s : State),
    let s0 := elapse dt s
    s0.sys.ready = true → p < 4 → s0.net.ports.length = 4 →
    let now := s0.tbu.free
    let q := portOf s0 p
    let others := fun (t : State) => ∀ k, k ≠ p → portOf t k = portOf s0 k
    let marked := fun (t : State) =>
      OnlyPorts { s0 with tkx := (accountEmits s0).tkx, pair := { s0.pair with toMark := t.pair.toMark } } t
    (q.verify = .verifying → q.verifyAt ≤ now → ∃ t, exec (.preemptVerifyTimer dt p) s = .next t ∧ OnlyPorts s0 t ∧ others t ∧
      (q.attempts < 3 → (portOf t p).verify = .verifying ∧ (portOf t p).attempts = q.attempts + 1 ∧ t.out = s0.out ++ [.mpacket p false]) ∧
      (3 ≤ q.attempts → (portOf t p).verify = .failed ∧ bitOf t.net.event 7 = true)) ∧
    (q.linkUp = true → bitOf q.lpi 0 = true → q.eee = true → q.lpiTx = false → q.line = none → q.suspended = none → q.express = [] → q.pre = [] →
      q.todo = [] → 10000 ≤ mbpsOf q.speed → q.idleAt + fld q.lpi.toNat 15 4 * 1000 * fr ≤ now →
      ∃ t, exec (.lpiIdleTimer dt p) s = .next t ∧ t = { s0 with net := { s0.net with ports := t.net.ports } } ∧ others t ∧
        portOf t p = { q with lpiTx := true, cnt := modAt q.cnt 27 (satAdd · 1) }) ∧
    (q.dsAt + secFr ≤ now → ∃ t, exec (.dsInterval dt p) s = .next t ∧ marked t ∧ others t ∧ (portOf t p).dsAt = now ∧
      (portOf t p).dsRx = 0 ∧ (portOf t p).dsTx = 0 ∧ (q.dsEn = false → (portOf t p).dsActive = q.dsActive) ∧
      (q.dsEn = true → q.anEn = true → (q.mode = 5 ∨ q.mode = 6) → q.dsPend = none → q.dsActive = false → q.dsRx * 800 < fld q.ds.toNat 15 8 * 10000000000 → q.dsTx * 800 < fld q.ds.toNat 15 8 * 10000000000 →
        fld q.ds.toNat 31 24 ≤ q.dsLow + 1 → if sending q now then (portOf t p).dsPend = some true ∧ (portOf t p).dsActive = false else
          (portOf t p).dsActive = true ∧ (portOf t p).linkUp = false)) ∧
    (barOpen s0 = true → ∃ t, exec (.dsEnableWrite dt p v) s = .next t ∧ marked t ∧ others t ∧
      (bitOf v 0 = true → fld v.toNat 23 16 ≤ fld v.toNat 15 8 → (portOf t p) = q ∧ bitOf t.net.event 4 = true) ∧
      (bitOf v 0 = false ∨ fld v.toNat 15 8 < fld v.toNat 23 16 → (portOf t p).ds ||| 1#32 = dsFields v ||| 1#32 ∧
        ((portOf t p).dsEn = true → bitOf v 0 = true ∧ (q.mode = 5 ∨ q.mode = 6) ∧ q.anEn = true ∧ q.alarmEgress = false ∧ ptpPort s0 p = false)))

/-- A one-step Sync, or the Follow_Up of a two-step one, that a LOCKED domain accepts from its master and that is no path step: the domain's θ and D are those of the message, SYNC_CNT counts it, TIME_EPOCH stands, and the domain's time at that instant is what it was. A two-step Sync waits for its Follow_Up with its receive time and gives no sample. Only the Sextant, the Logbook's intake, the host interface, the free values and the output change before the Helm goes on. -/
def Obligations.SyncSteersWithoutStep : Prop :=
  ∀ (dt : Nat) (x : DomId) (m : SyncIn) (f : FollowUpIn) (s : State),
    let s0 := elapse dt s
    s0.sys.ready = true →
    let d := getDom x s0
    let now := s0.tbu.free
    let th := fld s0.tbu.pathStepTh.toNat 23 0
    let sampled := fun (θ dd : Int) (u : State) => OnlyTime s0 u ∧ (getDom x u).theta = θ ∧ (getDom x u).pathD = dd ∧
      (getDom x u).syncCnt = satAdd d.syncCnt 1 ∧ domTimeAt (getDom x u) now = domTimeAt d now ∧ u.tbu.epoch = s0.tbu.epoch ∧ u.tbu.free = now
    (accepts x m.port m.num s0 = true → accepts (otherDom x) m.port m.num s0 = false → fromParent d m.source m.port = true → -4 ≤ m.logInt →
      m.logInt ≤ 1 → d.st = .locked →
      (m.twoStep = false → isPathStep d (meanLink s0 m.port + m.corr) th = false →
        ∃ u, exec (.ptpSyncReceive dt m) s = .next (drainMirrored (settle u)) ∧
          sampled (ptpFr m.t1 + (meanLink s0 m.port + m.corr) + asymFr s0 m.port - domTimeAt d now) (meanLink s0 m.port + m.corr) u) ∧
      (m.twoStep = true → ∃ u, exec (.ptpSyncReceive dt m) s = .next (drainMirrored (settle u)) ∧ OnlyTime s0 u ∧
        ((getDom x u).twoStep.map fun p => (p.port, p.source, p.seq, p.t2)) = some (m.port, m.source, m.seq, domTimeAt d now) ∧
        (getDom x u).theta = d.theta ∧ (getDom x u).rate = d.rate ∧ (getDom x u).offset = d.offset)) ∧
    (∀ p, d.twoStep = some p → (getDom (otherDom x) s0).twoStep = none → accepts x f.port f.num s0 = true → p.port = f.port → p.source = f.source →
      p.seq = f.seq → d.st = .locked → isPathStep d (meanLink s0 f.port + f.corr) th = false →
      ∃ u, exec (.ptpFollowUpReceive dt f) s = .next (drainMirrored (settle u)) ∧
        sampled (ptpFr f.t1 + (meanLink s0 f.port + f.corr) + asymFr s0 f.port - p.t2) (meanLink s0 f.port + f.corr) u)

/-- In ACQUIRE the first sample of the selected domain while TIME_SET is 0, outside RUN with nothing scheduled, is a direct set of OFFSET, sets TIME_SET and, where it is not 0, starts a new epoch. A Sync in DEAD_RECKONING leaves the domain's time at that instant as it is, and its offset and rate where no phase term of PPS_IN is in force. An Announce on a FREERUN domain that gives it its first qualified master leads to ACQUIRE. Without Announce for three intervals the domain is FREERUN; without Sync for three intervals a domain in LOCKED, ACQUIRE or REQUALIFY is in DEAD_RECKONING, and its time at that instant is what it was. -/
def Obligations.SourceStates : Prop :=
  ∀ (dt : Nat) (x : DomId) (m : SyncIn) (s : State),
    let s0 := elapse dt s
    s0.sys.ready = true →
    let d := getDom x s0
    let now := s0.tbu.free
    let dd := meanLink s0 m.port + m.corr
    let θ := ptpFr m.t1 + dd + asymFr s0 m.port - domTimeAt d now
    (accepts x m.port m.num s0 = true → accepts (otherDom x) m.port m.num s0 = false → fromParent d m.source m.port = true → -4 ≤ m.logInt →
      m.logInt ≤ 1 → m.twoStep = false →
      (d.st = .acquire → d.firstAcq = true → isSel x s0 = true → s0.tbu.timeSet = false → s0.sys.runState ≠ .run → s0.hif.sched = [] →
        d.dRef = [] → d.good = 0 →
        ∃ u, exec (.ptpSyncReceive dt m) s = .next (drainMirrored (settle u)) ∧ OnlyTime s0 u ∧ (getDom x u).offset = d.offset + θ ∧
          u.tbu.timeSet = true ∧ (getDom x u).firstAcq = false ∧ u.tbu.epoch = (if θ = 0 then s0.tbu.epoch else (s0.tbu.epoch + 1) % 256)) ∧
      (d.st = .deadReckoning → ∃ u, exec (.ptpSyncReceive dt m) s = .next (drainMirrored (settle u)) ∧ OnlyTime s0 u ∧
        domTimeAt (getDom x u) now = domTimeAt d now ∧ (d.rate = rateOf d.freq → (getDom x u).offset = d.offset ∧ (getDom x u).rate = d.rate) ∧
        (getDom x u).theta = d.theta ∧
        ((getDom x u).st = .deadReckoning ∨ (getDom x u).st = .requalify))) ∧
    (∀ p num a g, p < 4 → accepts x p num s0 = true → accepts (otherDom x) p num s0 = false → d.st = .freerun → d.gm = none →
      bestOf (noteForeign p a now d.foreign) now = some g →
      ∃ t, exec (.ptpAnnounceReceive dt p num a) s = .next t ∧ (getDom x t).st = .acquire ∧ (getDom x t).gm = some g ∧ t.net = s0.net ∧ t.kst = s0.kst) ∧
    (∀ g, d.gm = some g → (g.times.headD 0) + 3 * intervalFr g.ann.logInt ≤ now →
      ∃ t, exec (.announceTimeout dt x) s = .next t ∧ OnlyTime s0 t ∧ (getDom x t).st = .freerun ∧ (getDom x t).gm = none ∧
        ((getDom (otherDom x) s0).st ≠ .locked → t.tbu.ctrl = s0.tbu.ctrl)) ∧
    (∀ l, d.lastSync = some l → l + 3 * intervalFr d.syncLog ≤ now → d.st = .locked ∨ d.st = .acquire ∨ d.st = .requalify →
      ∃ t, exec (.syncTimeout dt x) s = .next t ∧ OnlyTime s0 t ∧ (getDom x t).st = .deadReckoning ∧ (getDom x t).dwell = some .firstSync ∧
        ((getDom (otherDom x) s0).st ≠ .locked → domTimeAt (getDom x t) now = domTimeAt d now))

/-- On a port with PTP whose link is up and awake with room for express frames, PDELAY_REQUEST_TIMER queues a request with the next sequence number; a request received is answered by an express frame; a one-step response of that sequence number gives mean delay ((t4 − t1) − correction) / 2. Only the port, the delay measurement, the host interface and the output change. -/
def Obligations.PdelayMeasured : Prop :=
  ∀ (dt p : Nat) (s : State),
    let s0 := elapse dt s
    s0.sys.ready = true → p < 4 → s0.net.ports.length = 4 → s0.tbu.pdelay.length = 4 → pdelayOn s0 p = true →
    (portOf s0 p).linkUp = true → (portOf s0 p).express.length < 1088 → (portOf s0 p).lpiTx = false →
    let d := nth s0.tbu.pdelay p Pdelay.reset
    (∃ t f, exec (.pdelayRequestTimer dt p) s = .next t ∧ (portOf t p).express = (portOf s0 p).express ++ [f] ∧ f.mark = .pdelayReq ((d.seq + 1) % 65536) ∧
      t = { s0 with net := t.net, tbu := { s0.tbu with pdelay := t.tbu.pdelay }, hif := t.hif, out := t.out } ∧
      t.tbu.pdelay = modAt s0.tbu.pdelay p fun d => { d with seq := (d.seq + 1) % 65536, t1 := none, resp := none }) ∧
    (∀ src seq dom, ∃ t f, exec (.pdelayReceive dt p (.req src seq dom)) s = .next t ∧ (portOf t p).express = (portOf s0 p).express ++ [f] ∧
      f.mark = .pdelayResp src seq dom ∧ OnlyPorts s0 t) ∧
    (∀ t1 t2 corr, d.t1 = some t1 → ∃ t, exec (.pdelayReceive dt p (.resp d.seq t2 corr false)) s = .next t ∧
      t = { s0 with tbu := { s0.tbu with pdelay := t.tbu.pdelay } } ∧
      t.tbu.pdelay = modAt s0.tbu.pdelay p fun d => { d with mean := rneDiv ((s0.tbu.free : Int) - t1 - corr) 2, t1 := none, resp := none })

/-- A rising edge of PPS_IN less than 500 ns after the one before it, or with PPS_IN_EN 0, is none. Another, 1 s ± 100 µs after the last accepted one, is accepted, counted, and after three in a row PPS is valid; another is counted as rejected and starts the run anew, and one with no accepted edge before it is kept as the edge from which the next is measured (the model's reading, log 10). After 2 s with no accepted edge PPS is not valid. HOLDOVER_LIMIT, with a holdover time beyond TBU_HOLDOVER_LIMIT or another condition of R91, sets TIME_SUSPECT, and with none changes nothing. -/
def Obligations.PpsInAndHoldover : Prop :=
  ∀ (dt : Nat) (s : State),
    let s0 := elapse dt s
    s0.sys.ready = true →
    let now := s0.tbu.free
    let p := s0.tbu.pps
    let ok := ∃ t, p.lastAcc = some t ∧ t + secFr - 100000 * fr ≤ now ∧ now ≤ t + secFr + 100000 * fr
    let far := ∀ t, p.rise = some t → t + 500 * fr ≤ now
    let sees := fun (q : Pps) => { s0 with tbu := { s0.tbu with pps := { q with rise := some now } } }
    (bitOf p.cfg 1 = true → far → ok → ∃ t, exec (.ppsInEdge dt) s = .next t ∧ OnlyTime s0 t ∧ t.tbu.pps.lastAcc = some now ∧
      t.tbu.pps.run = p.run + 1 ∧ (t.tbu.pps.valid = true ↔ p.valid = true ∨ 3 ≤ p.run + 1) ∧
      fld t.tbu.pps.inCnt.toNat 15 0 = min 65535 (fld p.inCnt.toNat 15 0 + 1)) ∧
    (bitOf p.cfg 1 = true → far → ¬ ok → ∃ w, exec (.ppsInEdge dt) s =
      .next (sees { p with inCnt := w, lastAcc := p.lastAcc.orElse fun _ => some now, run := 0 }) ∧
      fld w.toNat 31 16 = min 65535 (fld p.inCnt.toNat 31 16 + 1)) ∧
    (bitOf p.cfg 1 = false ∨ ¬ far → exec (.ppsInEdge dt) s = .next (sees p)) ∧
    (∀ a, p.lastAcc = some a → a + 2 * secFr ≤ now → ∃ t, exec (.ppsInLost dt) s = .next t ∧ OnlyTime s0 t ∧ t.tbu.pps.valid = false ∧
      t.tbu.pps.lastAcc = none ∧ t.tbu.pps.run = 0 ∧ discTime t = discTime s0) ∧
    (suspectHeld s0 = true → ∃ t, exec (.holdoverLimit dt) s = .next t ∧ OnlyTime s0 t ∧ t.tbu.suspect = true ∧ t.tbu.lastBad = some now ∧
      discTime t = discTime s0) ∧
    (∀ l, (selDom s0).leftLocked = some l → l + fld s0.tbu.holdLimit.toNat 15 0 * secFr < now → suspectHeld s0 = true) ∧
    (suspectHeld s0 = false → exec (.holdoverLimit dt) s = .next s0)

/-- When disciplined time enters a second for which no edge was made, with PPS_OUT enabled and TIME_SET and no hold after a step, PPS_OUT rises and is due to fall after WIDTH_US; in a second whose edge was made, with PPS_OUT disabled or with TIME_SET 0 nothing happens. PPS_OUT_FALL at its instant ends the pulse, and before it changes nothing. -/
def Obligations.PpsOut : Prop :=
  ∀ (dt : Nat) (s : State),
    let s0 := elapse dt s
    s0.sys.ready = true →
    let now := s0.tbu.free
    let p := s0.tbu.pps
    let sec := discTime s0 / (secFr : Int)
    (bitOf p.cfg 0 = true → s0.tbu.timeSet = true → (∀ h, p.holdTo = some h → h ≤ sec * (secFr : Int)) → p.lastSec ≠ some sec →
      let q := { p with out := true, fallAt := some (now + fld p.cfg.toNat 31 12 * 1000 * fr), holdTo := none, lastSec := some sec }
      exec (.ppsOutSecond dt) s = .next { s0 with tbu := { s0.tbu with pps := q } }) ∧
    (bitOf p.cfg 0 = false ∨ s0.tbu.timeSet = false ∨ p.lastSec = some sec → exec (.ppsOutSecond dt) s = .next s0) ∧
    (∀ f, p.fallAt = some f → exec (.ppsOutFall dt) s = .next (if now < f then s0 else { s0 with tbu := { s0.tbu with pps := { p with out := false, fallAt := none } } })) ∧
    (p.fallAt = none → exec (.ppsOutFall dt) s = .next s0)

/-- A write of 1 to TBU_SNAP stores TBU_FREE, disciplined time, both domains' times and TIME_EPOCH as they stand and nothing else. Selecting the other domain, not DISABLED, with AUTO_SEL 0 leaves disciplined time as it is; selecting a DISABLED one is refused. Enabling a domain leads to FREERUN, disabling it to DISABLED, without its grandmaster. RTC_UPDATE with time set and not suspect, at least 60 s after the last, stores the TAI second of disciplined time. -/
def Obligations.TimeRegisters : Prop :=
  ∀ (dt : Nat) (x : DomId) (v : Word) (s : State),
    let s0 := elapse dt s
    (barOpen s0 = true → bitOf v 0 = true → ∃ b, exec (.tbuSnap dt v) s = .next { s0 with tbu := b } ∧ b.snapEpoch = s0.tbu.epoch ∧
      b.snapFree = s0.tbu.free ∧ b.snapTime = discTime s0 ∧ b.snapA = domTimeAt s0.tbu.domA b.free ∧ b.snapB = domTimeAt s0.tbu.domB b.free ∧
      b = { s0.tbu with snapEpoch := b.snapEpoch, snapFree := b.snapFree, snapTime := b.snapTime, snapA := b.snapA, snapB := b.snapB }) ∧
    (barOpen s0 = true → bitOf v 0 = false → exec (.tbuSnap dt v) s = .next s0) ∧
    (barOpen s0 = true → bitOf v 1 = false →
      let y : DomId := if bitOf v 0 then .b else .a
      ∃ t, exec (.tbuCtrlWrite dt v) s = .next t ∧ OnlyTime s0 t ∧ discTime t = discTime s0 ∧
        (selId t = if isSel y s0 || (getDom y s0).st = .disabled then selId s0 else y) ∧
        (isSel y s0 = false → (getDom y s0).st = .disabled → bitOf t.tbu.event 11 = true)) ∧
    (barOpen s0 = true → bitOf v 16 = !(getDom x s0).enabled → ∃ t, exec (.tbuDcfgWrite dt x v) s = .next t ∧ (getDom x t).enabled = bitOf v 16 ∧
      (getDom x t).st = (if bitOf v 16 then .freerun else .disabled) ∧ (getDom x t).gm = none ∧ t.kst = s0.kst ∧ t.tbu.free = s0.tbu.free) ∧
    (s0.sys.ready = true → s0.tbu.timeSet = true → s0.tbu.suspect = false → (∀ w, s0.kst.rtcWr = some w → w + 60 * secFr ≤ s0.tbu.free) →
      exec (.rtcUpdate dt) s = .next { s0 with kst := { s0.kst with rtc := secOf (discTime s0), rtcAt := s0.sys.aon, rtcWr := some s0.tbu.free } })

/-- INGEST_FRAME with an empty receive FIFO does nothing. A frame whose engine, that of its stream or for another frame any, cannot accept it waits. Any other leaves the receive FIFO, and the PTP frames behind it for the Sextant; only Ingest, points, grid-edge reports, the journal, fault counters, the ports, the host interface and the output change. A flagged frame is counted and gives no packet. In RUN, a C37.118.2 data frame of a stream of one block, from its ports and VLAN, with its configuration agreed and its values inside it, gives one packet of converted values: at the tail of the FIFO of its stream's engine where it fits, else its engine holds the rest and accepts no other frame. -/
def Obligations.FramesJudged : Prop :=
  ∀ (dt p : Nat) (w : Option Spdu) (s : State),
    let s0 := elapse dt s
    s0.sys.ready = true → p < 4 → s0.net.ports.length = 4 → s0.ing.fifos.length = 16 →
    let q := portOf s0 p
    let c := fun (k : Nat) => modAt s0.ing.cnt k (satAdd · 1)
    (q.rx = [] → exec (.ingestFrame dt p w) s = .next s0) ∧
    (∀ f r, q.rx = f :: r →
      (engineFor s0 f = none → ∃ t, exec (.ingestFrame dt p w) s = .next t ∧ t = { s0 with ing := { s0.ing with leap := t.ing.leap } }) ∧
      (∀ n, engineFor s0 f = some n → ∃ t, exec (.ingestFrame dt p w) s = .next t ∧ OnlyIngest s0 t ∧
        (portOf t p).rx = r.dropWhile (fun f => etherType f.bytes = 0x88F7 && !(f.st.fcsErr || f.st.runt || f.st.oversize)) ∧
        (f.st.flagged = true → t.ing.cnt = c 4 ∧ t.ing.fifos = s0.ing.fifos ∧ t.sep = s0.sep ∧ t.ge = s0.ge) ∧
        (∀ u e0 e, f.st.flagged = false → etherType f.bytes = 0x0800 → udpOf f.bytes f.st.rct = some u → u.dport = fld s0.ing.portC37.toNat 15 0 →
          c37Kind u.data = .data → findC37 s0 u.src (beAt u.data 4 2) = some e0 → streamBlocks s0 e0 = [e0] → epOf s0 e0 = some e →
          s0.sys.runState = .run → (e.portMask >>> f.st.port) % 2 = 1 → e.srcPort = 0 ∨ e.srcPort = u.sport → e.vidCheck = false ∨ e.vid = f.st.vid →
          e.rt.mismatch = false → Machine.fits e.chans (u.data.length - 2) false = true → e.statOff + 4 ≤ u.data.length →
          t.ing.cnt = c 0 ∧ n = hashEngine u ∧ (∀ k, k ≠ n → fifoOf t k = fifoOf s0 k) ∧
          ∃ k, (if (fifoOf s0 n).level + k.words ≤ fifoCap then (fifoOf t n).pkts = (fifoOf s0 n).pkts ++ [k] ∧ (fifoOf t n).part = none
              else (fifoOf t n).pkts = (fifoOf s0 n).pkts ∧ (fifoOf t n).part.map Prod.fst = some k ∧ engineFree t n = false) ∧
            k.ep = e0 ∧ k.arrTs = f.st.ts32 ∧ k.injected = false ∧
            k.vals = e.chans.map fun d => convert true (fnomOf s0 e.system) d (u.data.take (u.data.length - 2)))))

/-- Bit n of ING_FIFO_FLUSH marks every packet of FIFO n for discard and touches no other FIFO; when the discard ends exactly those packets have left, what a stalled engine still held of its frames may follow, and ING_EVENT 9 is set. When the time to live of a GOOSE endpoint ends in RUN with no frame of it waiting to be judged that arrived in time, its entry and the points of its channels are STALE and the expiry is counted; before that, and outside RUN, nothing happens. TC_ENTRY_EXPIRE keeps exactly the entries of at most 2 s, PRP_ENTRY_FORGET exactly those of its pair younger than NET_PRP_FORGET, and nothing else changes. -/
def Obligations.EntriesExpire : Prop :=
  ∀ (dt n ep : Nat) (m : Word) (s : State),
    let s0 := elapse dt s
    s0.sys.ready = true → s0.ing.fifos.length = 16 → n < 16 →
    let f := fifoOf s0 n
    (barOpen s0 = true → ∃ t, exec (.ingFifoFlush dt m) s = .next t ∧ t = { s0 with ing := { s0.ing with fifos := t.ing.fifos } } ∧
      (fifoOf t n).pkts = f.pkts ∧ (fifoOf t n).flush = (if bitOf m n then some f.pkts.length else f.flush)) ∧
    (f.flush = none → exec (.flushDone dt n) s = .next s0) ∧
    (∀ k, f.flush = some k → ∃ t, exec (.flushDone dt n) s = .next t ∧ t = { s0 with ing := t.ing, hif := t.hif, out := t.out } ∧
      (∀ j, j ≠ n → fifoOf t j = fifoOf s0 j) ∧ (fifoOf t n).flush = none ∧ f.pkts.drop k <+: (fifoOf t n).pkts ∧
      (engineFree s0 n = true → (fifoOf t n).pkts = f.pkts.drop k) ∧ bitOf t.ing.event 9 = true ∧ t.ing.cnt = s0.ing.cnt) ∧
    (∀ e a, epOf s0 ep = some e → e.rt.talAt = some a →
      (s0.tbu.free < a ∨ s0.sys.runState ≠ .run → exec (.gooseTalExpiry dt ep) s = .next s0) ∧
      (a ≤ s0.tbu.free → s0.sys.runState = .run → pduWaits s0 e a = false → ∃ t, exec (.gooseTalExpiry dt ep) s = .next t ∧ OnlyIngest s0 t ∧ t.ge = s0.ge ∧ t.net = s0.net ∧ t.aln = s0.aln ∧ t.flt = s0.flt ∧ t.ing.fifos = s0.ing.fifos ∧
        t.ing.cnt = modAt s0.ing.cnt 18 (satAdd · 1) ∧ bitOf t.ing.event 10 = true ∧
        epOf t ep = some { e with rt := { e.rt with talAt := none, stale := true } } ∧
        ∀ d ∈ e.chans, ∀ x, lookupK s0.sep.points (chPoint d) = some x → lookupK t.sep.points (chPoint d) = some { x with stale := true })) ∧
    (let kept := s0.tbu.tc.filter fun e => decide (s0.tbu.free ≤ e.at_ + 2 * secFr)
     exec (.tcEntryExpire dt) s = .next { s0 with tbu := { s0.tbu with tc := kept } }) ∧
    (let lim := fld s0.net.prpForget.toNat 15 0 * 1000000 * fr
     exec (.prpEntryForget dt ep) s =
       .next { s0 with net := { s0.net with prp := modAt s0.net.prp ep (·.filter fun e => decide (s0.tbu.free < e.2.2 + lim)) } })

/-- TICK_BOUNDARY while values are placed moves Φ to the tick after the last one whose Tm is not later than disciplined time plus SKEW_TOL, never backward. PACKET_PLACE with the one head in FIFO n: off the grid, then beyond Φ, then late, then a duplicate, it is counted and placed nowhere; where its slot is not free it stays; otherwise its values stand in its tick with the deviation and quality of its placement, as an amendment where the tick is SPECULATIVE. Every other FIFO stands, and only FIFOs, the Churn, its overflow counter, the Helm's re-solves, the host interface and the output change before the Helm goes on. -/
def Obligations.PacketPlaced : Prop :=
  ∀ (dt n : Nat) (p : Pkt) (r : List Pkt) (s : State),
    let s0 := elapse dt s
    s0.sys.ready = true →
    let f := frate s0
    let g := (roundDiv ((p.tm * f : Nat) : Int) 1000000000).toNat
    let off : Int := ((p.tm * f : Nat) : Int) - ((g * 1000000000 : Nat) : Int)
    let c := fun (k : Nat) => nth s0.aln.cnt k 0#32
    let ends := fun (P : State → Prop) => ∃ u, exec (.packetPlace dt false) s = .next (drainMirrored (settle (drainMarks (settle u)))) ∧ OnlyChurn s0 u ∧ P u
    let gone := fun (u : State) => (fifoOf u n).pkts = r ∧ ∀ k, k ≠ n → fifoOf u k = fifoOf s0 k
    (s0.aln.placing = false → exec (.tickBoundary dt) s = .next s0) ∧
    (s0.aln.placing = true → 0 ≤ discTime s0 → ∃ t, exec (.tickBoundary dt) s = .next t ∧ t = { s0 with aln := { s0.aln with front := t.aln.front } } ∧
      s0.aln.front ≤ t.aln.front ∧
      ∀ k : Nat, s0.aln.front ≤ k → (k < t.aln.front ↔ (k * secFr : Int) ≤ (discTime s0 + ((skewTol s0 * fr : Nat) : Int)) * f)) ∧
    (winOf s0 5 = none → s0.aln.replay = none → n < 16 → s0.ing.fifos.length = 16 → s0.aln.cnt.length = 16 → headPkt s0 n = some p →
      (fifoOf s0 n).pkts = p :: r → engineFree s0 n = true → (∀ k, k ≠ n → headPkt s0 k = none) → p.waited = false →
      (snapTol s0 * f < off.natAbs → ends fun u => gone u ∧ u.aln.ticks = s0.aln.ticks ∧ nth u.aln.cnt 1 0#32 = satAdd (c 1) 1 ∧ bitOf u.aln.event 0 = true) ∧
      (off.natAbs ≤ snapTol s0 * f →
        (frontNow s0 < g → ends fun u => gone u ∧ u.aln.ticks = s0.aln.ticks ∧ nth u.aln.cnt 2 0#32 = satAdd (c 2) 1 ∧ bitOf u.aln.event 1 = true) ∧
        (g ≤ frontNow s0 →
          (s0.aln.placing = false ∨ (g < s0.aln.next ∧ tickOf s0 g = none) → ends fun u => gone u ∧ u.aln.ticks = s0.aln.ticks ∧
            nth u.aln.cnt 3 0#32 = satAdd (c 3) 1 ∧ bitOf u.aln.event 2 = true) ∧
          (∀ t v, s0.aln.placing = true → s0.aln.next ≤ g → tickOf s0 g = some t → lookupK t.eps p.ep = some v → ends fun u => gone u ∧
            nth u.aln.cnt 4 0#32 = satAdd (c 4) 1 ∧ nth u.aln.cnt 5 0#32 = satAdd (c 5) (b2n (v.vals ≠ p.vals ∨ v.flags ≠ p.flags))) ∧
          (s0.aln.placing = true → s0.aln.next ≤ g → lookupK (openTick g s0).eps p.ep = none →
            (slotFree s0 g = false → ends fun u => (fifoOf u n).pkts = { p with waited := true } :: r ∧ u.aln.ticks = s0.aln.ticks ∧
              nth u.aln.cnt 12 0#32 = satAdd (c 12) 1) ∧
            (slotFree s0 g = true → ends fun u => gone u ∧ nth u.aln.cnt 0 0#32 = satAdd (c 0) 1 ∧ ∃ v, lookupK (openTick g u).eps p.ep = some v ∧
              v.vals = p.vals ∧ v.flags = p.flags ∧ v.snap = rneDiv off f ∧ v.quality = qualityOf s0.tbu.suspect p.flags false)) ∧
          (∀ t, s0.aln.placing = true → g < s0.aln.next → tickOf s0 g = some t → t.st = .spec → max s0.aln.front (frontNow s0) < g + s0.aln.horizon →
            lookupK t.eps p.ep = none → ends fun u => gone u ∧ nth u.aln.cnt 6 0#32 = satAdd (c 6) 1 ∧ ∃ v, lookupK (openTick g u).eps p.ep = some v ∧
              v.vals = p.vals ∧ bitOf (v.quality.setWidth 32) 1 = true ∧ (openTick g u).amends = t.amends + 1 ∧ (openTick g u).view = t.view))))

/-- TICK_COMMIT in RUN on a module that is not paired, with no tick in progress, no SKIPPED group and no scheduled command waiting: where the oldest uncommitted tick is ready and the pipeline span has passed since the last commit, it commits: it takes the next TICK_SEQ, its values are frozen as placed, and the next commit waits for the pipeline span. Where it is not ready nothing is committed. With a tick still in progress that one ends first with TICK_OVERRUN, and the tick commits unless the overrun led to SAFE. -/
def Obligations.TickCommitted : Prop :=
  ∀ (dt : Nat) (s : State),
    let s0 := elapse dt s
    s0.sys.ready = true → s0.sys.runState = .run → s0.aln.placing = true → s0.sys.maintPend = none → s0.pair.st = .unpaired →
    s0.aln.skips = [] → s0.hif.sched = [] → s0.pair.switchAt = none →
    let g := s0.aln.next
    let due := (readyQuorum s0 g = true ∨ readyMax s0 g = true) ∧ s0.tkx.notBefore ≤ s0.tbu.free
    let took := fun (u : State) => u.tkx.lastSeq = some s0.tkx.nextSeq ∧ u.tkx.nextSeq = (s0.tkx.nextSeq + 1) % 2 ^ 32 ∧ u.aln.next = g + 1 ∧
      u.tkx.notBefore = s0.tbu.free + s0.sys.dp * fr ∧ u.tkx.shedLevels = 0
    (¬ due → ∃ u, exec (.tickCommit dt) s = .next (drainMirrored (settle (drainMarks (settle u)))) ∧ u = { s0 with aln := { s0.aln with front := u.aln.front } } ∧
      s0.aln.front ≤ u.aln.front) ∧
    (due → s0.tkx.cur = none → ∃ u, exec (.tickCommit dt) s = .next (drainMirrored (settle (drainMarks (settle u)))) ∧ took u ∧ u.tkx.overrunCnt = s0.tkx.overrunCnt ∧
      u.net.ports.length = s0.net.ports.length ∧ u.kst.slots = s0.kst.slots ∧ u.tbu.free = s0.tbu.free ∧
      (max s0.aln.front (frontNow s0) < g + s0.aln.horizon → ∃ t, tickOf u g = some t ∧ t.st = .spec ∧ t.seq = s0.tkx.nextSeq ∧ t.eps = (openTick g s0).eps ∧
        t.view = (openTick g s0).eps ∧ t.suspect = s0.tbu.suspect ∧ t.epoch = s0.tbu.epoch ∧ t.commitTs = ts32 s0)) ∧
    (∀ c, due → s0.tkx.cur = some c → ∃ u, exec (.tickCommit dt) s = .next (drainMirrored (settle (drainMarks (settle u)))) ∧
      u.tkx.overrunCnt = satAdd s0.tkx.overrunCnt 1 ∧ (took u ∨ u.sys.runState = .safe))

/-- TICK_FINAL: every SPECULATIVE tick whose FINAL instant has come is FINAL or has left the window, each counted once; no other tick changes its state or its values. -/
def Obligations.TickFinal : Prop :=
  ∀ (dt : Nat) (s : State),
    let s0 := elapse dt s
    s0.sys.ready = true → (s0.aln.ticks.map Tick.g).Nodup →
    let front := max s0.aln.front (frontNow s0)
    let due := fun (t : Tick) => t.st = .spec ∧ t.g + s0.aln.horizon ≤ front
    ∃ u, exec (.tickFinal dt) s = .next (drainMirrored (settle u)) ∧ u.aln.front = front ∧ u.aln.next = s0.aln.next ∧ u.kst.slots = s0.kst.slots ∧ u.ing = s0.ing ∧
      u.aln.cnt = modAt s0.aln.cnt 13 (satAdd · ((s0.aln.ticks.filter fun t => decide (due t)).length)) ∧
      (∀ t ∈ s0.aln.ticks, due t → ∀ x, tickOf u t.g = some x → x.st = .final) ∧
      (∀ t ∈ s0.aln.ticks, ¬ due t → ∃ x, tickOf u t.g = some x ∧ x.st = t.st ∧ x.eps = t.eps ∧ x.view = t.view)

/-- A group task of the Separator moves exactly its 256 chains on by the tick's values; a SEP task, an OSM update, a location update and the ring records' EMIT note their work as done in the tick, a SEP task past its deadline is counted in PHASE_LATE; a deferred update takes the oldest queue entry of its set, or of location. A port's EMIT hands its tick's frames over once, does not go on while the port is paused, waits while some of them wait for room in the transmit FIFO, and then notes the port as done. The task's entry ends and the Helm goes on. A task with an ordered flow has that effect when its flow releases it: until then its entry waits among the flow's ended ones and no engine's state changes. Where no such task runs nothing happens but that the Helm goes on. -/
def Obligations.EngineTasksEnd : Prop :=
  ∀ (dt k : Nat) (e : TEntry) (c : Cur) (t : Tick) (s : State),
    let s0 := elapse dt s
    s0.sys.ready = true → (s0.dfc.chains.map Prod.fst).Nodup →
    let runs := fun (w : Work) => runningCur (· = w) s0 = some (e, c, t)
    let after := fun (i : Instr) (P : State → Prop) => ∃ x, exec i s = .next (drainMirrored (settle (settle x))) ∧ x.kst.slots = s0.kst.slots ∧
      x.tbu.free = s0.tbu.free ∧ P x
    let gone := fun (x : State) (e : TEntry) => e.reReady = false → ∀ y ∈ x.tkx.entries, sameEntry y e = false
    let held := fun (i : Instr) (e : TEntry) => ∀ n, e.flow = some n → after i fun x => (flowOf x n).done = (flowOf s0 n).done ++ [(e, true)] ∧
      x.tkx.cur = s0.tkx.cur ∧ x.dfc = s0.dfc ∧ x.sep = s0.sep ∧ x.lse = s0.lse ∧ x.osm = s0.osm ∧ x.net = s0.net
    let ends := fun (i : Instr) (P : State → Prop) => held i e ∧ (e.flow = none → after i fun x => gone x e ∧ x.aln.ticks = s0.aln.ticks ∧ P x)
    let idle := fun (w : Work) (i : Instr) => runningCur (· = w) s0 = none → exec i s = .next (drainMirrored (settle s0))
    (runs (.dfc k) → ends (.dfcCommitTaskComplete dt k) fun x => x.tkx.cur.map Cur.doneDfc = some (k :: c.doneDfc) ∧
      (∀ j, j / 256 ≠ k → lookupK x.dfc.chains j = lookupK s0.dfc.chains j) ∧
      ∀ j h, (j, h) ∈ s0.dfc.chains → j / 256 = k →
        lookupK x.dfc.chains j = some (h.tick j (epIndexOf s0 h.srcA) (epIndexOf s0 h.srcB) t.g t.view).chain) ∧
    (runs .sep → ends (.sepTaskComplete dt) fun x => x.tkx.cur.map Cur.doneSep = some true ∧ x.sep.outSample = t.outZones ∧
      x.tkx.phaseLateCnt = (if sepDeadline s0 c < s0.tbu.free then satAdd s0.tkx.phaseLateCnt 1 else s0.tkx.phaseLateCnt)) ∧
    (runs (.osm k) → ends (.osmUpdateComplete dt k) fun x => x.tkx.cur.map Cur.doneOsm = some (k :: c.doneOsm)) ∧
    (runs .osmLocation → ends (.osmLocationComplete dt) fun x => x.tkx.cur.map Cur.doneOsm = some (8 :: c.doneOsm) ∧
      x.osm.prev = some (locRead s0.osm t.g t.view) ∧ x.hif = (engineTaskDone e.work (finishTask e s0)).hif) ∧
    (runs .emitRings → ends (.emitComplete dt none) fun x => x.tkx.cur.map Cur.doneRings = some true ∧ x.net = s0.net) ∧
    (let runsPort := fun (y : TEntry) => runningWork (fun w => portOfWork w = some k) s0 = some y
     let fed := feedPort e (accountEmits s0)
     (runningWork (fun w => portOfWork w = some k) s0 = none → exec (.emitComplete dt (some k)) s = .next (drainMirrored (settle s0))) ∧
     (runsPort e → pausedNow s0 k = true → exec (.emitComplete dt (some k)) s = .next (drainMirrored (settle s0))) ∧
     (runsPort e → pausedNow s0 k = false → s0.tkx.cur = some c → c.g = e.g → e.work = .emitPort k → e.flow = none → e.fed = false →
       (fifoBlocked fed { e with fed := true } k = true → ∃ x, exec (.emitComplete dt (some k)) s = .next (drainMirrored (settle x)) ∧
         x.net = fed.net ∧ x.tkx.cur = some c ∧ ∃ y ∈ x.tkx.entries, sameEntry y e = true ∧ y.fed = true ∧ y.st = .running) ∧
       (fifoBlocked fed { e with fed := true } k = false → after (.emitComplete dt (some k)) fun x => gone x e ∧ x.net = fed.net ∧
         x.tkx.cur.map Cur.donePorts = some (k :: c.donePorts)))) ∧
    (∀ d x q, runningWork (· = .osmDeferred 8) s0 = some d → s0.osm.locQueue = x :: q → held (.osmDeferredUpdate dt 8) d ∧
      (d.flow = none → after (.osmDeferredUpdate dt 8) fun u => u.osm.locQueue = q ∧ u.osm.prev = some x)) ∧
    (∀ d m x q, runningWork (· = .osmDeferred k) s0 = some d → k < 8 → osmSetOf s0 k = some m → m.queue = x :: q → held (.osmDeferredUpdate dt k) d ∧
      (d.flow = none → after (.osmDeferredUpdate dt k) fun u => (osmSetOf u k).map OsmSet.queue = some q)) ∧
    idle (.dfc k) (.dfcCommitTaskComplete dt k) ∧ idle .sep (.sepTaskComplete dt) ∧ idle (.osm k) (.osmUpdateComplete dt k) ∧
    idle .osmLocation (.osmLocationComplete dt) ∧ idle .emitRings (.emitComplete dt none)

/-- LSE_SOLVE whose invariants hold leaves its result for LSE_ANALYZE; where one fails, or a soft error broke it, the invariant failure is counted. LSE_ANALYZE takes the result: it is the tick's, the hold state and the registers are those of the analysis. RESOLVE_A whose invariants hold leaves its result for RESOLVE_B, which is made ready; RESOLVE_B makes the tick's next revision and takes that result away. The parts that R66 leaves to a flow's release are said of tasks without a flow. -/
def Obligations.EstimatorTasksEnd : Prop :=
  ∀ (dt g : Nat) (b : Bool) (e : TEntry) (c : Cur) (t : Tick) (v : Solve) (s : State),
    let s0 := elapse dt s
    s0.sys.ready = true →
    let ends := fun (i : Instr) (P : State → Prop) => ∃ u, exec i s = .next (drainMirrored (settle (settle u))) ∧ P u
    (runningCur (· = .lseSolve) s0 = some (e, c, t) →
      (solveTick t 0 t.view s0 = some (v, true) →
        exec (.lseSolveComplete dt false) s = .next (drainMirrored (settle (completeTask e { s0 with lse := { s0.lse with work := some v } }))) ∧
        (e.flow = none → ends (.lseSolveComplete dt false) fun u => u.lse.work = some v ∧ u.tkx.cur.map Cur.doneSolve = some true)) ∧
      (∀ ok, solveTick t 0 t.view s0 = some (v, ok) → ok = false ∨ b = true → s0.sys.runState ≠ .init → maskedNow s0 7 = false → 10 < s0.lse.cnt.length →
        ends (.lseSolveComplete dt b) fun u => nth u.lse.cnt 10 0#32 = satAdd (nth s0.lse.cnt 10 0#32) 1)) ∧
    (∀ im, runningCur (· = .lseAnalyze) s0 = some (e, c, t) → s0.lse.work = some v → s0.lse.sec = some im → e.flow = none →
      let r := lseAnalyze im s0.lse.chiK.toNat t.bind v
      ends (.lseAnalyzeComplete dt) fun x => x.tkx.cur.map Cur.doneAna = some true ∧ x.tkx.cur.map Cur.lseRes = some (some r) ∧
        x.lse.work = none ∧ x.lse.variant = t.bind.variant ∧ x.lse.chi = r.chi ∧ x.lse.unobZones = r.unobZones ∧
        x.lse.hold = (r.x.zipIdx.map fun p => if nth r.obs p.2 false then p.1 else c0) ∧
        x.aln.ticks.map Tick.view = s0.aln.ticks.map Tick.view ∧ x.kst.slots = s0.kst.slots) ∧
    (findEntry (fun y => y.st = .running && y.work = .resolveA && y.g = g) s0 = some e → tickOf s0 g = some t → e.flow = none →
      solveTick t t.rsCover t.rsView s0 = some (v, true) → ends (.resolveAComplete dt g false) fun u => u.lse.rework = s0.lse.rework ++ [v] ∧
        ∀ y ∈ s0.tkx.tasks, y.work = .resolveB → ∃ z ∈ u.tkx.entries, z.task = y.num ∧ z.g = g) ∧
    (∀ im, findEntry (fun y => y.st = .running && y.work = .resolveB && y.g = g) s0 = some e → tickOf s0 g = some t → e.flow = none →
      s0.lse.rework.find? (fun v => v.g = g) = some v → s0.lse.sec = some im → 1 < s0.lse.cnt.length → ends (.resolveBComplete dt g) fun u =>
        (tickOf u g).map Tick.revision = some (t.revision + 1) ∧ (tickOf u g).map Tick.eps = some t.eps ∧
        u.lse.rework = s0.lse.rework.filter (fun v => decide (v.g ≠ g)) ∧ nth u.lse.cnt 1 0#32 = satAdd (nth s0.lse.cnt 1 0#32) 1)

/-- HELM_PROJECTION of a tick that would end by its EMIT deadline sheds nothing; otherwise exactly the lowest shed level not in force comes into force and is counted. The delay list's first entry fires when it is due, and not before. A grid-edge second closes at its instant and its aggregation is made ready; GE_AGGREGATION takes the oldest closed second. A checkpoint not drained when the pipeline span has passed is late, one that drains is done. -/
def Obligations.HelmTimers : Prop :=
  ∀ (dt : Nat) (s : State),
    let s0 := elapse dt s
    s0.sys.ready = true →
    let now := s0.tbu.free
    let ends := fun (i : Instr) (P : State → Prop) => ∃ u, exec i s = .next (drainMirrored (settle u)) ∧ P u
    (s0.tkx.cur = none → exec (.helmProjection dt) s = .next (drainMirrored (settle s0))) ∧
    (∀ c, s0.tkx.cur = some c → now + maxLeft s0 c ≤ phaseDeadline s0 c 4 → exec (.helmProjection dt) s = .next (drainMirrored (settle s0))) ∧
    (∀ c i, s0.tkx.cur = some c → phaseDeadline s0 c 4 < now + maxLeft s0 c → i < 4 → (∀ j, j < i → s0.tkx.shedLevels.testBit j = true) →
      s0.tkx.shedLevels.testBit i = false → s0.sys.maintPend = none →
      ends (.helmProjection dt) fun u => u.tkx.shedLevels = s0.tkx.shedLevels + 2 ^ i ∧ u.tkx.shedCnt = modAt s0.tkx.shedCnt i (satAdd · 1) ∧
        bitOf u.tkx.event 1 = true) ∧
    (∀ d k g r c, s0.tkx.micro = (d, k, g) :: r →
      (now < d → exec (.delayListExpiry dt) s = .next (drainMirrored (settle s0))) ∧
      (d ≤ now → (∀ x ∈ r, now < x.1) → s0.tkx.tasks.find? (fun c => decide (c.num = k)) = some c →
        ends (.delayListExpiry dt) fun u => u.tkx.micro = r ∧ ∃ y ∈ u.tkx.entries, y.task = k ∧ y.g = g)) ∧
    (let sec := s0.ge.closed + 1
     let at_ := fun (n : Nat) => (((n + 1 + fld s0.ge.cfg.toNat 3 0 : Nat) : Int) * (secFr : Int))
     (discTime s0 < at_ sec ∨ s0.ge.running = false → s0.ge.ready = [] → exec (.geBucketClose dt) s = .next (drainMirrored (settle s0))) ∧
     (s0.ge.running = true → at_ sec ≤ discTime s0 → discTime s0 < at_ (sec + 1) → ends (.geBucketClose dt) fun u => u.ge.closed = sec ∧
       u.ge.ready = s0.ge.ready ++ [(s0.ge.buckets.find? fun b => decide (b.sec = sec)).getD { sec := sec, reps := [] }] ∧ u.ing = s0.ing ∧
       ∀ y ∈ s0.tkx.tasks, y.work = .geAgg → ∃ z ∈ u.tkx.entries, z.task = y.num)) ∧
    (∀ b r e, s0.ge.ready = b :: r → runningWork (fun w => w = .geAgg) s0 = some e → e.flow = none → 4 < s0.ge.cnt.length →
      ∃ u, exec (.geAggregation dt) s = .next (drainMirrored (settle (settle u))) ∧ u.ge.ready = r ∧ u.ge.lastSec = b.sec ∧ u.ge.buckets = s0.ge.buckets ∧ nth u.ge.cnt 4 0#32 = satAdd (nth s0.ge.cnt 4 0#32) 1) ∧
    (s0.sys.guarEff ≠ 0 → s0.aln.ckptDone = false → s0.aln.ckptLate = false → s0.sys.runState = .run → s0.tkx.lastSeq ≠ none → s0.tkx.notBefore ≤ now →
      ends (.checkpointDeadline dt) fun u => u.aln.ckptLate = true ∧ u.flt.low = true) ∧
    (s0.aln.ckptDone = true → exec (.checkpointDeadline dt) s = .next (drainMirrored (settle s0)) ∧ exec (.checkpointDrainComplete dt) s = .next s0) ∧
    (s0.aln.ckptDone = false →
      exec (.checkpointDrainComplete dt) s = .next { s0 with aln := { s0.aln with ckptDone := true, ckptLate := false } })

/-- In RUN a FOLLOW ball that no rule holds deasserts when 10 ms have passed since its assertion, not before; one that a rule holds stays. A readback within 20 µs of a change of the ball's level is not taken; one that agrees with the driven level changes nothing but the level read; one that disagrees is counted and leads to SAFE, and in SAFE is counted in SWM_CNT[3] only. A retransmission that is due sends its group's frame with the next sqNum after twice the interval, at most ALA_RETX, or, where the group has a slot that is not VALID, of its type and for ALARM_TX, sends nothing and counts SIGN_REFUSED; one that is not due does nothing. -/
def Obligations.BallsAndFrames : Prop :=
  ∀ (dt k : Nat) (l : Bool) (s : State),
    let s0 := elapse dt s
    s0.sys.ready = true → s0.sys.runState ≠ .init →
    let now := s0.tbu.free
    let pin := fun (t : State) => nth t.ala.pins k Pin.reset
    let p := pin s0
    (k < 8 → s0.ala.pins.length = 8 →
      (p.hold = 2 → p.asserted = true → p.at_ + 10000000 * fr ≤ now → s0.sys.runState = .run → s0.pair.st ≠ .syncing →
        ∃ t, exec (.pinFollowExpiry dt k) s = .next t ∧ t = { s0 with ala := { s0.ala with pins := t.ala.pins } } ∧
          ((pin t).asserted = true ↔ holders s0 k ≠ [])) ∧
      (now < p.at_ + 10000000 * fr → exec (.pinFollowExpiry dt k) s = .next s0) ∧
      (p.settled now = false → exec (.almReadbackSample dt k l) s = .next (drainMirrored (settle s0))) ∧
      (p.settled now = true → l = p.level → exec (.almReadbackSample dt k l) s =
        .next (drainMirrored (settle { s0 with ala := { s0.ala with pins := setAt s0.ala.pins k { p with readback := l } } }))) ∧
      (p.settled now = true → l ≠ p.level → 9 < s0.ala.cnt.length → ∃ u, exec (.almReadbackSample dt k l) s = .next (drainMirrored (settle u)) ∧ u.sys.runState = .safe ∧
        u.swm.cnt = modAt s0.swm.cnt 3 (satAdd · 1) ∧ (s0.sys.runState = .safe → u.flt = s0.flt ∧ u.ala.cnt = s0.ala.cnt) ∧
        (s0.sys.runState ≠ .safe → u.flt.fatal = true ∧ u.flt.low = true ∧ nth u.ala.cnt 9 0#32 = satAdd (nth s0.ala.cnt 9 0#32) 1 ∧
          bitOf u.ala.event 7 = true))) ∧
    (∀ g a, s0.ala.groups[k]? = some g → g.nextAt = some a →
      (now < a → exec (.alarmFrameRetx dt k) s = .next s0) ∧
      (a ≤ now → emits s0 = true →
        let e := min (2 * g.every) (retxMs s0)
        let n := some (now + e * 1000000 * fr)
        let x := slotOfKey s0 g.sec.slot
        let signs := g.sec.auth = 0 ∨ (x.st = .valid ∧ x.typ = g.sec.auth ∧ x.usage.testBit 1 = true)
        ∃ t, exec (.alarmFrameRetx dt k) s = .next t ∧ t = { s0 with ala := t.ala, net := t.net, kst := t.kst, hif := t.hif, out := t.out } ∧
          t.ala = { s0.ala with groups := t.ala.groups, cnt := t.ala.cnt } ∧
          (signs → t.kst = s0.kst ∧
            t.ala.groups[k]? = some { g with sqNum := (g.sqNum + 1) % 2 ^ 32, every := e, spdu := (g.spdu + 1) % 2 ^ 32, nextAt := n }) ∧
          (¬ signs → t.net = s0.net ∧ t.ala.cnt = s0.ala.cnt ∧ t.ala.groups[k]? = some { g with every := e, nextAt := n } ∧
            t.kst = { s0.kst with cnt := modAt s0.kst.cnt 5 (satAdd · 1), event := t.kst.event } ∧ bitOf t.kst.event 6 = true)))

/-- In RUN, a write of ALA_PIN_CLEAR: each LATCH ball whose bit is 1 and that no rule of value 1 names deasserts; each that such a rule names stays as it is and is counted in CLEAR_REFUSED with the event; every other ball stays as it is. -/
def Obligations.ClearOfLatch : Prop :=
  ∀ (dt : Nat) (m : Word) (s : State),
    let s0 := elapse dt s
    barOpen s0 = true → s0.sys.runState = .run → s0.ala.pins.length = 8 →
    let pin := fun (t : State) (k : Nat) => nth t.ala.pins k Pin.reset
    let asked := fun (k : Nat) => bitOf m k && (pin s0 k).hold = 0
    let refused := (List.range 8).filter fun k => asked k && !(holders s0 k).isEmpty
    ∃ t, exec (.alaPinClear dt m) s = .next t ∧ t = { s0 with ala := t.ala, hif := t.hif, out := t.out } ∧
      t.ala = { s0.ala with pins := t.ala.pins, cnt := t.ala.cnt, event := t.ala.event } ∧ t.ala.pins.length = 8 ∧
      (∀ k, k < 8 → (asked k = true → holders s0 k = [] → (pin t k).asserted = false ∧ (pin t k).latched = false) ∧
        (asked k = false ∨ holders s0 k ≠ [] → pin t k = pin s0 k)) ∧
      t.ala.cnt = modAt s0.ala.cnt 8 (satAdd · refused.length) ∧ (refused ≠ [] → bitOf t.ala.event 6 = true) ∧ (refused = [] → t.ala.event = s0.ala.event)

/-- FAULT_DETECTED outside INIT of a listed code that is neither masked nor merged: the fault enters the history under its code, home domain, class and detail, its class is counted with its event, and its domain is marked as occurred. A CONTAINED or FATAL fault of a domain that is already being recovered, or that had a CONTAINED fault at the same instant, is FATAL and ESCALATED. A FATAL fault drives FAULT_N low and leads to SAFE; a CONTAINED one drives FAULT_N low, and where its reaction is a restart it opens a reaction window or, where its domain cannot be restored, leads to SAFE; any other fault leaves the run state. An error that arises in another's recovery is merged. A masked error or an unlisted code changes nothing. -/
def Obligations.FaultRecorded : Prop :=
  ∀ (dt : Nat) (x : FaultIn) (s : State),
    let s0 := elapse dt s
    s0.sys.ready = true → s0.sys.runState ≠ .init → (s0.sys.runState = .safe → x.code ≠ 0x0A) →
    s0.flt.hist.length = 16 → s0.flt.cnt.length = 8 →
    let dom := (homeDomain x.code).getD (x.domain % 16)
    let masked := maskedNow s0 dom = true ∧ outsideDetector x.code = false
    let esc := 2 ≤ classOf x.code dom ∧ meets dom s0 = true
    let cls := if esc then 3 else classOf x.code dom
    let c := fun (u : State) (k : Nat) => nth u.flt.cnt k 0#32
    let ends := fun (P : State → Prop) => ∃ u, exec (.faultDetected dt x) s = .next (drainMirrored (settle u)) ∧ P u
    (x.code ∈ faultCodes → x.reactionOf = none → x.inputOf = none → ¬ masked → ends fun u =>
      u.flt.nextId = s0.flt.nextId + 1 ∧ c u (cls - 1) = satAdd (c s0 (cls - 1)) 1 ∧ bitOf u.flt.event (cls - 1) = true ∧
      bitOf u.flt.occurred dom = true ∧ (dom < 16 ∧ 1 ≤ cls ∧ cls ≤ 3) ∧
      (∃ r, some r ∈ u.flt.hist ∧ r.id = s0.flt.nextId ∧ r.code = x.code ∧ r.domain = dom ∧ r.cls = cls ∧ r.detail = x.detail ∧ (r.escalated = true ↔ esc)) ∧
      (cls = 3 → u.sys.runState = .safe ∧ u.flt.fatal = true ∧ u.flt.low = true) ∧
      (cls = 2 → u.flt.low = true) ∧
      (cls ≠ 3 → reactionFor x dom ≠ rRestart → u.sys = s0.sys) ∧
      (cls ≠ 3 → reactionFor x dom = rRestart → c u 6 = satAdd (c s0 6) 1 ∧ (u.sys.runState = .safe ∨
        (u.sys = s0.sys ∧ ∃ w ∈ u.flt.wins, w.id = s0.flt.nextId ∧ w.domain = dom ∧ w.resetEnd = s0.tbu.free + resetLen dom ∧ w.waits = false)))) ∧
    (∀ d w, x.code ∈ faultCodes → x.reactionOf = some d → winOf s0 d = some w → ends fun u => u.flt.nextId = s0.flt.nextId ∧
      c u 3 = satAdd (c s0 3) 1 ∧ bitOf u.flt.event 3 = true ∧ (2 ≤ classOf x.code dom → u.sys.runState = .safe) ∧
      (classOf x.code dom < 2 → u.sys = s0.sys ∧ u.flt.wins = s0.flt.wins)) ∧
    (x.code ∉ faultCodes ∨ (masked ∧ x.reactionOf = none) → exec (.faultDetected dt x) s = .next (drainMirrored (settle s0)))

/-- RESTART_COMPLETE after the domain's reset closes the reaction window, or makes it wait for the engine's first task; before it nothing happens. In BOTH a replay is given up when its budget has passed. FAULT_N is released exactly where its 1.0 ms has passed, no FATAL fault has occurred, no CONTAINED window is open and a RELEASE is kept or FAULTN_AUTO is 1; a RELEASE in the cycle of a new fault is not kept. Condition faults whose condition ceased are CLEARED, with a heartbeat's loss the heartbeat is back. FIRST_CLR empties FLT_FIRST alone. FLT_INJECT outside CONFIG and MAINTENANCE, or of another code, has no effect; otherwise the fault is recorded, and a FATAL one leads to SAFE. -/
def Obligations.RecoveryRows : Prop :=
  ∀ (dt k d : Nat) (v : Word) (s : State),
    let s0 := elapse dt s
    s0.sys.ready = true →
    let now := s0.tbu.free
    let rec_ := fun (i : Instr) (P : State → Prop) => ∃ u, exec i s = .next (drainMirrored (settle (drainMarks (settle u)))) ∧ P u
    (∀ w r, s0.flt.wins.find? (fun w => w.domain = d && !w.waits) = some w → liveFault s0 w.id = some r → (d = 5 → s0.aln.replay = none) →
      (now < w.resetEnd → exec (.restartComplete dt d) s = .next (drainMirrored (settle (drainMarks (settle s0))))) ∧
      (w.resetEnd ≤ now → taskFollows d s0 = false → rec_ (.restartComplete dt d) fun u => u.flt.wins.map Win.id = (s0.flt.wins.map Win.id).filter (· ≠ w.id) ∧
        u.sys = s0.sys) ∧
      (w.resetEnd ≤ now → taskFollows d s0 = true → rec_ (.restartComplete dt d) fun u => u.sys = s0.sys ∧ u.flt.wins.map Win.id = s0.flt.wins.map Win.id ∧
        ∀ x ∈ u.flt.wins, x.id = w.id → x.waits = true)) ∧
    (∀ l a, s0.aln.replay = some (l, a) → winOf s0 5 = none →
      (s0.sys.guarEff ≠ 2 ∨ now < a + resetLen 5 + s0.sys.replayUs * 1000 * fr →
        exec (.replayBudgetExpiry dt) s = .next (drainMirrored (settle (drainMarks (settle s0))))) ∧
      (s0.sys.guarEff = 2 → a + resetLen 5 + s0.sys.replayUs * 1000 * fr ≤ now → rec_ (.replayBudgetExpiry dt) fun u => u.aln.replay = none ∧ u.ing = s0.ing)) ∧
    (let go := fun (kept : Bool) => s0.flt.low && !s0.flt.fatal && decide (s0.flt.minEnd ≤ s0.sys.aon) && !(containedOpen s0) && (kept || bitOf s0.flt.ctrl 4)
     let done := fun (kept : Bool) => { s0 with flt := { s0.flt with
       minDone := decide (s0.flt.minEnd ≤ s0.sys.aon), low := s0.flt.low && !(go kept), release := kept && !(go kept) } }
     exec (.faultNMinExpiry dt) s = .next (done s0.flt.release) ∧ (barOpen s0 = true → exec (.faultnRelease dt) s = .next (done (s0.flt.low && decide (s0.flt.minEnd ≠ s0.sys.aon + 256000000))))) ∧
    ((s0.flt.live.map FaultRec.id).Nodup → ∃ t, exec (.faultConditionCleared dt k d) s = .next t ∧
      t = { s0 with flt := t.flt, log := t.log, hif := t.hif, out := t.out, swm := { s0.swm with hb := t.swm.hb } } ∧ (k ≠ 0x0C → t.swm = s0.swm) ∧
      t.flt.live = s0.flt.live.filter fun r => !(isCondition r.code && r.code = k && r.domain = d)) ∧
    (barOpen s0 = true → exec (.firstClr dt) s = .next { s0 with flt := { s0.flt with first := none } }) ∧
    (barOpen s0 = true →
      let may := (s0.sys.runState = .config ∨ s0.sys.runState = .maintenance) ∧ injectable (fld v.toNat 7 0) (fld v.toNat 11 8) = true
      (¬ may → exec (.fltInject dt v) s = .next (drainMirrored (settle s0))) ∧
      (may → s0.flt.masked = [] → ∃ u, exec (.fltInject dt v) s = .next (drainMirrored (settle u)) ∧ u.flt.nextId = s0.flt.nextId + 1 ∧
        u.freeCtr = s0.freeCtr + 1 ∧ (classOf (fld v.toNat 7 0) ((homeDomain (fld v.toNat 7 0)).getD (fld v.toNat 11 8)) = 3 → u.sys.runState = .safe)))

/-- An absent heartbeat is counted and leads to SAFE. The commit watchdog and the phase mark watch lead to SAFE exactly where a tick is overdue, or a decision is missing at its limit or was taken after it. A window of 50 ms that TBU_FREE measures within 0.1 % only begins the next; another marks the time clock's fault and drives FAULT_N low. A self-test that passes is counted; one that fails leads to SAFE. A watchdog of a control core restarts that core. A scrub pass reports each error it met. -/
def Obligations.SafetyWatchRows : Prop :=
  ∀ (dt k : Nat) (a b : Bool) (l : List FaultIn) (x : FaultIn) (s : State),
    let s0 := elapse dt s
    s0.sys.ready = true → s0.sys.runState ≠ .init →
    let now := s0.tbu.free
    let ends := fun (i : Instr) (P : State → Prop) => ∃ u, exec i s = .next (drainMirrored (settle u)) ∧ P u
    let safe := fun (u : State) => u.sys.runState = .safe ∧ u.flt.fatal = true ∧ u.flt.low = true
    let nothing := fun (i : Instr) => exec i s = .next (drainMirrored (settle s0))
    (s0.sys.runState ≠ .safe →
      (k < 3 → ends (.heartbeat dt k) fun u => safe u ∧ u.swm.hb = setAt s0.swm.hb k false ∧ u.swm.cnt = modAt s0.swm.cnt 2 (satAdd · 1)) ∧
      (ticking s0 = true → tmReached (frate s0) s0.aln.next ((s0.swm.waitMax * fr + msFr : Nat) : Int) (discTime s0 - jumped s0) = true →
        ends (.commitWatchdog dt) safe) ∧
      (∀ c, s0.tkx.cur = some c → s0.sys.runState = .run → (c.d1 && c.d2 && !c.lateMark) = false → c.at_ + (min (2 * secFr / frate s0) (20 * msFr) - msFr) ≤ now →
        ends (.phaseMark dt) safe) ∧
      ((a && b) = false → ends (.swmSelftest dt a b) fun u => safe u ∧ u.swm.selfPass = false ∧ u.swm.lockOk = a)) ∧
    (3 ≤ k → nothing (.heartbeat dt k)) ∧
    (ticking s0 = false ∨ tmReached (frate s0) s0.aln.next ((s0.swm.waitMax * fr + msFr : Nat) : Int) (discTime s0 - jumped s0) = false → nothing (.commitWatchdog dt)) ∧
    (s0.tkx.cur = none → nothing (.phaseMark dt)) ∧
    (∀ c, s0.tkx.cur = some c → (c.d1 && c.d2 && !c.lateMark) = true ∨ now < c.at_ + (min (2 * secFr / frate s0) (20 * msFr) - msFr) → nothing (.phaseMark dt)) ∧
    (s0.tbu.running = true →
      let off := ((now : Int) - s0.swm.winAt - ((50 * msFr : Nat) : Int)).natAbs
      (off * 1000 ≤ 50 * msFr → exec (.timeClockWindow dt) s = .next (drainMirrored (settle { s0 with swm := { s0.swm with winAt := now } }))) ∧
      (50 * msFr < off * 1000 → ends (.timeClockWindow dt) fun u => u.swm.winAt = now ∧ u.tbu.clockFault = true ∧ u.flt.low = true)) ∧
    exec (.swmSelftest dt true true) s = .next (drainMirrored (settle
      { s0 with swm := { s0.swm with selfPass := true, lockOk := true, selfTs := ts32 s0, cnt := modAt s0.swm.cnt 0 (satAdd · 1) } })) ∧
    (maskedNow s0 12 = false → meets 12 s0 = false → ends (.fwWatchdog dt k) fun u => u.flt.low = true ∧ u.sys = s0.sys ∧
      ∃ w ∈ u.flt.wins, w.domain = 12 ∧ w.unit = k % 4 ∧ w.id = s0.flt.nextId) ∧
    exec (.sramScrubPass dt [x]) s = exec (.faultDetected dt x) s ∧
    ends (.sramScrubPass dt l) fun u => s0.flt.nextId ≤ u.flt.nextId ∧ u.flt.nextId ≤ s0.flt.nextId + l.length

/-- The writer stores the oldest queued event under the next SEQ at its index; with drops pending and 48 or fewer events queued a DROPPED record enters the queue. A read of KST_NONCE draws a new nonce. Tamper arming and clearing act as their bits say, clearing in CONFIG only. TAMPER_N low for fewer than 4 AON cycles does nothing; otherwise, while armed, the share is erased, the event is latched and counted once for one low period, and with power and READY every slot that is not EMPTY is REVOKED. TAMPER_N high for 4 cycles ends the event and draws a share where none is held. Loss of retention without VIN erases the share, the arming and the counter. -/
def Obligations.LogAndKeyStore : Prop :=
  ∀ (dt n : Nat) (v : Word) (s : State),
    let s0 := elapse dt s
    s0.kst.slots.length = 64 →
    (s0.sys.ready = true →
      (s0.log.queue = [] → s0.log.dropPend = 0 → exec (.logRecordWrite dt) s = .next s0) ∧
      (∀ e q, s0.log.queue = e :: q → ∃ t, exec (.logRecordWrite dt) s = .next t ∧ t = { s0 with log := t.log, hif := t.hif, out := t.out } ∧
        t.log.seqNext = s0.log.seqNext + 1 ∧ lookupK t.log.recs ((s0.log.seqNext - 1) % 1048576) = some (logRecord e s0.log.seqNext) ∧
        (s0.log.dropPend = 0 ∨ 48 < q.length → t.log.queue = q ∧ t.log.dropPend = s0.log.dropPend) ∧
        (s0.log.dropPend ≠ 0 → q.length ≤ 48 → t.log.dropPend = 0 ∧ ∃ d, t.log.queue = q ++ [d] ∧ d.event = 0xF0 ∧ d.source = 12)) ∧
      (s0.log.queue = [] → s0.log.dropPend ≠ 0 → ∃ t d, exec (.logRecordWrite dt) s = .next t ∧ t.log.queue = [d] ∧ d.event = 0xF0 ∧ t.log.dropPend = 0 ∧
        t.log.seqNext = s0.log.seqNext)) ∧
    (barOpen s0 = true →
      exec (.kstNonceRead dt) s = .next { s0 with
        kst := { s0.kst with nonce := Config.freeBits s0.freeCtr, nonceLive := true }, freeCtr := s0.freeCtr + 1,
        readData := BitVec.ofNat 32 ((Config.freeBits s0.freeCtr).toNat >>> 224) } ∧
      exec (.kstTamperArm dt v) s = .next { s0 with kst := { s0.kst with tamperArmed := s0.kst.tamperArmed || bitOf v 0 } } ∧
      exec (.kstTamperClr dt v) s = .next { s0 with
        kst := { s0.kst with tamperLatched := s0.kst.tamperLatched && !(bitOf v 0 && s0.sys.runState = .config) } }) ∧
    (n < 4 → exec (.tamperEvent dt n) s = .next s0 ∧ exec (.tamperRestore dt n) s = .next s0) ∧
    (4 ≤ n →
      (∃ t, exec (.tamperEvent dt n) s = .next t ∧ t.kst.tamperActive = true ∧ t.kst.lc = s0.kst.lc ∧ t.sys = s0.sys ∧ t.tbu = s0.tbu ∧
        (s0.kst.tamperArmed = false → t.kst.slots = s0.kst.slots ∧ t.kst.share = s0.kst.share ∧ t.kst.tamperLatched = s0.kst.tamperLatched) ∧
        (s0.kst.tamperArmed = true → s0.kst.tamperActive = true → s0.kst.share = none → t.kst.slots = s0.kst.slots ∧ t.kst.share = none ∧
          t.kst.tamperCnt = s0.kst.tamperCnt) ∧
        (s0.kst.tamperArmed = true → s0.kst.tamperActive = false ∨ s0.kst.share ≠ none → t.kst.share = none ∧ t.kst.tamperLatched = true ∧ t.kst.tamperCnt = min 65535 (s0.kst.tamperCnt + 1) ∧
          (s0.sys.powered = true → s0.sys.ready = true → bitOf t.kst.event 2 = true ∧
            ∀ k, k < 64 → (slotOfKey t k).st = (if (slotOfKey s0 k).st = .empty then .empty else .revoked)) ∧
          (s0.sys.powered = false ∨ s0.sys.ready = false → t.kst.tamperWait = true ∧ t.kst.slots = s0.kst.slots))) ∧
      (s0.kst.share ≠ none → exec (.tamperRestore dt n) s = .next { s0 with kst := { s0.kst with tamperActive := false } }) ∧
      (s0.kst.share = none → exec (.tamperRestore dt n) s = .next { s0 with
        kst := { s0.kst with tamperActive := false, share := some (Config.freeBits s0.freeCtr) }, freeCtr := s0.freeCtr + 1 })) ∧
    (s0.sys.powered = true → exec (.retentionLoss dt) s = .next s0) ∧
    (s0.sys.powered = false → ∃ t, exec (.retentionLoss dt) s = .next t ∧ t = { s0 with sys := t.sys, kst := t.kst } ∧ t.kst.share = none ∧
      t.kst.tamperArmed = false ∧ t.kst.tamperLatched = false ∧ t.kst.rtc = 0 ∧ t.kst.retLost = true ∧ t.kst.retPend = true ∧ t.kst.slots = s0.kst.slots ∧ t.kst.lc = s0.kst.lc)

/-- Power on with a good environment leads to CONFIG and READY with every tick register and the window at reset, no image, the life-cycle records kept, and the reset source in SYS_RESET_CAUSE. Straps 1x end the start-up with failure 0xA and no READY. Loss of power loses the image and the Logbook and keeps the key slots and the life-cycle. RESET_N under 1 µs is ignored and of 10 µs or more starts the module up again, keeping the Logbook's records; between, one or the other. SYS_RESET needs its key and keeps the bus configuration and the link. PERST_N returns the rings to reset and changes neither the tick, the ports nor the Bell. SYS_TEMP_UPDATE writes the two sensor words. -/
def Obligations.PowerAndResets : Prop :=
  ∀ (dt k n : Nat) (w : LinkWidth) (p : LinkSpeed) (x : Int) (v : Word) (b : BootIn) (s : State),
    let s0 := elapse dt s
    let good := b.mode = 0 ∧ b.fail = none ∧ pickBank b s0 = some k
    let up := fun (src : Nat) (t : State) => t.sys.ready = true ∧ t.sys.powered = true ∧ t.sys.runState = .config ∧ t.sys.locked = false ∧
      t.image = none ∧ t.tkx = State.reset.tkx ∧ t.aln = State.reset.aln ∧ t.net.ports.length = 4 ∧ t.kst.lc = s0.kst.lc ∧ t.kst.bank = k ∧
      s0.kst.minSvn ≤ t.kst.minSvn ∧ t.sys.resetCause = wordOf [(8, 4, s0.sys.prevFail), (0, 4, src)] ∧ t.tbu.free = b.free * 256 ∧
      t.tbu.timeSet = false ∧ t.flt.low = false ∧ t.pending = s0.pending
    (s0.sys.powered = true → exec (.powerOn dt b) s = .next s0) ∧
    (s0.sys.powered = false → good → ∃ t src, exec (.powerOn dt b) s = .next t ∧ up src t ∧ (src = 0 ∨ src = 3) ∧ (s0.sys.vinFallAt = none → src = 0)) ∧
    (s0.sys.powered = false → 2 ≤ b.mode → b.fail = none → ∃ t, exec (.powerOn dt b) s = .next t ∧ t.sys.ready = false ∧ t.sys.runState = .init ∧
      t.sys.prevFail = 0xA ∧ t.kst.slots = s0.kst.slots ∧ t.kst.lc = s0.kst.lc) ∧
    (s0.sys.powered = true → ∃ t, exec (.powerLoss dt .nothing) s = .next t ∧ t.sys.powered = false ∧ t.sys.ready = false ∧ t.sys.runState = .init ∧
      t.image = none ∧ t.log.recs = [] ∧ t.flt.low = true ∧ t.kst.slots = s0.kst.slots ∧ t.kst.lc = s0.kst.lc ∧ t.kst.share = s0.kst.share) ∧
    (∀ c, s0.sys.powered = false → exec (.powerLoss dt c) s = .next s0) ∧
    (s0.sys.powered = false ∨ n < 1000 → exec (.resetN dt n b) s = .next s0) ∧
    (s0.sys.powered = true → good →
      (10000 ≤ n → ∃ t, exec (.resetN dt n b) s = .next t ∧ up 1 t ∧ s0.log.recs.length ≤ t.log.recs.length) ∧
      (1000 ≤ n → n < 10000 → ∃ t, exec (.resetN dt n b) s = .next t ∧ (t = { s0 with freeCtr := s0.freeCtr + 1 } ∨ up 1 t)) ∧
      (barOpen s0 = true → fld v.toNat 31 16 = 0x4858 → bitOf v 0 = true → ∃ t, exec (.sysReset dt v b) s = .next t ∧ up 2 t ∧
        t.hif.linkWidth = s0.hif.linkWidth ∧ t.hif.bme = s0.hif.bme ∧ t.hif.msixEn = s0.hif.msixEn)) ∧
    (barOpen s0 = false ∨ fld v.toNat 31 16 ≠ 0x4858 ∨ bitOf v 0 = false → exec (.sysReset dt v b) s = .next s0) ∧
    (s0.sys.powered = true → s0.sys.ready = true → ∃ t, exec (.perstN dt w p) s = .next t ∧ t.hif.rings = State.reset.hif.rings ∧ t.hif.bme = false ∧
      t.hif.linkWidth = w.lanes ∧ t.hif.linkSpeed = p.code ∧ t.hif.imgState = s0.hif.imgState ∧ t.hif.digest = s0.hif.digest ∧ t.tkx = s0.tkx ∧ t.aln = s0.aln ∧
      t.net = s0.net ∧ t.ala = s0.ala ∧ t.kst = s0.kst ∧ t.flt = s0.flt ∧ t.sys.runState = s0.sys.runState ∧ t.mbx.locks = List.replicate 16 none) ∧
    (s0.sys.powered = false → exec (.perstN dt w p) s = .next s0 ∧ exec (.sysTempUpdate dt n x) s = .next s0) ∧
    (s0.sys.powered = true → exec (.sysTempUpdate dt n x) s =
      .next { s0 with sys := { s0.sys with vin := BitVec.ofNat 32 (n % 65536), temp := BitVec.ofNat 32 (ifld 16 x) } })

/-- YOKE_UP brings up the lanes whose calibration was good; LANE_DOWN and LANE_UP change one lane with their event, and the loss of the last lane empties the Yoke mailbox channels. A heartbeat goes out every 1.0 ms; one received restarts its lane's watch and gives PAIR_TIME_DIFF; the third consecutive miss on every lane is HEARTBEAT_LOST. HEARTBEAT_LOST and the notice of a FATAL peer make a STANDBY with AUTO_TAKEOVER SOLO, and so does FORCE_ACTIVE. A SOLO or ACTIVE module follows its peer's state messages; two active modules, not started within 1 ms of each other, are a fault, and the one of role 2 joins. A START that waits fails on an answer whose settings differ and goes to SOLO 10 ms after an unanswered query. Without a lane no message arrives. -/
def Obligations.PairLink : Prop :=
  ∀ (dt k : Nat) (z : Int) (v : Word) (h : PairHello) (s : State),
    let s0 := elapse dt s
    s0.sys.ready = true → s0.pair.cnt.length = 16 → s0.pair.hbAt.length = 2 →
    s0.pair.missed.length = 2 → s0.mbx.chans.length = 14 →
    let now := s0.tbu.free
    let other := s0.pair.lane0 || s0.pair.lane1
    let laneOf := fun (u : State) (j : Nat) => if j = 0 then u.pair.lane0 else u.pair.lane1
    let alive := s0.sys.runState ≠ .safe
    let gives := fun (i : Instr) (P : State → Prop) => ∃ t, exec i s = .next t ∧ P t
    let nothing := fun (i : Instr) => exec i s = .next s0
    let alone := fun (st : PairSt) => if (st = .standby ∧ bitOf s0.pair.cfg 4 = true ∧ alive) ∨ st = .active then PairSt.solo else st
    (gives (.yokeUp dt h) fun t => t.pair.lane0 = (s0.pair.lane0 || laneGood 0 s0) ∧ t.pair.lane1 = (s0.pair.lane1 || laneGood 1 s0)) ∧
    (k < 2 → laneOf s0 k = true → gives (.laneDown dt k) fun t => laneOf t k = false ∧ laneOf t (1 - k) = laneOf s0 (1 - k) ∧
      bitOf t.pair.event 6 = true ∧ t.pair.st = s0.pair.st ∧ t.sys = s0.sys ∧
      (laneOf s0 (1 - k) = false → ∀ c, 10 ≤ c → c < 14 → (chanOf t c).fwd.q = [] ∧ (chanOf t c).back.q = [])) ∧
    (k < 2 → laneOf s0 k = false → nothing (.laneDown dt k)) ∧
    (k < 2 → laneOf s0 k = false → laneGood k s0 = true → gives (.laneUp dt k) fun t => laneOf t k = true ∧ laneOf t (1 - k) = laneOf s0 (1 - k) ∧
      nth t.pair.hbAt k 0 = now ∧ nth t.pair.missed k 0 = 0 ∧ bitOf t.pair.event 7 = true ∧ t.pair.st = s0.pair.st ∧ t.sys = s0.sys) ∧
    (2 ≤ k ∨ laneOf s0 k = true ∨ laneGood k s0 = false → nothing (.laneUp dt k)) ∧
    (now < s0.pair.hbNext → nothing (.yokeHeartbeatSend dt)) ∧
    (s0.pair.hbNext ≤ now → exec (.yokeHeartbeatSend dt) s = .next { s0 with
      pair := { s0.pair with hbNext := now + secFr / 1000 }, out := if other then s0.out ++ [.yoke (.heartbeat (discTime s0))] else s0.out }) ∧
    (k < 2 → laneOf s0 k = true → exec (.yokeHeartbeatReceive dt k z) s = .next { s0 with pair := { s0.pair with
      hbAt := setAt s0.pair.hbAt k now, missed := setAt s0.pair.missed k 0, heard := true
      timeDiff := ofInt 32 (satI 32 (rneDiv (z - discTime s0) 65536)) } }) ∧
    (2 ≤ k ∨ laneOf s0 k = false → nothing (.yokeHeartbeatReceive dt k z)) ∧
    (let late := nth s0.pair.hbAt k 0 + (nth s0.pair.missed k 0 + 1) * (secFr / 100000 * 105) ≤ now
     let miss := setAt s0.pair.missed k (nth s0.pair.missed k 0 + 1)
     (2 ≤ k ∨ s0.pair.heard = false ∨ ¬ late → nothing (.yokeHeartbeatMissed dt k)) ∧
     (k < 2 → s0.pair.heard = true → late → (∃ n ∈ miss, n < 3) →
       exec (.yokeHeartbeatMissed dt k) s = .next { s0 with pair := { s0.pair with missed := miss } }) ∧
     (k < 2 → s0.pair.heard = true → late → (∀ n ∈ miss, 3 ≤ n) → gives (.yokeHeartbeatMissed dt k) fun t => t.pair.heard = false ∧ t.sys = s0.sys ∧
       bitOf t.pair.event 8 = true ∧ nth t.pair.cnt 12 0 = satAdd (nth s0.pair.cnt 12 0) 1 ∧ t.pair.st = alone s0.pair.st)) ∧
    (barOpen s0 = true → (bitOf v 0 = true ∧ s0.pair.st = .standby ∧ alive → gives (.forceActive dt v) fun t => t.pair.st = .solo ∧ t.sys = s0.sys ∧
        t.tkx = s0.tkx ∧ nth t.pair.cnt 7 0 = satAdd (nth s0.pair.cnt 7 0) 1 ∧ bitOf t.pair.event 10 = true ∧ t.pair.frames = [] ∧ t.pair.schedMir = [] ∧
        t.hif.sched = s0.hif.sched ++ s0.pair.schedMir) ∧
      (¬ (bitOf v 0 = true ∧ s0.pair.st = .standby ∧ alive) → nothing (.forceActive dt v))) ∧
    (other = false → nothing (.yokeCrc dt) ∧ nothing (.peerFatal dt) ∧ nothing (.pairStateExchange dt h)) ∧
    (other = true →
      (s0.sys.runState ≠ .init → maskedNow s0 15 = false → gives (.yokeCrc dt) fun t => t.sys = s0.sys ∧ t.flt.nextId = s0.flt.nextId + 1 ∧
        t.pair.st = s0.pair.st ∧
        (s0.flt.cnt.length = 8 → nth t.flt.cnt 0 0#32 = satAdd (nth s0.flt.cnt 0 0#32) 1)) ∧
      (s0.pair.st = .syncing ∨ s0.pair.st = .standby → gives (.peerFatal dt) fun t => bitOf t.pair.event 9 = true ∧ t.pair.st = alone s0.pair.st ∧ t.sys = s0.sys) ∧
      (s0.pair.st ≠ .syncing → s0.pair.st ≠ .standby → nothing (.peerFatal dt)) ∧
      (fld s0.pair.cfg.toNat 1 0 = 0 → s0.pair.role = 0 → nothing (.pairStateExchange dt h)) ∧
      (fld s0.pair.cfg.toNat 1 0 ≠ 0 → s0.pair.startPend = none → s0.pair.role = 0 ∨ s0.pair.st = .unpaired ∨ s0.sys.runState = .safe →
        gives (.pairStateExchange dt h) fun t => t = { s0 with pair := { s0.pair with peerSt := h.st, peerRole := h.role }, out := t.out }) ∧
      (s0.pair.role ≠ 0 → s0.pair.startPend = none → alive →
        (s0.pair.st = .solo → h.st = 3 → gives (.pairStateExchange dt h) fun t => t.pair.st = .active ∧ t.pair.peerSt = 3 ∧ t.pair.peerRole = h.role) ∧
        (s0.pair.st = .active → h.st = 2 → gives (.pairStateExchange dt h) fun t => t.pair.st = .solo ∧ t.pair.peerSt = 2) ∧
        (s0.pair.st = .active → h.st = 0 → gives (.pairStateExchange dt h) fun t => t.pair.st = .solo ∧ bitOf t.pair.event 15 = true) ∧
        (s0.pair.st = .solo ∨ s0.pair.st = .active → s0.pair.peerSt ≠ 1 → s0.pair.peerSt ≠ 4 → h.st = 1 ∨ h.st = 4 → h.since = none → h.role ≠ s0.pair.role →
          s0.sys.runState ≠ .init →
          gives (.pairStateExchange dt h) fun t => bitOf t.pair.event 13 = true ∧ (t.sys.runState = .safe ∨
            (t.sys.runState = s0.sys.runState ∧ t.pair.st = if s0.pair.role = 2 then .syncing else s0.pair.st)))) ∧
      (∀ c i, s0.pair.startPend = some c → s0.image = some i → fld s0.pair.cfg.toNat 1 0 ≠ 0 → s0.sys.runState = .config →
        (h.since ≠ none → h.st ≠ 0 → pairMatches s0 i h = false → gives (.pairStateExchange dt h) fun t => t.pair.startPend = none ∧
          t.sys.runState = .config ∧ t.sys.exclusive = false) ∧
        (h.since = none → h.st = 0 → gives (.pairStateExchange dt h) fun t => t.sys.runState = .run ∧ t.pair.st = .solo ∧ t.pair.startPend = none ∧
          t.pair.role = fld s0.pair.cfg.toNat 1 0))) ∧
    (s0.pair.startPend = none → nothing (.pairQueryTimeout dt)) ∧
    (∀ c, s0.pair.startPend = some c → now < s0.pair.askAt + secFr / 100 → nothing (.pairQueryTimeout dt)) ∧
    (∀ c i, s0.pair.startPend = some c → s0.image = some i → s0.sys.runState = .config → s0.pair.askAt + secFr / 100 ≤ now →
      gives (.pairQueryTimeout dt) fun t => t.sys.runState = .run ∧ t.pair.st = .solo ∧ t.pair.startPend = none)

/-- On a challenge a paired module with a master root answers with a signed statement, counting it; the active then challenges its peer anew, so a join begins with a new pair key. A statement is judged once, in SYNCING or as the active: one that passes makes the peer verified, and then it answered this module's challenge, names the peer of PAIR_PEER_ID, the same life-cycle state, firmware measurement and image, and the other role; one that fails is counted and in SYNCING sets the next try 1 s on. Snapshots are taken in SYNCING after verification only. A module that is verified, has its snapshot's tick and has caught up becomes STANDBY; one that has not by the commit of g_s + 15 tries again 1 s later, with a new challenge. -/
def Obligations.PairJoin : Prop :=
  ∀ (dt : Nat) (a : PeerAttest) (x : Snapshot) (s : State),
    let s0 := elapse dt s
    s0.sys.ready = true → s0.pair.lane0 || s0.pair.lane1 → s0.pair.cnt.length = 16 →
    let now := s0.tbu.free
    let gives := fun (i : Instr) (P : State → Prop) => ∃ t, exec i s = .next t ∧ P t
    let nothing := fun (i : Instr) => exec i s = .next s0
    let active := s0.pair.st = .solo ∨ s0.pair.st = .active
    (s0.pair.role = 0 ∨ s0.pair.st = .unpaired → nothing (.peerAttestReceive dt a)) ∧
    (s0.pair.role ≠ 0 → s0.pair.st ≠ .unpaired →
      (∀ c, a.challenge = some c → a.statement = none →
        (s0.kst.rootOk = false → nothing (.peerAttestReceive dt a)) ∧
        (s0.kst.rootOk = true → gives (.peerAttestReceive dt a) fun t => t.kst = { s0.kst with attestSeq := s0.kst.attestSeq + 1 } ∧
          t.pair.eph = Config.freeBits (s0.freeCtr + 1) ∧ (∃ st e, .yoke (.attest st e) ∈ t.out) ∧
          (¬ active → t.pair.challenge = s0.pair.challenge ∧ t.pair.verified = s0.pair.verified ∧ t.freeCtr = s0.freeCtr + 2) ∧
          (active → t.pair.challenge = Config.freeBits (s0.freeCtr + 2) ∧ t.pair.verified = false ∧ t.pair.gs = none ∧
            .yoke (.challenge t.pair.challenge) ∈ t.out))) ∧
      (∀ st, a.challenge = none → a.statement = some st →
        (s0.pair.verified = true ∨ s0.pair.st = .standby → nothing (.peerAttestReceive dt a)) ∧
        (s0.pair.verified = false → active ∨ s0.pair.st = .syncing →
          (attestOk st s0 = true → gives (.peerAttestReceive dt a) fun t => t = { s0 with pair := { s0.pair with
            verified := true, peerSeen := s0.pair.peerId, pairKey := t.pair.pairKey } }) ∧
          (attestOk st s0 = true → sub st 16 32 = natBytes 32 s0.pair.challenge ∧ digestWords (sha256 (sub st 48 64)) = s0.pair.peerId ∧ (∃ w ∈ s0.pair.peerId, w ≠ 0#32) ∧
            beAt st 12 1 = lcState s0 ∧ lcState s0 ≠ 0 ∧ sub st 112 32 = natBytes 32 s0.kst.fwMeas ∧
            sub st 144 32 = natBytes 32 ((s0.image.map Image.hash).getD 0#256) ∧ s0.pair.peerRole ≠ s0.pair.role) ∧
          (attestOk st s0 = false → gives (.peerAttestReceive dt a) fun t => t.pair.verified = false ∧ t.pair.st = s0.pair.st ∧ bitOf t.pair.event 5 = true ∧
            nth t.pair.cnt 11 0 = satAdd (nth s0.pair.cnt 11 0) 1 ∧ (s0.pair.st = .syncing → t.pair.retryAt = some (now + secFr)))))) ∧
    (s0.pair.st ≠ .syncing ∨ s0.pair.verified = false → nothing (.snapshotReceive dt x)) ∧
    (s0.pair.st = .syncing → s0.pair.verified = true →
      (x.engines = none ∨ s0.pair.cold = true → gives (.snapshotReceive dt x) fun t =>
        t = { s0 with pair := { s0.pair with gs := some x.g }, kst := { s0.kst with slots := t.kst.slots } } ∧
        (∀ k y, x.slots = [(k, y)] → k < s0.kst.slots.length → slotOfKey t k = y)) ∧
      (∀ e, x.engines = some e → s0.pair.cold = false → s0.aln.ticks = [] → gives (.snapshotReceive dt x) fun t =>
        t.pair = { s0.pair with gs := some x.g, catching := true } ∧ t.dfc.chains = e.chains ∧ t.lse.hold = e.hold ∧ t.sep.zones = e.zones ∧
        t.sep.systems = e.systems ∧ t.osm.sets = e.osm.sets ∧ t.ala.conds = e.ala.conds ∧ t.sys = s0.sys ∧ t.tkx = s0.tkx)) ∧
    (let may := s0.pair.st = .syncing ∧ s0.pair.verified = true ∧ s0.pair.gs ≠ none ∧ (s0.pair.catching = true ∨ s0.pair.cold = true) ∧ s0.sys.runState ≠ .safe
     (¬ may → nothing (.synced dt)) ∧
     (may → gives (.synced dt) fun t => t.pair.st = .standby ∧ t.pair.catching = false ∧ t.pair.cold = false ∧ t.pair.retryAt = none ∧
       nth t.pair.cnt 9 0 = satAdd (nth s0.pair.cnt 9 0) 1 ∧ bitOf t.pair.event 3 = true ∧ t.aln = s0.aln ∧ t.sys = s0.sys ∧
       (∀ c, t.tkx.cur = some c → c.skip = true))) ∧
    (s0.pair.st ≠ .syncing ∨ s0.pair.gs = none ∨ (∃ g, s0.pair.gs = some g ∧ s0.aln.next ≤ g + 15) → nothing (.syncFail dt)) ∧
    (∀ g, s0.pair.st = .syncing → s0.pair.gs = some g → g + 15 < s0.aln.next → gives (.syncFail dt) fun t => t.pair.st = .syncing ∧
      t.pair.retryAt = some (now + secFr) ∧ t.pair.verified = false ∧ t.pair.gs = none ∧ t.pair.catching = false ∧
      nth t.pair.cnt 10 0 = satAdd (nth s0.pair.cnt 10 0) 1 ∧ bitOf t.pair.event 4 = true) ∧
    (s0.pair.retryAt = none ∨ s0.pair.st ≠ .syncing ∨ (∃ r, s0.pair.retryAt = some r ∧ now < r) → nothing (.joinRetry dt)) ∧
    (∀ r, s0.pair.st = .syncing → s0.pair.retryAt = some r → r ≤ now → exec (.joinRetry dt) s = .next { s0 with
      freeCtr := s0.freeCtr + 1, out := s0.out ++ [.yoke (.challenge (Config.freeBits s0.freeCtr))]
      pair := { s0.pair with retryAt := none, challenge := Config.freeBits s0.freeCtr, verified := false } })

/-- In RUN a module that follows records each COMMIT_MARK and, outside a recovery and a MAINT_ENTER, once the pipeline span of R40 has passed and with no mirrored command waiting before it, commits the mark's tick with the mark's number; it commits a tick by itself only where no mark came by WAIT_MAX + 100 µs, which ends a cold join. EMIT_MARK and FRAME_MARK are recorded by a follower. A mirrored STEP, scheduled command or key command takes effect at once; any other waits its turn behind a MAINT_ENTER and the marks that came before it. An acknowledged key command takes effect and completes; one without an acknowledgement for 10 ms, or without a lane, fails with a fault. Digests of one tick are compared in STANDBY and ACTIVE: equal ones end a run of differences, unequal ones are counted, and MISMATCH_TH in a row make a STANDBY join anew or lead to SAFE. Own digests older than one tick are left out of comparison. -/
def Obligations.PairWork : Prop :=
  ∀ (dt seq k n v : Nat) (m : CommitMark) (c : MirrorCmd) (l : List Byte) (s : State),
    let s0 := elapse dt s
    s0.sys.ready = true → s0.pair.lane0 || s0.pair.lane1 →
    s0.pair.cnt.length = 16 → s0.kst.slots.length = 64 →
    let now := s0.tbu.free
    let gives := fun (i : Instr) (P : State → Prop) => ∃ t, exec i s = .next t ∧ P t
    let ends := fun (i : Instr) (P : State → Prop) => ∃ u, exec i s = .next (drainMirrored (settle u)) ∧ P u
    let nothing := fun (i : Instr) => exec i s = .next s0
    let follow := s0.pair.st = .syncing ∨ s0.pair.st = .standby
    let compare := s0.pair.st = .standby ∨ s0.pair.st = .active
    let busy := s0.flt.wins ≠ [] ∨ s0.aln.replay ≠ none
    let quiet := s0.tkx.cur = none ∧ s0.aln.skips = [] ∧ s0.hif.sched = [] ∧ s0.pair.switchAt = none
    let took := fun (u : State) (g q : Nat) => u.tkx.lastSeq = some q ∧ u.tkx.nextSeq = (q + 1) % 2 ^ 32 ∧ u.aln.next = g + 1 ∧
      u.tkx.notBefore = now + s0.sys.dp * fr
    let cntOf := fun (u : State) (j : Nat) => nth u.pair.cnt j 0#32
    (¬ follow ∨ s0.sys.runState ≠ .run → ends (.commitMarkReceive dt m) fun u => u = s0) ∧
    (follow → s0.sys.runState = .run →
      s0.pair.mirrored = [] →
      (busy ∨ s0.sys.maintPend ≠ none ∨ (s0.pair.marks = [] ∧ s0.aln.next ≤ m.g ∧ now < s0.tkx.notBefore) → ends (.commitMarkReceive dt m) fun u =>
        u.pair = { s0.pair with lastMark := m.seq, marks := s0.pair.marks ++ [m] } ∧ u.aln.next = s0.aln.next ∧ u.tkx = s0.tkx ∧ u.sys = s0.sys) ∧
      (¬ busy → s0.sys.maintPend = none → s0.aln.placing = true → s0.pair.marks = [] → quiet → s0.aln.next ≤ m.g → s0.tkx.notBefore ≤ now →
        ends (.commitMarkReceive dt m) fun u => took u m.g m.seq ∧ u.pair.lastMark = m.seq ∧ u.pair.marks = [] ∧
          (m.switch = true → s0.pair.st = .standby → u.pair.st = .active ∨ u.pair.st = .syncing ∨ u.sys.runState = .safe)) ∧
      (¬ busy → s0.sys.maintPend = none → s0.pair.marks = [] → m.g < s0.aln.next → ends (.commitMarkReceive dt m) fun u =>
        u.pair = { s0.pair with lastMark := m.seq } ∧ u.aln.next = s0.aln.next ∧ u.tkx = s0.tkx)) ∧
    (let late := tmReached (frate s0) s0.aln.next ((s0.aln.waitMax + 100) * 1000 * fr : Nat) (discTime s0) = true
     (¬ follow ∨ ticking s0 = false ∨ ¬ late ∨ busy ∨ now < s0.tkx.notBefore → exec (.markMissing dt) s = .next (drainMirrored (settle s0))) ∧
     (follow → ticking s0 = true → late → ¬ busy → s0.tkx.notBefore ≤ now → quiet → ends (.markMissing dt) fun u => took u s0.aln.next s0.tkx.nextSeq ∧
       cntOf u 6 = satAdd (cntOf s0 6) 1 ∧ (s0.pair.st = .syncing → s0.pair.cold = true → u.pair.st = .syncing → u.pair.cold = false))) ∧
    (¬ follow → nothing (.emitMarkReceive dt seq) ∧ nothing (.frameMarkReceive dt k n)) ∧
    (follow → exec (.emitMarkReceive dt seq) s = .next { s0 with pair := { s0.pair with
        lastEmit := some seq, frames := s0.pair.frames.filter fun h => newer h.seq seq } } ∧
      exec (.frameMarkReceive dt k n) s = .next { s0 with pair := { s0.pair with frameSt := setAt s0.pair.frameSt k n } }) ∧
    (¬ follow ∨ s0.sys.runState ≠ .run → nothing (.injectForwardReceive dt k l)) ∧
    (follow → s0.sys.runState = .run → gives (.injectForwardReceive dt k l) fun t => t.pair = s0.pair ∧ t.sys = s0.sys ∧ t.tkx = s0.tkx ∧ t.aln = s0.aln ∧
      (k / 2 ^ 30 ≠ 2 → t.ing.fifos = s0.ing.fifos ∧ t.ing.eps = s0.ing.eps ∧ (22 < s0.ing.cnt.length → nth t.ing.cnt 22 0#32 = satAdd (nth s0.ing.cnt 22 0#32) 1))) ∧
    (¬ follow ∨ s0.sys.runState = .safe → nothing (.mirrorCommandReceive dt c)) ∧
    (follow → s0.sys.runState ≠ .safe →
      (c.ordered = true → s0.sys.maintPend ≠ none →
        exec (.mirrorCommandReceive dt c) s = .next { s0 with pair := { s0.pair with mirrored := s0.pair.mirrored ++ [(lastWaiting s0, c)] } }) ∧
      (gives (.mirrorCommandReceive dt c) fun t =>
        (∀ e, c = .sched e → t = { s0 with pair := { s0.pair with schedMir := s0.pair.schedMir ++ [e] } }) ∧
        (∀ j, c = .key (.revoke j) → j < 64 → keyLegal s0 = true → (slotOfKey s0 j).st = .valid → (slotOfKey t j).st = .revoked ∧ .yoke .mirrorAck ∈ t.out)) ∧
      (s0.sys.maintPend = none → s0.pair.mirrored = [] → s0.pair.marks = [] → gives (.mirrorCommandReceive dt c) fun t => t.pair.mirrored = [] ∧
        (c = .configLock → t.sys = { s0.sys with locked := true } ∧ t.hif.open_ = false) ∧
        (c = .maintEnter → s0.sys.runState = .run → s0.tkx.cur = none → t.sys.runState = .maintenance) ∧
        (c = .unconfigure → s0.sys.runState = .maintenance → t.sys.runState = .config))) ∧
    (s0.pair.keyPend = [] → nothing (.mirrorAckReceive dt) ∧ nothing (.mirrorFail dt)) ∧
    (∀ p r, s0.pair.keyPend = p :: r →
      (gives (.mirrorAckReceive dt) fun t => t.pair = { s0.pair with keyPend := r } ∧ t.sys = s0.sys ∧
        (∀ j, p.job = .revoke j → j < 64 → keyLegal s0 = true → (slotOfKey s0 j).st = .valid → (slotOfKey t j).st = .revoked) ∧
        (∀ y, p.job = .upd y → y.slot < 64 → slotOfKey t y.slot = y.new)) ∧
      (now < p.at_ + secFr / 100 → nothing (.mirrorFail dt)) ∧
      (p.at_ + secFr / 100 ≤ now → s0.sys.runState ≠ .init → maskedNow s0 15 = false → gives (.mirrorFail dt) fun t => t.kst = s0.kst ∧
        t.flt.nextId = s0.flt.nextId + 1 ∧ bitOf t.pair.event 14 = true ∧ t.flt.low = true ∧ (t.sys.runState = .safe ∨ t.pair.keyPend = r))) ∧
    (¬ compare → ∀ d, nothing (.digestReceive dt d)) ∧
    (compare →
      (s0.pair.own.find? (fun o => o.seq = seq) = none → gives (.digestReceive dt (.tick seq v false false)) fun t => (seq, v, false, false) ∈ t.pair.peer ∧
        t = { s0 with pair := { s0.pair with peer := t.pair.peer } }) ∧
      (∀ o, s0.pair.own.find? (fun o => o.seq = seq) = some o → o.skip = false → o.suspect = false →
        gives (.digestReceive dt (.tick seq v false false)) fun t => cntOf t 0 = satAdd (cntOf s0 0) 1 ∧ t.pair.digOwn = o.value ∧ t.pair.digPeer = v ∧
          (v = o.value → t.pair.mismatch = 0 ∧ t.pair.st = s0.pair.st ∧ cntOf t 1 = cntOf s0 1 ∧ t.sys = s0.sys) ∧
          (v ≠ o.value → cntOf t 1 = satAdd (cntOf s0 1) 1 ∧ bitOf t.pair.event 12 = true ∧
            (s0.pair.mismatch + 1 < fld s0.pair.cfg.toNat 15 8 → t.pair.mismatch = s0.pair.mismatch + 1 ∧ t.pair.st = s0.pair.st ∧ t.sys = s0.sys) ∧
            (fld s0.pair.cfg.toNat 15 8 ≤ s0.pair.mismatch + 1 → s0.pair.st = .standby → maskedNow s0 15 = false → s0.sys.runState = .run →
              (t.pair.st = .syncing ∧ t.pair.mismatch = 0 ∧ t.sys = s0.sys) ∨ t.sys.runState = .safe))) ∧
      (∀ o, s0.pair.own.find? (fun o => o.seq = seq) = some o → o.skip = true → gives (.digestReceive dt (.tick seq v false false)) fun t =>
        cntOf t 2 = satAdd (cntOf s0 2) 1 ∧ t.pair.mismatch = s0.pair.mismatch ∧ t.sys = s0.sys) ∧
      (∀ w, s0.pair.finOwn.find? (fun e => e.1 = seq) = some (seq, w) → gives (.digestReceive dt (.final seq v)) fun t =>
        cntOf t 3 = (if v = w then cntOf s0 3 else satAdd (cntOf s0 3) 1) ∧ t.pair.st = s0.pair.st ∧ t.sys = s0.sys)) ∧
    (gives (.digestTimeout dt) fun t =>
      t = { s0 with pair := { s0.pair with cnt := t.pair.cnt, own := s0.pair.own.filter fun o => !decide (o.at_ + secFr / max 1 s0.sys.rate ≤ now) } } ∧
      cntOf t 2 = satAdd (cntOf s0 2) ((s0.pair.own.filter fun o => decide (o.at_ + secFr / max 1 s0.sys.rate ≤ now)).length))
end

