-- ==== Sys2Proof/Laws/Fixed/Base.lean ====
section
/-! SUPPORT. How `State.fixed` and `State.course` pass through record updates, choices and folds. -/

namespace Sys2Proof.Machine

@[simp] theorem modAt_length {α : Type} (l : List α) (k : Nat) (f : α → α) : (modAt l k f).length = l.length := by
  induction l generalizing k with
  | nil => rfl
  | cons a r ih => cases k <;> simp [modAt, ih]

@[simp] theorem setAt_length {α : Type} (l : List α) (k : Nat) (a : α) : (setAt l k a).length = l.length := modAt_length ..

@[simp] theorem fixed_mk (sys : Sys) (hif : Hif) (tbu : Tbu) (log : Log) (flt : Flt) (swm : Swm) (tkx : Tkx) (net : Net) (ing : Ing)
    (aln : Aln) (dfc : Dfc) (lse : Lse) (osm : Osm) (sep : Sep) (ge : Ge) (ala : Ala) (pair : Pair) (kst : Kst) (mbx : Mbx)
    (image : Option Image) (pending : List Instr) (out : List Out) (freeCtr : Nat) (latches : List (Nat × Word)) (readData readHigh : Word) (prior : Blocks) :
    (State.mk sys hif tbu log flt swm tkx net ing aln dfc lse osm sep ge ala pair kst mbx image pending out freeCtr latches readData readHigh prior).fixed =
      Fixed.mk sys.powered sys.ready (decide (sys.runState = .init))
        (Sizes.mk hif.rings.length hif.msix.length net.ports.length ing.fifos.length ala.pins.length mbx.chans.length mbx.locks.length
          kst.slots.length) kst.lc kst.minSvn tbu.free tbu.running hif.bme hif.d3hot hif.msixEn hif.msixMask sys.aon pending := rfl

@[simp] theorem fixed_eta (s : State) :
    Fixed.mk s.sys.powered s.sys.ready (decide (s.sys.runState = .init))
      (Sizes.mk s.hif.rings.length s.hif.msix.length s.net.ports.length s.ing.fifos.length s.ala.pins.length s.mbx.chans.length
        s.mbx.locks.length s.kst.slots.length) s.kst.lc s.kst.minSvn s.tbu.free s.tbu.running s.hif.bme s.hif.d3hot s.hif.msixEn
      s.hif.msixMask s.sys.aon s.pending = s.fixed := rfl

@[simp] theorem ite_fixed (c : Prop) [Decidable c] (s t : State) : (if c then s else t).fixed = if c then s.fixed else t.fixed :=
  apply_ite State.fixed c s t

@[simp] theorem foldl_fixed {α : Type} (f : State → α → State) (l : List α) (s : State) (h : ∀ s a, (f s a).fixed = s.fixed) :
    (l.foldl f s).fixed = s.fixed := by
  induction l generalizing s with
  | nil => rfl
  | cons a r ih => rw [List.foldl_cons, ih, h]

@[simp] theorem course_mk (sys : Sys) (hif : Hif) (tbu : Tbu) (log : Log) (flt : Flt) (swm : Swm) (tkx : Tkx) (net : Net) (ing : Ing)
    (aln : Aln) (dfc : Dfc) (lse : Lse) (osm : Osm) (sep : Sep) (ge : Ge) (ala : Ala) (pair : Pair) (kst : Kst) (mbx : Mbx)
    (image : Option Image) (pending : List Instr) (out : List Out) (freeCtr : Nat) (latches : List (Nat × Word)) (readData readHigh : Word) (prior : Blocks) :
    (State.mk sys hif tbu log flt swm tkx net ing aln dfc lse osm sep ge ala pair kst mbx image pending out freeCtr latches readData readHigh prior).course =
      Course.mk sys.runState := rfl

@[simp] theorem course_eta (s : State) : Course.mk s.sys.runState = s.course := rfl

@[simp] theorem ite_course (c : Prop) [Decidable c] (s t : State) : (if c then s else t).course = if c then s.course else t.course :=
  apply_ite State.course c s t

@[simp] theorem foldl_course {α : Type} (f : State → α → State) (l : List α) (s : State) (h : ∀ s a, (f s a).course = s.course) :
    (l.foldl f s).course = s.course := by
  induction l generalizing s with
  | nil => rfl
  | cons a r ih => rw [List.foldl_cons, ih, h]

/-- A property of the run state that every round of a fold keeps. -/
theorem foldl_keeps {α : Type} (p : State → Prop) (f : State → α → State) (l : List α) (s : State) (h : ∀ s a, p s → p (f s a)) (hs : p s) :
    p (l.foldl f s) := by
  induction l generalizing s with
  | nil => exact hs
  | cons a r ih => exact ih _ (h _ _ hs)

theorem foldl_fst_course {α β : Type} (f : State × β → α → State × β) (l : List α) (a : State × β)
    (h : ∀ a x, (f a x).1.course = a.1.course) : (l.foldl f a).1.course = a.1.course := by
  induction l generalizing a with
  | nil => rfl
  | cons x r ih => rw [List.foldl_cons, ih, h]

theorem foldl_fst_fixed {α β : Type} (f : State × β → α → State × β) (l : List α) (a : State × β)
    (h : ∀ a x, (f a x).1.fixed = a.1.fixed) : (l.foldl f a).1.fixed = a.1.fixed := by
  induction l generalizing a with
  | nil => rfl
  | cons x r ih => rw [List.foldl_cons, ih, h]

end Sys2Proof.Machine
end

