-- ==== Sys2Proof/Laws/Fixed/Ops.lean ====
section
/-! SUPPORT. The operations of Machine/Ops.lean keep power, READY, INIT, array sizes and life-cycle records. -/

namespace Sys2Proof.Machine

@[simp] theorem onPrior_fixed (f : State → State) (s : State) : (onPrior f s).fixed = s.fixed := rfl

@[simp] theorem emitOut_fixed (o : Out) (s : State) : (emitOut o s).fixed = s.fixed := rfl

@[simp] theorem hifCnt_fixed (k : Nat) (n : Nat) (s : State) : (hifCnt k n s).fixed = s.fixed := rfl

@[simp] theorem sendMsix_fixed (v : Nat) (s : State) : (sendMsix v s).fixed = s.fixed := rfl

@[simp] theorem raiseVec_fixed (v : Nat) (s : State) : (raiseVec v s).fixed = s.fixed := by simp [raiseVec]

@[simp] theorem flushVec_fixed (v : Nat) (s : State) : (flushVec v s).fixed = s.fixed := by simp [flushVec]

@[simp] theorem flushAllVecs_fixed (s : State) : (flushAllVecs s).fixed = s.fixed := by simp [flushAllVecs]

@[simp] theorem raiseBlock_fixed (b : Nat) (s : State) : (raiseBlock b s).fixed = s.fixed := by simp [raiseBlock]

@[simp] theorem hifEvent_fixed (k : Nat) (s : State) : (hifEvent k s).fixed = s.fixed := by simp [hifEvent]

@[simp] theorem dmaErr_fixed (s : State) : (dmaErr s).fixed = s.fixed := by simp [dmaErr]

@[simp] theorem tbuEvent_fixed (k : Nat) (s : State) : (tbuEvent k s).fixed = s.fixed := by simp [tbuEvent]

@[simp] theorem logEventBit_fixed (k : Nat) (s : State) : (logEventBit k s).fixed = s.fixed := by simp [logEventBit]

@[simp] theorem fltEvent_fixed (k : Nat) (s : State) : (fltEvent k s).fixed = s.fixed := by simp [fltEvent]

@[simp] theorem logCnt_fixed (k : Nat) (n : Nat) (s : State) : (logCnt k n s).fixed = s.fixed := rfl

@[simp] theorem logDrop_fixed (source : Nat) (cls : Nat) (s : State) : (logDrop source cls s).fixed = s.fixed := by simp [logDrop]

@[simp] theorem logEnter_fixed (e : LogEv) (s : State) : (logEnter e s).fixed = s.fixed := rfl

@[simp] theorem logEv_fixed (event : Nat) (source : Nat) (cls : Nat) (arg : Nat) (s : State) : (logEv event source cls arg s).fixed = s.fixed := by simp [logEv]

@[simp] theorem modRing_fixed (n : Nat) (f : Ring → Ring) (s : State) : (modRing n f s).fixed = s.fixed := by simp [modRing]

@[simp] theorem ringIrq_fixed (n : Nat) (s : State) : (ringIrq n s).fixed = s.fixed := by simp [ringIrq]

@[simp] theorem ringSignal_fixed (n : Nat) (urgent : Bool) (s : State) : (ringSignal n urgent s).fixed = s.fixed := by simp [ringSignal]

@[simp] theorem placeUnits_fixed (n : Nat) (typ : Nat) (us : List Unit512) (s : State) : (placeUnits n typ us s).fixed = s.fixed := by simp [placeUnits]

@[simp] theorem placeRec_fixed (n : Nat) (r : Rec) (s : State) : (placeRec n r s).fixed = s.fixed := by simp [placeRec]

@[simp] theorem countLost_fixed (n : Nat) (k : Nat) (s : State) : (countLost n k s).fixed = s.fixed := by simp [countLost]

@[simp] theorem drainQueue_fixed (n k : Nat) (s : State) : (drainQueue n k s).fixed = s.fixed := by
  induction k generalizing s with
  | zero => rfl
  | succ k ih => simp only [drainQueue]; split <;> (try split) <;> simp [ih]

@[simp] theorem drainRing_fixed (n : Nat) (s : State) : (drainRing n s).fixed = s.fixed := by simp [drainRing]

@[simp] theorem loseNew_fixed (n : Nat) (r : Rec) (c : Loss) (s : State) : (loseNew n r c s).fixed = s.fixed := by simp [loseNew]

@[simp] theorem handRaw_fixed (n : Nat) (r : Rec) (s : State) : (handRaw n r s).fixed = s.fixed := by simp [handRaw]

@[simp] theorem handRec_fixed (n : Nat) (typ : Nat) (us : List Unit512) (stamp : Option Nat) (tick : Option Nat) (s : State) : (handRec n typ us stamp tick s).fixed = s.fixed := by simp [handRec]

@[simp] theorem writeCompl_fixed (n : Nat) (b : Compl256) (irq : Bool) (s : State) : (writeCompl n b irq s).fixed = s.fixed := by simp [writeCompl]

@[simp] theorem drainHeldN_fixed (n k : Nat) (s : State) : (drainHeldN n k s).fixed = s.fixed := by
  induction k generalizing s with
  | zero => rfl
  | succ k ih => simp only [drainHeldN]; split <;> (try split) <;> simp [ih]

@[simp] theorem drainHeld_fixed (n : Nat) (s : State) : (drainHeld n s).fixed = s.fixed := by simp [drainHeld]

@[simp] theorem completeWith_fixed (c : Ctx) (st : Status) (late : Bool) (tick : Option Nat) (result : Nat) (s : State) : (completeWith c st late tick result s).fixed = s.fixed := by simp [completeWith]

@[simp] theorem complete_fixed (c : Ctx) (st : Status) (s : State) : (complete c st s).fixed = s.fixed := by simp [complete]

/-- A change of run state that neither enters nor leaves INIT. -/
theorem setRunState_fixed (r : RunState) (cause : Nat) (s : State) (h : s.fixed.inInit = decide (r = .init)) :
    (setRunState r cause s).fixed = s.fixed := by
  simp only [setRunState, ite_fixed, logEv_fixed, fixed_mk, ite_self, ← h]
  rfl

theorem inInit_false {s : State} (h : s.sys.runState ≠ .init) : s.fixed.inInit = false := decide_eq_false h

@[simp] theorem drawFree_fixed (s : State) : (drawFree s).2.fixed = s.fixed := rfl

end Sys2Proof.Machine
end

