-- ==== Sys2Proof/Laws/Fixed/Sextant.lean ====
section
/-! SUPPORT. The operations of Machine/Sextant.lean keep power, READY, INIT, array sizes and life-cycle records. -/

namespace Sys2Proof.Machine

@[simp] theorem modDom_fixed (x : DomId) (f : Dom → Dom) (s : State) : (modDom x f s).fixed = s.fixed := by
  unfold modDom
  split <;> simp

@[simp] theorem logSuspect_fixed (code : Nat) (s : State) : (logSuspect code s).fixed = s.fixed := by simp [logSuspect]

@[simp] theorem evalSuspect_fixed (check : Bool) (pairBad : Bool) (s : State) : (evalSuspect check pairBad s).fixed = s.fixed := by simp [evalSuspect]

@[simp] theorem crossCheck_fixed (s : State) : (crossCheck s).fixed = s.fixed := by simp [crossCheck]

@[simp] theorem selectDom_fixed (y : DomId) (auto : Bool) (s : State) : (selectDom y auto s).fixed = s.fixed := by simp [selectDom]

@[simp] theorem takeSel_fixed (y : DomId) (s : State) : (takeSel y s).fixed = s.fixed := by simp [takeSel]

@[simp] theorem autoSelect_fixed (s : State) : (autoSelect s).fixed = s.fixed := by
  unfold autoSelect
  split <;> simp

@[simp] theorem enterState_fixed (x : DomId) (new : DomState) (s : State) : (enterState x new s).fixed = s.fixed := by simp [enterState]

@[simp] theorem enterDr_fixed (x : DomId) (cause : DrCause) (dwell : Dwell) (s : State) : (enterDr x cause dwell s).fixed = s.fixed := by simp [enterDr]

@[simp] theorem servo_fixed (x : DomId) (theta : Int) (tau : Nat) (s : State) : (servo x theta tau s).fixed = s.fixed := by simp [servo]

@[simp] theorem epochStep_fixed (amount : Int) (counted : Bool) (s : State) : (epochStep amount counted s).fixed = s.fixed := by simp [epochStep]

@[simp] theorem initialSet_fixed (x : DomId) (theta : Int) (s : State) : (initialSet x theta s).fixed = s.fixed := by simp [initialSet]

@[simp] theorem tauOf_fixed (x : DomId) (at_ : Nat) (s : State) : (tauOf x at_ s).2.fixed = s.fixed := by
  unfold tauOf
  split <;> simp

@[simp] theorem judgeAcquire_fixed (x : DomId) (theta : Int) (s : State) : (judgeAcquire x theta s).fixed = s.fixed := by simp [judgeAcquire]

@[simp] theorem judgeLocked_fixed (x : DomId) (theta : Int) (s : State) : (judgeLocked x theta s).fixed = s.fixed := by simp [judgeLocked]

@[simp] theorem acquireSample_fixed (x : DomId) (theta : Int) (at_ : Nat) (tau : Option Nat) (s : State) : (acquireSample x theta at_ tau s).fixed = s.fixed := by
  unfold acquireSample
  split <;> simp

@[simp] theorem lockedSample_fixed (x : DomId) (theta : Int) (at_ : Nat) (tau : Option Nat) (s : State) : (lockedSample x theta at_ tau s).fixed = s.fixed := by
  simp only [lockedSample]
  repeat' split
  all_goals simp

@[simp] theorem requalJudge_fixed (x : DomId) (s : State) : (requalJudge x s).fixed = s.fixed := by simp [requalJudge]

@[simp] theorem requalSample_fixed (x : DomId) (theta : Int) (at_ : Nat) (s : State) : (requalSample x theta at_ s).fixed = s.fixed := by simp [requalSample]

@[simp] theorem dwellSync_fixed (x : DomId) (s : State) : (dwellSync x s).fixed = s.fixed := by
  unfold dwellSync
  split <;> simp

@[simp] theorem domSample_fixed (x : DomId) (theta dd : Int) (at_ : Nat) (s : State) : (domSample x theta dd at_ s).fixed = s.fixed := by
  simp only [domSample]
  repeat' split
  all_goals simp

@[simp] theorem syncFor_fixed (x : DomId) (port num : Nat) (src : PortId) (seq : Nat) (twoStep : Bool) (t1 : PtpTime) (corr logInt : Int) (s : State) : (syncFor x port num src seq twoStep t1 corr logInt s).fixed = s.fixed := by simp [syncFor]

@[simp] theorem followUpFor_fixed (x : DomId) (port num : Nat) (src : PortId) (seq : Nat) (t1 : PtpTime) (corr : Int) (s : State) : (followUpFor x port num src seq t1 corr s).fixed = s.fixed := by
  simp only [followUpFor]
  repeat' split
  all_goals simp

@[simp] theorem setGm_fixed (x : DomId) (g : Foreign) (s : State) : (setGm x g s).fixed = s.fixed := by
  simp only [setGm]
  repeat' split
  all_goals simp

@[simp] theorem announceFor_fixed (x : DomId) (port : Nat) (num : Nat) (a : Announce) (s : State) : (announceFor x port num a s).fixed = s.fixed := by
  simp only [announceFor]
  repeat' split
  all_goals simp

@[simp] theorem announceTimeout_fixed (x : DomId) (s : State) : (announceTimeout x s).fixed = s.fixed := by
  unfold announceTimeout
  split <;> simp

@[simp] theorem syncTimeout_fixed (x : DomId) (s : State) : (syncTimeout x s).fixed = s.fixed := by simp [syncTimeout]

@[simp] theorem writeTbuCtrl_fixed (v : Word) (s : State) : (writeTbuCtrl v s).fixed = s.fixed := by simp [writeTbuCtrl]

@[simp] theorem writeDcfg_fixed (x : DomId) (v : Word) (s : State) : (writeDcfg x v s).fixed = s.fixed := by simp [writeDcfg]

@[simp] theorem ppsUnassist_fixed (s : State) : (ppsUnassist s).fixed = s.fixed := by simp [ppsUnassist]

@[simp] theorem ppsEdge_fixed (s : State) : (ppsEdge s).fixed = s.fixed := by simp [ppsEdge]

@[simp] theorem noteRise_fixed (s : State) : (noteRise s).fixed = s.fixed := rfl

@[simp] theorem ppsInEdge_fixed (s : State) : (ppsInEdge s).fixed = s.fixed := by
  simp only [ppsInEdge]
  repeat' split
  all_goals simp

@[simp] theorem ppsInLost_fixed (s : State) : (ppsInLost s).fixed = s.fixed := by
  unfold ppsInLost
  dsimp only
  split
  · rfl
  · split
    · rfl
    · split
      · rw [tbuEvent_fixed, ppsUnassist_fixed]
        rfl
      · rfl

@[simp] theorem ppsOutSecond_fixed (s : State) : (ppsOutSecond s).fixed = s.fixed := by simp [ppsOutSecond]

@[simp] theorem ppsOutFall_fixed (s : State) : (ppsOutFall s).fixed = s.fixed := by
  unfold ppsOutFall
  split <;> simp

@[simp] theorem tbuSnap_fixed (v : Word) (s : State) : (tbuSnap v s).fixed = s.fixed := by simp [tbuSnap]

end Sys2Proof.Machine
end

