-- ==== Sys2Proof/Laws/Fixed/Net.lean ====
section
/-! SUPPORT. The operations of Machine/Net.lean keep power, READY, INIT, array sizes and life-cycle records. -/

namespace Sys2Proof.Machine

@[simp] theorem netEvent_fixed (k : Nat) (s : State) : (netEvent k s).fixed = s.fixed := by simp [netEvent]

@[simp] theorem modPort_fixed (p : Nat) (f : Port → Port) (s : State) : (modPort p f s).fixed = s.fixed := by simp [modPort]

@[simp] theorem netCnt_fixed (p : Nat) (k : Nat) (n : Nat) (s : State) : (netCnt p k n s).fixed = s.fixed := by simp [netCnt]

@[simp] theorem settlePause_fixed (p : Nat) (upTo : Nat) (s : State) : (settlePause p upTo s).fixed = s.fixed := by simp [settlePause]

@[simp] theorem wakePort_fixed (p : Nat) (s : State) : (wakePort p s).fixed = s.fixed := by simp [wakePort]

@[simp] theorem queueFrame_fixed (p : Nat) (express : Bool) (f : TxFrame) (s : State) : (queueFrame p express f s).fixed = s.fixed := by simp [queueFrame]

@[simp] theorem copies_fixed (p : Nat) (f : TxFrame) (s : State) : (copies p f s).2.fixed = s.fixed := by
  unfold copies
  split <;> simp

@[simp] theorem handFrame_fixed (p : Nat) (express : Bool) (f : TxFrame) (s : State) : (handFrame p express f s).fixed = s.fixed := by
  unfold handFrame
  rw [foldl_fixed _ _ _ fun s c => queueFrame_fixed .., copies_fixed]

@[simp] theorem shedFrame_fixed (p : Nat) (g : Nat) (f : TxFrame) (s : State) : (shedFrame p g f s).fixed = s.fixed := by
  unfold shedFrame
  rw [foldl_fixed _ _ _ fun s c => by simp, copies_fixed]

@[simp] theorem unshedPort_fixed (p g : Nat) (s : State) : (unshedPort p g s).fixed = s.fixed := by simp [unshedPort]

@[simp] theorem markHeld_fixed (p g : Nat) (s : State) : (markHeld p g s).fixed = s.fixed := by simp [markHeld]

@[simp] theorem dropHeld_fixed (p : Nat) (g : Nat) (s : State) : (dropHeld p g s).fixed = s.fixed := by simp [dropHeld]

@[simp] theorem limitHeld_fixed (p : Nat) (s : State) : (limitHeld p s).fixed = s.fixed := by
  unfold limitHeld
  split <;> simp

@[simp] theorem addCorr_fixed (l : List Byte) (add : Int) (s : State) : (addCorr l add s).2.fixed = s.fixed := by
  simp only [addCorr]
  repeat' split
  all_goals simp

@[simp] theorem tcFwd_fixed (s : State) : (tcFwd s).fixed = s.fixed := rfl

@[simp] theorem tcRemember_fixed (e : TcEntry) (s : State) : (tcRemember e s).fixed = s.fixed := rfl

@[simp] theorem egress_fixed (p : Nat) (f : TxFrame) (s : State) : (egress p f s).2.fixed = s.fixed := by
  simp only [egress]
  repeat' split
  all_goals simp

@[simp] theorem startFrame_fixed (p : Nat) (express : Bool) (f : TxFrame) (s : State) : (startFrame p express f s).fixed = s.fixed := by simp [startFrame]

@[simp] theorem nextFrame_fixed (p : Nat) (s : State) : (nextFrame p s).fixed = s.fixed := by
  simp only [nextFrame]
  repeat' split
  all_goals simp

@[simp] theorem interruptFrame_fixed (p : Nat) (t : TxLine) (s : State) : (interruptFrame p t s).fixed = s.fixed := by
  simp only [interruptFrame]
  repeat' split
  all_goals simp

@[simp] theorem flushDown_fixed (p : Nat) (s : State) : (flushDown p s).fixed = s.fixed := by simp [flushDown]

@[simp] theorem startVerify_fixed (p : Nat) (s : State) : (startVerify p s).fixed = s.fixed := by simp [startVerify]

@[simp] theorem linkUp_fixed (p : Nat) (l : LinkIn) (s : State) : (linkUp p l s).fixed = s.fixed := by
  simp only [linkUp]
  repeat' split
  all_goals simp

@[simp] theorem linkDown_fixed (p : Nat) (s : State) : (linkDown p s).fixed = s.fixed := by simp [linkDown]

@[simp] theorem verifyTimer_fixed (p : Nat) (s : State) : (verifyTimer p s).fixed = s.fixed := by simp [verifyTimer]

@[simp] theorem lpiIdle_fixed (p : Nat) (s : State) : (lpiIdle p s).fixed = s.fixed := by simp [lpiIdle]

@[simp] theorem pauseExpiry_fixed (p : Nat) (s : State) : (pauseExpiry p s).fixed = s.fixed := by
  unfold pauseExpiry
  split <;> simp

@[simp] theorem renegotiate_fixed (p : Nat) (down : Bool) (s : State) : (renegotiate p down s).fixed = s.fixed := by simp [renegotiate]

@[simp] theorem dsShift_fixed (p : Nat) (down : Bool) (s : State) : (dsShift p down s).fixed = s.fixed := by simp [dsShift]

@[simp] theorem endForShift_fixed (p : Nat) (down : Bool) (s : State) : (endForShift p down s).fixed = s.fixed := by
  unfold endForShift
  split <;> simp

@[simp] theorem lineFree_fixed (p : Nat) (s : State) : (lineFree p s).fixed = s.fixed := by
  unfold lineFree
  split <;> simp

@[simp] theorem portTransmit_fixed (p : Nat) (s : State) : (portTransmit p s).fixed = s.fixed := by
  simp only [portTransmit]
  repeat' split
  all_goals simp

@[simp] theorem dsRevoke_fixed (p : Nat) (s : State) : (dsRevoke p s).fixed = s.fixed := by simp [dsRevoke]

@[simp] theorem dsCheck_fixed (s : State) : (dsCheck s).fixed = s.fixed := by simp [dsCheck]

@[simp] theorem dsInterval_fixed (p : Nat) (s : State) : (dsInterval p s).fixed = s.fixed := by simp [dsInterval]

@[simp] theorem dsWrite_fixed (p : Nat) (v : Word) (s : State) : (dsWrite p v s).fixed = s.fixed := by simp [dsWrite]

@[simp] theorem rxDeliver_fixed (p : Nat) (l : List Byte) (st : RxStat) (s : State) : (rxDeliver p l st s).2.fixed = s.fixed := by
  unfold rxDeliver
  split <;> simp

@[simp] theorem rxFlagged_fixed (p : Nat) (k : Nat) (l : List Byte) (st : RxStat) (s : State) : (rxFlagged p k l st s).fixed = s.fixed := by simp [rxFlagged]

@[simp] theorem rxOk_fixed (p : Nat) (len : Nat) (s : State) : (rxOk p len s).fixed = s.fixed := by simp [rxOk]

@[simp] theorem rxPause_fixed (p : Nat) (quanta : Nat) (s : State) : (rxPause p quanta s).fixed = s.fixed := by simp [rxPause]

@[simp] theorem tcForward_fixed (p : Nat) (l : List Byte) (s : State) : (tcForward p l s).fixed = s.fixed := by
  unfold tcForward
  split <;> simp

@[simp] theorem rxSextant_fixed (p : Nat) (s : State) : (rxSextant p s).fixed = s.fixed := by simp [rxSextant]

@[simp] theorem rxGood_fixed (p : Nat) (l : List Byte) (st : RxStat) (s : State) : (rxGood p l st s).fixed = s.fixed := by
  unfold rxGood
  repeat' split
  all_goals simp

@[simp] theorem prpForget_fixed (i : Nat) (s : State) : (prpForget i s).fixed = s.fixed := rfl

@[simp] theorem prpSwap_fixed (p mac seq : Nat) (s : State) : (prpSwap p mac seq s).2.fixed = s.fixed := by
  simp only [prpSwap]
  repeat' split
  all_goals simp

@[simp] theorem prpEnter_fixed (i : Nat) (mac : Nat) (seq : Nat) (s : State) : (prpEnter i mac seq s).fixed = s.fixed := rfl

@[simp] theorem rxIp_fixed (p : Nat) (l : List Byte) (st : RxStat) (s : State) : (rxIp p l st s).fixed = s.fixed := by
  unfold rxIp
  split <;> simp

@[simp] theorem rxPrp_fixed (p : Nat) (l : List Byte) (st : RxStat) (s : State) : (rxPrp p l st s).fixed = s.fixed := by
  unfold rxPrp
  split <;> simp

@[simp] theorem rxVlan_fixed (p : Nat) (l : List Byte) (st : RxStat) (s : State) : (rxVlan p l st s).fixed = s.fixed := by simp [rxVlan]

@[simp] theorem rxFrame_fixed (p : Nat) (bytes : List Byte) (reasm : Bool) (s : State) : (rxFrame p bytes reasm s).fixed = s.fixed := by simp [rxFrame]

@[simp] theorem assemble_fixed (p : Nat) (a : Assy) (b : List Byte) (more : Bool) (s : State) : (assemble p a b more s).fixed = s.fixed := by simp [assemble]

@[simp] theorem assyFirst_fixed (p cnt : Nat) (b : List Byte) (more : Bool) (s : State) : (assyFirst p cnt b more s).fixed = s.fixed := by simp [assyFirst]

@[simp] theorem assyCont_fixed (p cnt frag : Nat) (b : List Byte) (more : Bool) (s : State) : (assyCont p cnt frag b more s).fixed = s.fixed := by
  unfold assyCont
  split <;> simp

@[simp] theorem portReceive_fixed (p : Nat) (r : RxIn) (s : State) : (portReceive p r s).fixed = s.fixed := by
  unfold portReceive
  repeat' split
  all_goals simp

@[simp] theorem tcExpire_fixed (s : State) : (tcExpire s).fixed = s.fixed := rfl

@[simp] theorem pdelayRequest_fixed (p : Nat) (s : State) : (pdelayRequest p s).fixed = s.fixed := by simp [pdelayRequest]

@[simp] theorem pdelayDone_fixed (p : Nat) (t1 : Nat) (t4 : Nat) (turn : Int) (s : State) : (pdelayDone p t1 t4 turn s).fixed = s.fixed := rfl

@[simp] theorem pdelayReceive_fixed (p : Nat) (m : PdelayIn) (s : State) : (pdelayReceive p m s).fixed = s.fixed := by
  simp only [pdelayReceive]
  repeat' split
  all_goals simp

end Sys2Proof.Machine
end

