-- ==== Sys2Proof/Laws/Fixed/Helm.lean ====
section
/-! SUPPORT. The operations of Machine/Helm.lean keep power, READY, INIT, array sizes and life-cycle records. -/

namespace Sys2Proof.Machine

@[simp] theorem tkxEvent_fixed (k : Nat) (s : State) : (tkxEvent k s).fixed = s.fixed := by simp [tkxEvent]

@[simp] theorem traceRaw_fixed (e : TrEv) (bits : List (Nat × Nat × Nat)) (s : State) : (traceRaw e bits s).fixed = s.fixed := by simp [traceRaw]

@[simp] theorem traceTick_fixed (e : TrEv) (arg : Nat) (seq : Nat) (phase : Nat) (s : State) : (traceTick e arg seq phase s).fixed = s.fixed := by simp [traceTick]

@[simp] theorem traceTask_fixed (e : TrEv) (arg : Nat) (t : TEntry) (s : State) : (traceTask e arg t s).fixed = s.fixed := by simp [traceTask]

@[simp] theorem setEntries_fixed (l : List TEntry) (s : State) : (setEntries l s).fixed = s.fixed := rfl

@[simp] theorem updEntry_fixed (t : TEntry) (f : TEntry → TEntry) (s : State) : (updEntry t f s).fixed = s.fixed := rfl

@[simp] theorem dropEntry_fixed (t : TEntry) (s : State) : (dropEntry t s).fixed = s.fixed := rfl

@[simp] theorem setFlow_fixed (n : Nat) (f : Flow) (s : State) : (setFlow n f s).fixed = s.fixed := rfl

@[simp] theorem accountEmits_fixed (s : State) : (accountEmits s).fixed = s.fixed := by simp [accountEmits]

@[simp] theorem gather_fixed (t : TEntry) (s : State) : (gather t s).fixed = s.fixed := by simp [gather]

@[simp] theorem dispatch_fixed (t : TEntry) (s : State) : (dispatch t s).fixed = s.fixed := by simp [dispatch]

@[simp] theorem preempt_fixed (t : TEntry) (by_ : TEntry) (s : State) : (preempt t by_ s).fixed = s.fixed := by simp [preempt]

@[simp] theorem scheduleUnit_fixed (pr : TEntry → Nat) (u : Nat) (s : State) : (scheduleUnit pr u s).fixed = s.fixed := by
  simp only [scheduleUnit]
  repeat' split
  all_goals simp

@[simp] theorem schedule_fixed (pr : TEntry → Nat) (s : State) : (schedule pr s).fixed = s.fixed := by simp [schedule]

@[simp] theorem enterReady_fixed (t : TEntry) (s : State) : (enterReady t s).fixed = s.fixed := by
  unfold enterReady
  split <;> simp

@[simp] theorem makeReady_fixed (c : TaskCfg) (g : Nat) (seq : Nat) (s : State) : (makeReady c g seq s).fixed = s.fixed := by
  unfold makeReady
  split <;> simp

@[simp] theorem readyAll_fixed (p : Work → Bool) (g : Nat) (seq : Nat) (s : State) : (readyAll p g seq s).fixed = s.fixed := by simp [readyAll]

@[simp] theorem wakeFlow_fixed (n : Nat) (s : State) : (wakeFlow n s).fixed = s.fixed := by
  unfold wakeFlow
  split <;> simp

@[simp] theorem releaseEntry_fixed (n : Nat) (t : TEntry) (s : State) : (releaseEntry n t s).fixed = s.fixed := by simp [releaseEntry]

@[simp] theorem flowEnd_fixed (result : Bool) (t : TEntry) (s : State) : (flowEnd result t s).fixed = s.fixed := by
  unfold flowEnd
  split <;> simp

@[simp] theorem finishTask_fixed (t : TEntry) (s : State) : (finishTask t s).fixed = s.fixed := by simp [finishTask]

@[simp] theorem cancelOne_fixed (arg : Nat) (t : TEntry) (s : State) : (cancelOne arg t s).fixed = s.fixed := by simp [cancelOne]

@[simp] theorem cancelWhere_fixed (p : TEntry → Bool) (arg : Nat) (s : State) : (cancelWhere p arg s).fixed = s.fixed := by simp [cancelWhere]

@[simp] theorem cancelSoon_fixed (arg : Nat) (t : TEntry) (s : State) : (cancelSoon arg t s).fixed = s.fixed := by simp [cancelSoon]

@[simp] theorem fireMicro_fixed (x0 : Nat) (x1 : State) : (fireMicro x0 x1).fixed = x1.fixed := by
  induction x0 generalizing x1 with
  | zero => simp [fireMicro]
  | succ k ih =>
    simp only [fireMicro]
    repeat' split
    all_goals simp [ih]

@[simp] theorem delayExpiry_fixed (s : State) : (delayExpiry s).fixed = s.fixed := by simp [delayExpiry]

@[simp] theorem phaseMax_fixed (k : Nat) (us : Nat) (s : State) : (phaseMax k us s).fixed = s.fixed := rfl

@[simp] theorem phaseLate_fixed (task : Option TEntry) (phase late seq : Nat) (s : State) : (phaseLate task phase late seq s).fixed = s.fixed := by
  cases task <;> simp [phaseLate]

end Sys2Proof.Machine
end

