-- ==== Sys2Proof/Laws/Fixed/GridEdge.lean ====
section
/-! SUPPORT. The operations of Machine/GridEdge.lean keep power, READY, INIT, array sizes and life-cycle records. -/

namespace Sys2Proof.Machine

@[simp] theorem sepEvent_fixed (k : Nat) (s : State) : (sepEvent k s).fixed = s.fixed := by simp [sepEvent]

@[simp] theorem geCnt_fixed (k : Nat) (n : Nat) (s : State) : (geCnt k n s).fixed = s.fixed := rfl

@[simp] theorem sepCnt_fixed (k : Nat) (n : Nat) (s : State) : (sepCnt k n s).fixed = s.fixed := rfl

@[simp] theorem writePoint_fixed (k : Nat) (pos : Nat) (sec : Nat) (ns : Nat) (s : State) : (writePoint k pos sec ns s).fixed = s.fixed := by
  unfold writePoint
  split <;> simp

@[simp] theorem stalePoint_fixed (k : Nat) (s : State) : (stalePoint k s).fixed = s.fixed := by
  unfold stalePoint
  split <;> simp

@[simp] theorem geReport_fixed (sec : Nat) (r : GeRep) (s : State) : (geReport sec r s).fixed = s.fixed := by simp [geReport]

@[simp] theorem geClose_fixed (x0 : Nat) (x1 : State) : (geClose x0 x1).fixed = x1.fixed := by
  induction x0 generalizing x1 with
  | zero => simp [geClose]
  | succ k ih =>
    simp only [geClose]
    repeat' split
    all_goals simp [ih]

@[simp] theorem geBucketClose_fixed (s : State) : (geBucketClose s).fixed = s.fixed := by simp [geBucketClose]

@[simp] theorem geZone_fixed (b : Bucket) (z : Nat) (s : State) : (geZone b z s).fixed = s.fixed := by simp [geZone]

@[simp] theorem geAggregate_fixed (b : Bucket) (s : State) : (geAggregate b s).fixed = s.fixed := by simp [geAggregate]

@[simp] theorem geAggNext_fixed (s : State) : (geAggNext s).fixed = s.fixed := by
  unfold geAggNext
  split <;> simp

end Sys2Proof.Machine
end

