-- ==== Sys2Proof/Laws/Fixed/KeyStore.lean ====
section
/-! SUPPORT. The operations of Machine/KeyStore.lean keep power, READY, INIT, array sizes and life-cycle records. -/

namespace Sys2Proof.Machine

@[simp] theorem kstEvent_fixed (k : Nat) (s : State) : (kstEvent k s).fixed = s.fixed := by simp [kstEvent]

@[simp] theorem kstCnt_fixed (k : Nat) (n : Nat) (s : State) : (kstCnt k n s).fixed = s.fixed := rfl

@[simp] theorem restartWindows_fixed (k : Nat) (s : State) : (restartWindows k s).fixed = s.fixed := rfl

@[simp] theorem setSlot_fixed (k : Nat) (x : Slot) (s : State) : (setSlot k x s).fixed = s.fixed := by simp [setSlot]

@[simp] theorem dropRolls_fixed (k : Nat) (s : State) : (dropRolls k s).fixed = s.fixed := by simp [dropRolls]

@[simp] theorem orphan_fixed (by_ : Nat) (cause : Nat) (s : State) (j : Nat) : (orphan by_ cause s j).fixed = s.fixed := by simp [orphan]

@[simp] theorem revokeOne_fixed (k : Nat) (cause : Nat) (s : State) : (revokeOne k cause s).fixed = s.fixed := by simp [revokeOne]

@[simp] theorem revokeSlot_fixed (k : Nat) (cause : Nat) (s : State) : (revokeSlot k cause s).fixed = s.fixed := by simp [revokeSlot]

@[simp] theorem revokeAll_fixed (cause : Nat) (s : State) : (revokeAll cause s).fixed = s.fixed := by simp [revokeAll]

@[simp] theorem zeroise_fixed (k : Nat) (s : State) : (zeroise k s).fixed = s.fixed := by simp [zeroise]

@[simp] theorem zeroiseOthers_fixed (s : State) : (zeroiseOthers s).fixed = s.fixed := by simp [zeroiseOthers]

@[simp] theorem keyCell_fixed (detail : Nat) (s : State) : (keyCell detail s).fixed = s.fixed := by simp [keyCell]

@[simp] theorem freshKey_fixed (s : State) : (freshKey s).2.fixed = s.fixed := rfl

@[simp] theorem prepGenerate_fixed (p : BitVec 384) (s : State) : (prepGenerate p s).2.fixed = s.fixed := by
  simp only [prepGenerate]
  repeat' split
  all_goals simp

@[simp] theorem prepRoll_fixed (slot : Nat) (id : Word) (blob : Option (List Byte)) (blobLen outAddr : Nat) (s : State) : (prepRoll slot id blob blobLen outAddr s).2.fixed = s.fixed := by
  simp only [prepRoll]
  repeat' split
  all_goals simp

@[simp] theorem applyKey_fixed (u : KeyUpd) (s : State) : (applyKey u s).fixed = s.fixed := by
  unfold applyKey
  repeat' split
  all_goals simp

@[simp] theorem keyRevoke_fixed (slot : Nat) (s : State) : (keyRevoke slot s).2.fixed = s.fixed := by
  unfold keyRevoke
  repeat' split
  all_goals simp

@[simp] theorem fwJudge_fixed (img : List Byte) (s : State) : (fwJudge img s).2.2.fixed = s.fixed := by
  simp only [fwJudge]
  repeat' split
  all_goals simp

@[simp] theorem attest_fixed (p : BitVec 384) (challenge : Option (List Byte)) (config : BitVec 256) (s : State) : (attest p challenge config s).2.2.fixed = s.fixed := by
  simp only [attest]
  repeat' split
  all_goals simp

@[simp] theorem nonceRead_fixed (s : State) : (nonceRead s).fixed = s.fixed := rfl

@[simp] theorem tamperArm_fixed (v : Word) (s : State) : (tamperArm v s).fixed = s.fixed := by simp [tamperArm]

@[simp] theorem tamperClr_fixed (v : Word) (s : State) : (tamperClr v s).fixed = s.fixed := by simp [tamperClr]

@[simp] theorem rtcSync_fixed (s : State) : (rtcSync s).fixed = s.fixed := rfl

@[simp] theorem logTamper_fixed (cause : Nat) (s : State) : (logTamper cause s).fixed = s.fixed := by simp [logTamper]

@[simp] theorem tamperRevoke_fixed (s : State) : (tamperRevoke s).fixed = s.fixed := by simp [tamperRevoke]

@[simp] theorem tamperEvent_fixed (low : Nat) (s : State) : (tamperEvent low s).fixed = s.fixed := by simp [tamperEvent]

@[simp] theorem tamperRestore_fixed (s : State) : (tamperRestore s).fixed = s.fixed := by
  simp only [tamperRestore]
  repeat' split
  all_goals simp

@[simp] theorem rtcUpdate_fixed (s : State) : (rtcUpdate s).fixed = s.fixed := by simp [rtcUpdate]

@[simp] theorem retentionLoss_fixed (s : State) : (retentionLoss s).fixed = s.fixed := by simp [retentionLoss]

end Sys2Proof.Machine
end

