-- ==== Sys2Proof/Laws/Fixed/Ingest.lean ====
section
/-! SUPPORT. The operations of Machine/Ingest.lean keep power, READY, INIT, array sizes and life-cycle records. -/

namespace Sys2Proof.Machine

@[simp] theorem ingEvent_fixed (k : Nat) (s : State) : (ingEvent k s).fixed = s.fixed := by simp [ingEvent]

@[simp] theorem ingCnt_fixed (k : Nat) (n : Nat) (s : State) : (ingCnt k n s).fixed = s.fixed := rfl

@[simp] theorem engFrames_fixed (e : Nat) (n : Nat) (s : State) : (engFrames e n s).fixed = s.fixed := rfl

@[simp] theorem modEp_fixed (e : Nat) (f : EpRt → EpRt) (s : State) : (modEp e f s).fixed = s.fixed := by
  unfold modEp
  split <;> simp

@[simp] theorem leapUpdate_fixed (s : State) : (leapUpdate s).fixed = s.fixed := by
  unfold leapUpdate
  repeat' split
  all_goals simp

@[simp] theorem fifoDrive_fixed (n : Nat) (f : Fifo) (s : State) : (fifoDrive n f s).fixed = s.fixed := by simp [fifoDrive]

@[simp] theorem fifoPush_fixed (n : Nat) (p : Pkt) (s : State) : (fifoPush n p s).fixed = s.fixed := by simp [fifoPush]

@[simp] theorem fifoDrop_fixed (n k m : Nat) (flush : Option Nat) (s : State) : (fifoDrop n k m flush s).fixed = s.fixed := by simp [fifoDrop]

@[simp] theorem fifoFlushReq_fixed (n : Nat) (s : State) : (fifoFlushReq n s).fixed = s.fixed := by simp [fifoFlushReq]

@[simp] theorem ingFlush_fixed (v : Word) (s : State) : (ingFlush v s).fixed = s.fixed := by simp [ingFlush]

@[simp] theorem flushDone_fixed (n : Nat) (s : State) : (flushDone n s).fixed = s.fixed := by
  simp only [flushDone]
  repeat' split
  all_goals simp

@[simp] theorem journalFit_fixed (s : State) : (journalFit s).fixed = s.fixed := by
  unfold journalFit
  split <;> simp

@[simp] theorem journalAdd_fixed (i : JItem) (s : State) : (journalAdd i s).fixed = s.fixed := by simp [journalAdd]

@[simp] theorem capture_fixed (reason : Nat) (f : RxFrame) (s : State) : (capture reason f s).fixed = s.fixed := by simp [capture]

@[simp] theorem captureIf_fixed (bit : Nat) (reason : Nat) (f : RxFrame) (s : State) : (captureIf bit reason f s).fixed = s.fixed := by simp [captureIf]

@[simp] theorem ingReject_fixed (k : Nat) (ev : Option Nat) (s : State) : (ingReject k ev s).fixed = s.fixed := by
  unfold ingReject
  split <;> simp

@[simp] theorem rejectMisfit_fixed (s : State) : (rejectMisfit s).fixed = s.fixed := rfl

@[simp] theorem acceptPkt_fixed (k : Nat) (a : Arrive) (ep : Nat) (tm : Int) (vals : List Dword) (flags : Nat) (s : State) : (acceptPkt k a ep tm vals flags s).fixed = s.fixed := by simp [acceptPkt]

@[simp] theorem c37Block_fixed (a : Arrive) (l : List Byte) (s : State) (ep : Nat) : (c37Block a l s ep).fixed = s.fixed := by
  unfold c37Block
  split <;> simp

@[simp] theorem cfgFrame_fixed (a : Arrive) (l : List Byte) (f : RxFrame) (e0 : Nat) (s : State) : (cfgFrame a l f e0 s).fixed = s.fixed := by
  simp only [cfgFrame]
  repeat' (first | split | refine (foldl_fixed _ _ _ ?_).trans ?_ | intro _ _ | simp)

@[simp] theorem judgeC37_fixed (a : Arrive) (u : Udp) (f : RxFrame) (s : State) : (judgeC37 a u f s).fixed = s.fixed := by
  simp only [judgeC37]
  repeat' split
  all_goals simp

@[simp] theorem applyAuth_fixed (ep : Nat) (o : AuthOut) (s : State) : (applyAuth ep o s).2.fixed = s.fixed := by
  unfold applyAuth
  split <;> simp

@[simp] theorem judgeAsdu_fixed (a : Arrive) (u : Udp) (p : Spdu) (s : State) (q : SvAsdu) : (judgeAsdu a u p s q).fixed = s.fixed := by
  simp only [judgeAsdu]
  repeat' split
  all_goals simp

@[simp] theorem judgeGoose_fixed (a : Arrive) (u : Udp) (p : Spdu) (q : GoosePdu) (s : State) : (judgeGoose a u p q s).fixed = s.fixed := by
  simp only [judgeGoose]
  repeat' split
  all_goals simp

@[simp] theorem judge905_fixed (a : Arrive) (u : Udp) (p : Option Spdu) (s : State) : (judge905 a u p s).fixed = s.fixed := by
  unfold judge905
  repeat' split
  all_goals simp

@[simp] theorem gooseTal_fixed (ep : Nat) (s : State) : (gooseTal ep s).fixed = s.fixed := by
  unfold gooseTal
  repeat' split
  all_goals simp

@[simp] theorem setSlow_fixed (i : Nat) (u : Unit512) (s : State) : (setSlow i u s).fixed = s.fixed := rfl

@[simp] theorem slowReject_fixed (i : Nat) (k : Nat) (ev : Option Nat) (s : State) : (slowReject i k ev s).fixed = s.fixed := by
  simp only [slowReject]
  repeat' split
  all_goals simp

@[simp] theorem hxgUpdate_fixed (i : Nat) (l : List Byte) (arr : Int) (u : Unit512) (s : State) : (hxgUpdate i l arr u s).fixed = s.fixed := by simp [hxgUpdate]

@[simp] theorem hxgReport_fixed (eng : Nat) (arr : Int) (s : State) (l : List Byte) : (hxgReport eng arr s l).fixed = s.fixed := by
  simp only [hxgReport]
  repeat' split
  all_goals simp

@[simp] theorem judgeHxg_fixed (a : Arrive) (u : Udp) (s : State) : (judgeHxg a u s).fixed = s.fixed := by simp [judgeHxg]

@[simp] theorem judgeFrame_fixed (e : Nat) (f : RxFrame) (p : Option Spdu) (s : State) : (judgeFrame e f p s).fixed = s.fixed := by
  simp only [judgeFrame]
  repeat' split
  all_goals simp

@[simp] theorem ingestFrame_fixed (p : Nat) (spdu : Option Spdu) (s : State) : (ingestFrame p spdu s).fixed = s.fixed := by
  simp only [ingestFrame]
  repeat' split
  all_goals simp

@[simp] theorem injectJudge_fixed (id : Nat) (l : List Byte) (s : State) : (injectJudge id l s).2.fixed = s.fixed := by
  simp only [injectJudge]
  repeat' split
  all_goals simp

end Sys2Proof.Machine
end

