-- ==== Sys2Proof/Laws/Fixed/Churn.lean ====
section
/-! SUPPORT. The operations of Machine/Churn.lean keep power, READY, INIT, array sizes and life-cycle records. -/

namespace Sys2Proof.Machine

@[simp] theorem alnEvent_fixed (k : Nat) (s : State) : (alnEvent k s).fixed = s.fixed := by simp [alnEvent]

@[simp] theorem alnCnt_fixed (k : Nat) (n : Nat) (s : State) : (alnCnt k n s).fixed = s.fixed := rfl

@[simp] theorem advanceFront_fixed (s : State) : (advanceFront s).fixed = s.fixed := rfl

@[simp] theorem modTick_fixed (g : Nat) (f : Tick → Tick) (s : State) : (modTick g f s).fixed = s.fixed := rfl

@[simp] theorem dropTick_fixed (g : Nat) (s : State) : (dropTick g s).fixed = s.fixed := rfl

@[simp] theorem putTick_fixed (t : Tick) (s : State) : (putTick t s).fixed = s.fixed := rfl

@[simp] theorem bumpDup_fixed (g : Nat) (ep : Nat) (s : State) : (bumpDup g ep s).fixed = s.fixed := rfl

@[simp] theorem placeDup_fixed (g : Nat) (p : Pkt) (s : State) : (placeDup g p s).fixed = s.fixed := by simp [placeDup]

@[simp] theorem requestResolve_fixed (g : Nat) (seq : Nat) (s : State) : (requestResolve g seq s).fixed = s.fixed := by
  unfold requestResolve
  split <;> simp

@[simp] theorem keepFinal_fixed (g : Nat) (typ : Nat) (us : List Unit512) (s : State) : (keepFinal g typ us s).fixed = s.fixed := by simp [keepFinal]

@[simp] theorem amendTick_fixed (g : Nat) (p : Pkt) (v : EpVal) (s : State) : (amendTick g p v s).fixed = s.fixed := by
  simp only [amendTick]
  repeat' split
  all_goals simp

@[simp] theorem placeAs_fixed (p : Pkt) (v : Verdict) (s : State) : (placeAs p v s).fixed = s.fixed := by
  unfold placeAs
  split <;> simp

@[simp] theorem placePkt_fixed (p : Pkt) (s : State) : (placePkt p s).fixed = s.fixed := by simp [placePkt]

@[simp] theorem journalPkt_fixed (p : Pkt) (v : Verdict) (s : State) : (journalPkt p v s).fixed = s.fixed := by simp [journalPkt]

@[simp] theorem popFifo_fixed (n : Nat) (s : State) : (popFifo n s).fixed = s.fixed := by simp [popFifo]

@[simp] theorem markWait_fixed (n : Nat) (p : Pkt) (s : State) : (markWait n p s).fixed = s.fixed := by simp [markWait]

@[simp] theorem serveFifo_fixed (x0 : Nat) (x1 : Nat) (x2 : State) : (serveFifo x0 x1 x2).2.fixed = x2.fixed := by
  induction x0 generalizing x1 x2 with
  | zero => simp [serveFifo]
  | succ k ih =>
    simp only [serveFifo]
    repeat' split
    all_goals simp [ih]

@[simp] theorem reAmend_fixed (g : Nat) (p : Pkt) (v : EpVal) (s : State) : (reAmend g p v s).fixed = s.fixed := rfl

@[simp] theorem replayOne_fixed (j : JPkt) (s : State) : (replayOne j s).fixed = s.fixed := by
  unfold replayOne
  split <;> simp

@[simp] theorem replayStep_fixed (s : State) : (replayStep s).fixed = s.fixed := by
  unfold replayStep
  split <;> simp

@[simp] theorem replayRest_fixed (s : State) : (replayRest s).fixed = s.fixed := by
  unfold replayRest
  split <;> simp

@[simp] theorem noteQuorum_fixed (s : State) : (noteQuorum s).fixed = s.fixed := rfl

theorem placeServed_fixed (r : Option (Nat × Pkt) × State) : (placeServed r).fixed = r.2.fixed := by
  rcases r with ⟨_ | ⟨n, p⟩, t⟩
  · rfl
  · rw [placeServed, noteQuorum_fixed, placePkt_fixed, journalPkt_fixed, popFifo_fixed, fixed_mk, fixed_eta]

@[simp] theorem placeNext_fixed (s : State) : (placeNext s).fixed = s.fixed := by
  rw [placeNext, placeServed_fixed, serveFifo_fixed, advanceFront_fixed]

@[simp] theorem countCause_fixed (c : Nat) (s : State) : (countCause c s).fixed = s.fixed := by
  unfold countCause
  split <;> simp

@[simp] theorem freezeView_fixed (g : Nat) (seq : Nat) (cause : Nat) (eps : List (Nat × EpVal)) (s : State) : (freezeView g seq cause eps s).fixed = s.fixed := rfl

@[simp] theorem discardOpen_fixed (g : Nat) (s : State) : (discardOpen g s).fixed = s.fixed := by
  unfold discardOpen
  split <;> simp

@[simp] theorem dropResolve_fixed (g : Nat) (s : State) : (dropResolve g s).fixed = s.fixed := by
  unfold dropResolve
  split <;> simp

@[simp] theorem writeFinalized_fixed (t : Tick) (cause : Nat) (s : State) : (writeFinalized t cause s).fixed = s.fixed := by simp [writeFinalized]

@[simp] theorem keepPast_fixed (t : Tick) (s : State) : (keepPast t s).fixed = s.fixed := by simp [keepPast]

@[simp] theorem releaseTick_fixed (g : Nat) (s : State) : (releaseTick g s).fixed = s.fixed := by
  unfold releaseTick
  split <;> simp

@[simp] theorem finalizeTick_fixed (cause : Nat) (g : Nat) (s : State) : (finalizeTick cause g s).fixed = s.fixed := by
  simp only [finalizeTick]
  repeat' split
  all_goals simp

end Sys2Proof.Machine
end

