-- ==== Sys2Proof/Laws/Fixed/Oscillation.lean ====
section
/-! SUPPORT. The operations of Machine/Oscillation.lean keep power, READY, INIT, array sizes and life-cycle records. -/

namespace Sys2Proof.Machine

@[simp] theorem osmCnt_fixed (k : Nat) (n : Nat) (s : State) : (osmCnt k n s).fixed = s.fixed := rfl

@[simp] theorem osmEvent_fixed (k : Nat) (s : State) : (osmEvent k s).fixed = s.fixed := by simp [osmEvent]

@[simp] theorem dropQueues_fixed (s : State) : (dropQueues s).fixed = s.fixed := by simp [dropQueues]

@[simp] theorem resetSets_fixed (s : State) : (resetSets s).fixed = s.fixed := rfl

@[simp] theorem deferLoc_fixed (x : LocIn) (s : State) : (deferLoc x s).fixed = s.fixed := by simp [deferLoc]

@[simp] theorem putSet_fixed (k : Nat) (e : OsmSet) (s : State) : (putSet k e s).fixed = s.fixed := rfl

@[simp] theorem deferSet_fixed (k : Nat) (x : OsmIn) (s : State) : (deferSet k x s).fixed = s.fixed := by
  unfold deferSet
  repeat' split
  all_goals simp

@[simp] theorem carryId_fixed (k : Nat) (g : Nat) (s : State) : (carryId k g s).fixed = s.fixed := by
  unfold carryId
  split <;> simp

@[simp] theorem locationTick_fixed (x : LocIn) (s : State) : (locationTick x s).fixed = s.fixed := rfl

@[simp] theorem freeSlots_fixed (p : LocSlot → Bool) (s : State) : (freeSlots p s).fixed = s.fixed := rfl

@[simp] theorem finishId_fixed (k : Nat) (f : Nat) (head : List (Nat × Nat × Nat)) (marks : Nat) (e : OsmSet) (out : IdOut) (ends : List Nat) (s : State) : (finishId k f head marks e out ends s).1.fixed = s.fixed := rfl

@[simp] theorem slotFor_fixed (k : Nat) (g : Nat) (e : OsmSet) (s : State) (t : Track) : (slotFor k g e s t).fixed = s.fixed := by
  unfold slotFor
  repeat' split
  all_goals simp

@[simp] theorem tally_fixed (n : IdTally) (s : State) : (tally n s).fixed = s.fixed := by simp [tally]

@[simp] theorem takeModes_fixed (k : Nat) (g : Nat) (n : IdTally) (e : OsmSet) (s : State) : (takeModes k g n e s).fixed = s.fixed := by simp [takeModes]

@[simp] theorem identifyBy_fixed (k : Nat) (g : Nat) (f : Nat) (head : List (Nat × Nat × Nat)) (marks : Nat) (e : OsmSet) (found : Option (Nat × List Cand)) (s : State) : (identifyBy k g f head marks e found s).1.fixed = s.fixed := by
  unfold identifyBy
  split <;> simp

@[simp] theorem identifySet_fixed (k : Nat) (g : Nat) (seq : Nat) (marks : Nat) (s : State) : (identifySet k g seq marks s).1.fixed = s.fixed := by
  simp only [identifySet]
  repeat' split
  all_goals simp

@[simp] theorem resetSet_fixed (k : Nat) (e : OsmSet) (s : State) : (resetSet k e s).fixed = s.fixed := rfl

@[simp] theorem updateSet_fixed (k : Nat) (x : OsmIn) (marks : Nat) (s : State) : (updateSet k x marks s).1.fixed = s.fixed := by
  simp only [updateSet]
  repeat' split
  all_goals simp

end Sys2Proof.Machine
end

