-- ==== Sys2Proof/Laws/Fixed/Separation.lean ====
section
/-! SUPPORT. The operations of Machine/Separation.lean keep power, READY, INIT, array sizes and life-cycle records. -/

namespace Sys2Proof.Machine

@[simp] theorem sepTask_fixed (t : Tick) (s : State) : (sepTask t s).1.fixed = s.fixed := by simp [sepTask]

end Sys2Proof.Machine
end

