-- ==== Sys2Proof/Laws/Fixed/Bell.lean ====
section
/-! SUPPORT. The operations of Machine/Bell.lean keep power, READY, INIT, array sizes and life-cycle records. -/

namespace Sys2Proof.Machine

@[simp] theorem alaEvent_fixed (k : Nat) (s : State) : (alaEvent k s).fixed = s.fixed := by simp [alaEvent]

@[simp] theorem alaCnt_fixed (k : Nat) (n : Nat) (s : State) : (alaCnt k n s).fixed = s.fixed := rfl

@[simp] theorem yokeSend_fixed (m : YokeOut) (s : State) : (yokeSend m s).fixed = s.fixed := by simp [yokeSend]

@[simp] theorem drivePins_fixed (s : State) : (drivePins s).fixed = s.fixed := by simp [drivePins]

@[simp] theorem modGroup_fixed (k : Nat) (f : Group → Group) (s : State) : (modGroup k f s).fixed = s.fixed := rfl

@[simp] theorem setNext_fixed (k : Nat) (s : State) : (setNext k s).fixed = s.fixed := rfl

@[simp] theorem handGroup_fixed (k : Nat) (g : Group) (s : State) : (handGroup k g s).fixed = s.fixed := by simp [handGroup]

@[simp] theorem sendGroup_fixed (k : Nat) (s : State) : (sendGroup k s).fixed = s.fixed := by
  unfold sendGroup
  repeat' split
  all_goals simp

@[simp] theorem newState_fixed (k : Nat) (st : Nat) (t : Nat) (s : State) : (newState k st t s).fixed = s.fixed := by
  unfold newState
  split <;> simp

@[simp] theorem refreshGroup_fixed (k : Nat) (s : State) : (refreshGroup k s).fixed = s.fixed := by
  unfold refreshGroup
  repeat' split
  all_goals simp

@[simp] theorem refreshGroups_fixed (s : State) : (refreshGroups s).fixed = s.fixed := by simp [refreshGroups]

@[simp] theorem groupRetx_fixed (k : Nat) (s : State) : (groupRetx k s).fixed = s.fixed := by
  unfold groupRetx
  repeat' split
  all_goals simp

@[simp] theorem invalidFrames_fixed (s : State) : (invalidFrames s).fixed = s.fixed := by
  unfold invalidFrames
  split
  · rfl
  · exact foldl_fixed _ _ _ fun s k => by split <;> simp

@[simp] theorem keepDigest_fixed (typ : Nat) (us : List Unit512) (s : State) : (keepDigest typ us s).fixed = s.fixed := by
  unfold keepDigest
  repeat' split
  all_goals simp

@[simp] theorem noteRing_fixed (n : Nat) (seq : Nat) (s : State) : (noteRing n seq s).fixed = s.fixed := by
  unfold noteRing
  split <;> simp

@[simp] theorem writeAlarm_fixed (s : State) (e : AEv) : (writeAlarm s e).fixed = s.fixed := by
  simp only [writeAlarm]
  repeat' split
  all_goals simp

@[simp] theorem latchPins_fixed (evs : List AEv) (s : State) : (latchPins evs s).fixed = s.fixed := by simp [latchPins]

@[simp] theorem publish_fixed (evs : List AEv) (s : State) : (publish evs s).fixed = s.fixed := by simp [publish]

@[simp] theorem setRule_fixed (k : Nat) (t : Tick) (dec2 : Bool) (ops : Nat) (prior : Nat) (cause : Nat) (rev : Nat) (reissue : Nat) (s : State) : (setRule k t dec2 ops prior cause rev reissue s).1.fixed = s.fixed := rfl

@[simp] theorem keepEnded_fixed (i : Inst) (g : Nat) (seq : Nat) (s : State) : (keepEnded i g seq s).1.fixed = s.fixed := by
  unfold keepEnded
  repeat' split
  all_goals simp

@[simp] theorem releaseRule_fixed (k g seq ops cause rev : Nat) (s : State) : (releaseRule k g seq ops cause rev s).1.fixed = s.fixed := by
  simp only [releaseRule]
  repeat' split
  all_goals simp

@[simp] theorem retractRule_fixed (k : Nat) (g : Nat) (seq : Nat) (ops : Nat) (rev : Nat) (s : State) : (retractRule k g seq ops rev s).1.fixed = s.fixed := by
  unfold retractRule
  split <;> simp

@[simp] theorem evalRule_fixed (t : Tick) (dec2 : Bool) (before : Conds) (a : State × List AEv) (x : Nat × BitVec 256) :
    (evalRule t dec2 before a x).1.fixed = a.1.fixed := by
  unfold evalRule
  dsimp only
  repeat' split
  all_goals simp

@[simp] theorem noteDecision_fixed (t : Tick) (s : State) : (noteDecision t s).fixed = s.fixed := rfl

@[simp] theorem decideD1_fixed (t : Tick) (dfc : Bool) (s : State) : (decideD1 t dfc s).fixed = s.fixed := by
  unfold decideD1
  dsimp only
  rw [publish_fixed, foldl_fst_fixed _ _ _ (evalRule_fixed _ _ _)]
  simp

@[simp] theorem decideD2_fixed (t : Tick) (res : Option LseRes) (osm : Bool) (s : State) : (decideD2 t res osm s).fixed = s.fixed := by
  unfold decideD2
  dsimp only
  rw [fixed_mk, fixed_eta, publish_fixed, foldl_fst_fixed _ _ _ (evalRule_fixed _ _ _)]
  simp

@[simp] theorem reviseRule_fixed (t : Tick) (rev : Nat) (d : D2Rec) (a : State × List AEv) (x : Nat × BitVec 256) :
    (reviseRule t rev d a x).1.fixed = a.1.fixed := by
  unfold reviseRule
  dsimp only
  repeat' split
  all_goals simp

@[simp] theorem reviseInst_fixed (t : Tick) (rev : Nat) (res : LseRes) (a : State × List AEv) (i : Inst) :
    (reviseInst t rev res a i).1.fixed = a.1.fixed := by
  unfold reviseInst
  dsimp only
  repeat' split
  all_goals simp

@[simp] theorem reviseAlarms_fixed (t : Tick) (rev : Nat) (res : LseRes) (s : State) : (reviseAlarms t rev res s).fixed = s.fixed := by
  unfold reviseAlarms
  split
  · rfl
  · dsimp only
    split
    · rw [publish_fixed, foldl_fst_fixed _ _ _ (reviseRule_fixed _ _ _)]
      simp
    · rw [publish_fixed, foldl_fst_fixed _ _ _ (reviseInst_fixed _ _ _)]

@[simp] theorem confirmAlarms_fixed (t : Tick) (s : State) : (confirmAlarms t s).fixed = s.fixed := by simp [confirmAlarms]

@[simp] theorem endAlarms_fixed (s : State) : (endAlarms s).fixed = s.fixed := by simp [endAlarms]

@[simp] theorem unlatch_fixed (k : Nat) (s : State) : (unlatch k s).fixed = s.fixed := by simp [unlatch]

@[simp] theorem pinClear_fixed (mask : Nat) (s : State) : (pinClear mask s).fixed = s.fixed := by simp [pinClear]

@[simp] theorem pinFollow_fixed (k : Nat) (s : State) : (pinFollow k s).fixed = s.fixed := by simp [pinFollow]

end Sys2Proof.Machine
end

