-- ==== Sys2Proof/Laws/Fixed/Mailbox.lean ====
section
/-! SUPPORT. The operations of Machine/Mailbox.lean keep power, READY, INIT, array sizes and life-cycle records. -/

namespace Sys2Proof.Machine

@[simp] theorem mbxEvent_fixed (k : Nat) (s : State) : (mbxEvent k s).fixed = s.fixed := by simp [mbxEvent]

@[simp] theorem mbxCnt_fixed (c : Nat) (k : Nat) (s : State) : (mbxCnt c k s).fixed = s.fixed := by simp [mbxCnt]

@[simp] theorem modChan_fixed (c : Nat) (f : MChan → MChan) (s : State) : (modChan c f s).fixed = s.fixed := by simp [modChan]

@[simp] theorem modDir_fixed (c : Nat) (back : Bool) (f : MDir → MDir) (s : State) : (modDir c back f s).fixed = s.fixed := by simp [modDir]

@[simp] theorem drawAfter_fixed (bound : Nat) (s : State) : (drawAfter bound s).2.fixed = s.fixed := rfl

@[simp] theorem pushWord_fixed (c : Nat) (back : Bool) (w : Word) (lag : Nat) (s : State) : (pushWord c back w lag s).fixed = s.fixed := by simp [pushWord]

@[simp] theorem h2cWrite_fixed (c : Nat) (w : Word) (s : State) : (h2cWrite c w s).fixed = s.fixed := by simp [h2cWrite]

@[simp] theorem mbxCarry_fixed (c : Nat) (w : Word) (s : State) : (mbxCarry c w s).fixed = s.fixed := by simp [mbxCarry]

@[simp] theorem mbxYokeUp_fixed (s : State) : (mbxYokeUp s).fixed = s.fixed := by simp [mbxYokeUp]

@[simp] theorem corePush_fixed (c : Nat) (back : Bool) (w : Word) (s : State) : (corePush c back w s).fixed = s.fixed := by simp [corePush]

@[simp] theorem popWord_fixed (c : Nat) (back : Bool) (s : State) : (popWord c back s).2.fixed = s.fixed := by
  simp only [popWord]
  repeat' split
  all_goals simp

@[simp] theorem c2hRead_fixed (c : Nat) (s : State) : (c2hRead c s).fixed = s.fixed := by
  have h := popWord_fixed c true s
  unfold c2hRead
  split
  · rfl
  · generalize popWord c true s = r at h ⊢
    rcases r with ⟨_ | w, t⟩ <;> simp_all

@[simp] theorem corePop_fixed (c : Nat) (back : Bool) (s : State) : (corePop c back s).fixed = s.fixed := by
  have h := popWord_fixed c back s
  unfold corePop
  split
  · rfl
  · generalize popWord c back s = r at h ⊢
    rcases r with ⟨_ | w, t⟩ <;> simp_all

@[simp] theorem ackWrite_fixed (c : Nat) (back : Bool) (v : Word) (s : State) : (ackWrite c back v s).fixed = s.fixed := by
  unfold ackWrite
  split <;> simp

@[simp] theorem c2hAck_fixed (c : Nat) (v : Word) (s : State) : (c2hAck c v s).fixed = s.fixed := by simp [c2hAck]

@[simp] theorem coreAck_fixed (c : Nat) (back : Bool) (v : Word) (s : State) : (coreAck c back v s).fixed = s.fixed := by simp [coreAck]

@[simp] theorem mbxTimeout_fixed (c : Nat) (back : Bool) (s : State) : (mbxTimeout c back s).fixed = s.fixed := by
  unfold mbxTimeout
  split <;> simp

@[simp] theorem lockRead_fixed (k : Nat) (reader : Nat) (s : State) : (lockRead k reader s).fixed = s.fixed := by
  unfold lockRead
  split <;> simp

@[simp] theorem lockRelease_fixed (k : Nat) (v : Word) (s : State) : (lockRelease k v s).fixed = s.fixed := by simp [lockRelease]

@[simp] theorem mbxStatClear_fixed (c : Nat) (v : Word) (s : State) : (mbxStatClear c v s).fixed = s.fixed := by simp [mbxStatClear]

@[simp] theorem mbxStatWrite_fixed (c : Nat) (v : Word) (s : State) : (mbxStatWrite c v s).fixed = s.fixed := by simp [mbxStatWrite]

@[simp] theorem restartCore_fixed (k : Nat) (s : State) : (restartCore k s).fixed = s.fixed := by simp [restartCore]

@[simp] theorem mbxYokeLost_fixed (s : State) : (mbxYokeLost s).fixed = s.fixed := by simp [mbxYokeLost]

end Sys2Proof.Machine
end

