-- ==== Sys2Proof/Laws/Fixed/Faults.lean ====
section
/-! SUPPORT. The operations of Machine/Faults.lean keep power, READY, INIT, array sizes and life-cycle records. -/

namespace Sys2Proof.Machine

@[simp] theorem fltCnt_fixed (k : Nat) (s : State) : (fltCnt k s).fixed = s.fixed := rfl

@[simp] theorem logFault_fixed (r : FaultRec) (s : State) : (logFault r s).fixed = s.fixed := by simp [logFault]

@[simp] theorem updFault_fixed (id : Nat) (f : FaultRec → FaultRec) (s : State) : (updFault id f s).fixed = s.fixed := rfl

@[simp] theorem clearFault_fixed (id : Nat) (s : State) : (clearFault id s).fixed = s.fixed := rfl

@[simp] theorem enterFault_fixed (r : FaultRec) (s : State) : (enterFault r s).fixed = s.fixed := by simp [enterFault]

@[simp] theorem tryRelease_fixed (s : State) : (tryRelease s).fixed = s.fixed := by simp [tryRelease]

@[simp] theorem driveLow_fixed (s : State) : (driveLow s).fixed = s.fixed := rfl

@[simp] theorem refuse_fixed (c : Ctx) (st : Status) (late : Bool) (s : State) : (refuse c st late s).fixed = s.fixed := by simp [refuse]

@[simp] theorem failPending_fixed (s : State) : (failPending s).fixed = s.fixed := by
  simp only [failPending]
  repeat' split
  all_goals simp

@[simp] theorem dropData_fixed (s : State) : (dropData s).fixed = s.fixed := by simp [dropData]

@[simp] theorem sendHello_fixed (query : Bool) (s : State) : (sendHello query s).fixed = s.fixed := by simp [sendHello]

@[simp] theorem enterSafe_fixed (s : State) : (enterSafe s).fixed = s.fixed := by
  unfold enterSafe
  dsimp only
  split
  · simp
  · rename_i h
    simp [setRunState_fixed, inInit_false fun e => h (Or.inl e)]

@[simp] theorem endFatal_fixed (id : Nat) (s : State) : (endFatal id s).fixed = s.fixed := by
  simp only [endFatal]
  repeat' split
  all_goals simp

@[simp] theorem closeWindow_fixed (id : Nat) (s : State) : (closeWindow id s).fixed = s.fixed := by
  unfold closeWindow
  split <;> simp

@[simp] theorem lseEvent_fixed (k : Nat) (s : State) : (lseEvent k s).fixed = s.fixed := by simp [lseEvent]

@[simp] theorem lseCnt_fixed (k : Nat) (n : Nat) (s : State) : (lseCnt k n s).fixed = s.fixed := rfl

@[simp] theorem removeEngine_fixed (dom : Nat) (inv : Bool) (s : State) : (removeEngine dom inv s).fixed = s.fixed := by
  simp only [removeEngine]
  repeat' split
  all_goals simp

@[simp] theorem rerunEngine_fixed (dom : Nat) (s : State) : (rerunEngine dom s).fixed = s.fixed := rfl

@[simp] theorem coldEngine_fixed (dom : Nat) (s : State) : (coldEngine dom s).fixed = s.fixed := by
  unfold coldEngine
  split <;> simp

@[simp] theorem unplace_fixed (s : State) (h : Nat × Nat) : (unplace s h).fixed = s.fixed := by
  unfold unplace
  repeat' split
  all_goals simp

@[simp] theorem rollback_fixed (s : State) : (rollback s).fixed = s.fixed := rfl

@[simp] theorem restartDomain_fixed (x : FaultIn) (dom : Nat) (s : State) : (restartDomain x dom s).2.fixed = s.fixed := by
  unfold restartDomain
  repeat' split
  all_goals simp

@[simp] theorem restartComplete_fixed (dom : Nat) (s : State) : (restartComplete dom s).fixed = s.fixed := by
  unfold restartComplete
  split <;> simp

@[simp] theorem engineTaskDone_fixed (w : Work) (s : State) : (engineTaskDone w s).fixed = s.fixed := by
  unfold engineTaskDone
  split <;> simp

@[simp] theorem discarded_fixed (s : State) : (discarded s).fixed = s.fixed := rfl

@[simp] theorem discardUnit_fixed (x : FaultIn) (s : State) : (discardUnit x s).fixed = s.fixed := by
  unfold discardUnit
  repeat' split
  all_goals simp

@[simp] theorem countReadback_fixed (s : State) : (countReadback s).fixed = s.fixed := rfl

@[simp] theorem faultEffect_fixed (x : FaultIn) (s : State) : (faultEffect x s).fixed = s.fixed := by
  simp only [faultEffect]
  repeat' split
  all_goals simp

@[simp] theorem react_fixed (x : FaultIn) (r : FaultRec) (s : State) : (react x r s).fixed = s.fixed := by simp [react]

@[simp] theorem mergeFault_fixed (w : Win) (conseq : Bool) (dom : Nat) (cls : Nat) (s : State) : (mergeFault w conseq dom cls s).fixed = s.fixed := by simp [mergeFault]

@[simp] theorem raiseFault_fixed (x : FaultIn) (s : State) : (raiseFault x s).fixed = s.fixed := by
  simp only [raiseFault]
  repeat' split
  all_goals simp

@[simp] theorem conditionCleared_fixed (code : Nat) (dom : Nat) (s : State) : (conditionCleared code dom s).fixed = s.fixed := by simp [conditionCleared]

@[simp] theorem fltInject_fixed (v : Word) (s : State) : (fltInject v s).fixed = s.fixed := by simp [fltInject]

@[simp] theorem faultnRelease_fixed (s : State) : (faultnRelease s).fixed = s.fixed := by simp [faultnRelease]

@[simp] theorem firstClr_fixed (s : State) : (firstClr s).fixed = s.fixed := rfl

end Sys2Proof.Machine
end

