-- ==== Sys2Proof/Laws/Fixed/PairBase.lean ====
section
/-! SUPPORT. The operations of Machine/PairBase.lean keep power, READY, INIT, array sizes and life-cycle records. -/

namespace Sys2Proof.Machine

@[simp] theorem mirror_fixed (c : MirrorCmd) (s : State) : (mirror c s).fixed = s.fixed := by simp [mirror]

@[simp] theorem pairCnt_fixed (k : Nat) (n : Nat) (s : State) : (pairCnt k n s).fixed = s.fixed := rfl

@[simp] theorem finalMeets_fixed (seq : Nat) (value : Nat) (mine : Bool) (s : State) : (finalMeets seq value mine s).fixed = s.fixed := by
  unfold finalMeets
  repeat' split
  all_goals simp

@[simp] theorem finalDigest_fixed (t : Tick) (s : State) : (finalDigest t s).fixed = s.fixed := by simp [finalDigest]

@[simp] theorem challengePeer_fixed (s : State) : (challengePeer s).fixed = s.fixed := by simp [challengePeer]

@[simp] theorem pairSticky_fixed (c : Nat) (s : State) : (pairSticky c s).fixed = s.fixed := by simp [pairSticky]

@[simp] theorem pairEvt_fixed (e : PairEv) (n : PairNote) (s : State) : (pairEvt e n s).fixed = s.fixed := by
  simp only [pairEvt]
  repeat' split
  all_goals simp

@[simp] theorem setPair_fixed (new : PairSt) (e : PairEv) (last : Nat) (s : State) : (setPair new e last s).fixed = s.fixed := by simp [setPair]

@[simp] theorem beginJoin_fixed (cold : Bool) (s : State) : (beginJoin cold s).fixed = s.fixed := by simp [beginJoin]

@[simp] theorem diverged_fixed (s : State) : (diverged s).fixed = s.fixed := by simp [diverged]

@[simp] theorem skipDigest_fixed (s : State) : (skipDigest s).fixed = s.fixed := rfl

@[simp] theorem meetDigests_fixed (o : OwnDigest) (value : Nat) (skip : Bool) (suspect : Bool) (s : State) : (meetDigests o value skip suspect s).fixed = s.fixed := by simp [meetDigests]

@[simp] theorem tickDigest_fixed (seq : Nat) (value : Nat) (skip : Bool) (suspect : Bool) (s : State) : (tickDigest seq value skip suspect s).fixed = s.fixed := by
  simp only [tickDigest]
  repeat' split
  all_goals simp

@[simp] theorem joinLater_fixed (s : State) : (joinLater s).fixed = s.fixed := rfl

@[simp] theorem noteStill_fixed (e : PairEv) (s : State) : (noteStill e s).fixed = s.fixed := by simp [noteStill]

@[simp] theorem identMeets_fixed (set : Nat) (idSeq : Nat) (value : Nat) (mine : Bool) (s : State) : (identMeets set idSeq value mine s).fixed = s.fixed := by
  simp only [identMeets]
  repeat' split
  all_goals simp

@[simp] theorem identDigest_fixed (set : Nat) (us : List Unit512) (s : State) : (identDigest set us s).fixed = s.fixed := by simp [identDigest]

@[simp] theorem digestReceive_fixed (m : DigestMsg) (s : State) : (digestReceive m s).fixed = s.fixed := by
  unfold digestReceive
  repeat' split
  all_goals simp

@[simp] theorem digestTimeout_fixed (s : State) : (digestTimeout s).fixed = s.fixed := rfl

@[simp] theorem emitMark_fixed (seq : Nat) (s : State) : (emitMark seq s).fixed = s.fixed := by simp [emitMark]

end Sys2Proof.Machine
end

