-- ==== Sys2Proof/Laws/Fixed/Output.lean ====
section
/-! SUPPORT. The operations of Machine/Output.lean keep power, READY, INIT, array sizes and life-cycle records. -/

namespace Sys2Proof.Machine

@[simp] theorem keepFrames_fixed (seq : Nat) (l : List (Nat × TxFrame)) (s : State) : (keepFrames seq l s).fixed = s.fixed := rfl

@[simp] theorem emitPortFrames_fixed (t : Tick) (p : Nat) (s : State) : (emitPortFrames t p s).fixed = s.fixed := by simp [emitPortFrames]

@[simp] theorem shedPortFrames_fixed (t : Tick) (p : Nat) (s : State) : (shedPortFrames t p s).fixed = s.fixed := by simp [shedPortFrames]

@[simp] theorem unshed_fixed (p g : Nat) (s : State) : (unshed p g s).fixed = s.fixed := by simp [unshed]

@[simp] theorem sendMarks_fixed (n : Nat) (s : State) : (sendMarks n s).fixed = s.fixed := by
  induction n generalizing s with
  | zero => rfl
  | succ k ih =>
    simp only [sendMarks]
    repeat' split
    all_goals simp [ih]

@[simp] theorem marksDue_fixed (s : State) : (marksDue s).fixed = s.fixed := by
  simp only [marksDue]
  all_goals simp

@[simp] theorem transmitPort_fixed (p : Nat) (s : State) : (transmitPort p s).fixed = s.fixed := by simp [transmitPort]

@[simp] theorem releaseFrames_fixed (s : State) : (releaseFrames s).fixed = s.fixed := by simp [releaseFrames]

end Sys2Proof.Machine
end

