-- ==== Sys2Proof/Laws/Fixed/TickWork.lean ====
section
/-! SUPPORT. The operations of Machine/TickWork.lean keep power, READY, INIT, array sizes and life-cycle records. -/

namespace Sys2Proof.Machine

@[simp] theorem modCur_fixed (f : Cur → Cur) (s : State) : (modCur f s).fixed = s.fixed := rfl

@[simp] theorem queueRec_fixed (r : EmitRec) (s : State) : (queueRec r s).fixed = s.fixed := rfl

@[simp] theorem dfcEvent_fixed (k : Nat) (s : State) : (dfcEvent k s).fixed = s.fixed := by simp [dfcEvent]

@[simp] theorem dfcCnt_fixed (k : Nat) (n : Nat) (s : State) : (dfcCnt k n s).fixed = s.fixed := rfl

@[simp] theorem swapDone_fixed (seq : Nat) (w : Swap) (s : State) : (swapDone seq w s).fixed = s.fixed := by
  unfold swapDone
  split <;> simp

@[simp] theorem chainWork_fixed (t : Tick) (s : State) (x : Nat × Chain) : (chainWork t s x).fixed = s.fixed := by
  simp only [chainWork]
  repeat' (split <;> try simp)

@[simp] theorem dfcGroup_fixed (t : Tick) (grp : Nat) (s : State) : (dfcGroup t grp s).fixed = s.fixed := by simp [dfcGroup]

@[simp] theorem bindTick_fixed (snap : Option (List Bool)) (s : State) : (bindTick snap s).2.fixed = s.fixed := by
  unfold bindTick
  split <;> simp

@[simp] theorem lseInvariant_fixed (s : State) : (lseInvariant s).fixed = s.fixed := by simp [lseInvariant]

@[simp] theorem lseWriteBack_fixed (t : Tick) (v : Solve) (r : LseRes) (s : State) : (lseWriteBack t v r s).fixed = s.fixed := rfl

@[simp] theorem lseTally_fixed (t : Tick) (v : Solve) (r : LseRes) (s : State) : (lseTally t v r s).fixed = s.fixed := by simp [lseTally]

@[simp] theorem analyzeTick_fixed (t : Tick) (v : Solve) (s : State) : (analyzeTick t v s).2.fixed = s.fixed := by
  unfold analyzeTick
  split <;> simp

@[simp] theorem sepWork_fixed (t : Tick) (s : State) : (sepWork t s).1.fixed = s.fixed := by simp [sepWork]

@[simp] theorem osmDigests_fixed (k : Nat) (l : List (Nat × List Unit512)) (s : State) : (osmDigests k l s).fixed = s.fixed := by simp [osmDigests]

@[simp] theorem osmWork_fixed (t : Tick) (k : Nat) (s : State) : (osmWork t k s).1.fixed = s.fixed := by
  unfold osmWork
  split <;> simp

@[simp] theorem writeNow_fixed (t : Tick) (l : List EmitRec) (s : State) : (writeNow t l s).fixed = s.fixed := by
  simp only [writeNow]
  repeat' (first | split | refine (foldl_fixed _ _ _ ?_).trans ?_ | intro _ _ | simp)

@[simp] theorem osmDeferWork_fixed (k : Nat) (s : State) : (osmDeferWork k s).fixed = s.fixed := by
  simp only [osmDeferWork]
  repeat' split
  all_goals simp

@[simp] theorem revise_fixed (t0 : Tick) (v : Solve) (s : State) : (revise t0 v s).fixed = s.fixed := by
  unfold revise
  split <;> simp

end Sys2Proof.Machine
end

