-- ==== Sys2Proof/Laws/Fixed/Scheduled.lean ====
section
/-! SUPPORT. The operations of Machine/Scheduled.lean keep power, READY, INIT, array sizes and life-cycle records. -/

namespace Sys2Proof.Machine

@[simp] theorem stageLoad_fixed (chain : Nat) (filter : Nat) (n : Nat) (words : List Word) (w : Swap) (s : State) : (stageLoad chain filter n words w s).fixed = s.fixed := by
  unfold stageLoad
  repeat' split
  all_goals simp

@[simp] theorem beginLoad_fixed (c : Ctx) (late : Bool) (chain : Nat) (filter : Nat) (n : Nat) (words : List Word) (after : Int) (s : State) : (beginLoad c late chain filter n words after s).fixed = s.fixed := by
  unfold beginLoad
  split <;> simp

@[simp] theorem keyCount_fixed (op : Bool) (st : Status) (s : State) : (keyCount op st s).fixed = s.fixed := by
  unfold keyCount
  split <;> simp

@[simp] theorem endKey_fixed (c : Ctx) (late : Bool) (tick : Option Nat) (j : KeyJob) (s : State) : (endKey c late tick j s).fixed = s.fixed := by
  unfold endKey
  split <;> simp

@[simp] theorem startKey_fixed (c : Ctx) (late : Bool) (tick : Option Nat) (j : KeyJob) (s : State) : (startKey c late tick j s).fixed = s.fixed := by simp [startKey]

@[simp] theorem finishKey_fixed (c : Ctx) (late : Bool) (tick : Option Nat) (r : KeyOut) (s : State) : (finishKey c late tick r s).fixed = s.fixed := by
  unfold finishKey
  split <;> simp

@[simp] theorem rollOf_fixed (p : BitVec 384) (blob : Option (List Byte)) (s : State) : (rollOf p blob s).2.fixed = s.fixed := by simp [rollOf]

@[simp] theorem tooLate_fixed (c : Ctx) (lat : Int) (s : State) : (tooLate c lat s).fixed = s.fixed := by simp [tooLate]

@[simp] theorem judgedLate_fixed (lat : Int) (s : State) : (judgedLate lat s).fixed = s.fixed := by simp [judgedLate]

@[simp] theorem rejudge_fixed (s : State) (c : Sched) : (rejudge s c).fixed = s.fixed := by simp [rejudge]

@[simp] theorem rejudgeAll_fixed (s : State) : (rejudgeAll s).fixed = s.fixed := by simp [rejudgeAll]

end Sys2Proof.Machine
end

