-- ==== Sys2Proof/Laws/Fixed/Tick.lean ====
section
/-! SUPPORT. The operations of Machine/Tick.lean keep power, READY, INIT, array sizes and life-cycle records. -/

namespace Sys2Proof.Machine

@[simp] theorem takeD1_fixed (s : State) : (takeD1 s).fixed = s.fixed := by
  unfold takeD1
  split <;> simp

@[simp] theorem takeD2_fixed (s : State) : (takeD2 s).fixed = s.fixed := by
  unfold takeD2
  split <;> simp

@[simp] theorem putRec_fixed (t : Tick) (s : State) (r : EmitRec) : (putRec t s r).fixed = s.fixed := by
  unfold putRec
  split <;> simp

@[simp] theorem putAligned_fixed (t : Tick) (s : State) (e : Nat × EpEntry) : (putAligned t s e).fixed = s.fixed := by
  unfold putAligned
  split <;> simp

@[simp] theorem writeRecs_fixed (s : State) : (writeRecs s).fixed = s.fixed := by
  unfold writeRecs
  split <;> simp

@[simp] theorem durations_fixed (c : Cur) (s : State) : (durations c s).2.fixed = s.fixed := rfl

@[simp] theorem writeHeader_fixed (done : Nat) (s : State) : (writeHeader done s).fixed = s.fixed := by
  simp only [writeHeader]
  repeat' split
  all_goals simp

@[simp] theorem dropCur_fixed (s : State) : (dropCur s).fixed = s.fixed := by
  unfold dropCur
  split <;> simp

@[simp] theorem makeFinal_fixed (cause : Nat) (s : State) (g : Nat) : (makeFinal cause s g).fixed = s.fixed := by
  simp only [makeFinal]
  repeat' split
  all_goals simp

@[simp] theorem finalizeDue_fixed (s : State) : (finalizeDue s).fixed = s.fixed := by simp [finalizeDue]

@[simp] theorem dropIllegal_fixed (s : State) : (dropIllegal s).fixed = s.fixed := by
  simp only [dropIllegal]
  repeat' split
  all_goals simp

@[simp] theorem startPhase_fixed (k : Nat) (s : State) : (startPhase k s).fixed = s.fixed := rfl

@[simp] theorem startSolve_fixed (c : Cur) (s : State) : (startSolve c s).fixed = s.fixed := by simp [startSolve]

@[simp] theorem readyDefer_fixed (k : Nat) (g : Nat) (seq : Nat) (s : State) : (readyDefer k g seq s).fixed = s.fixed := by simp [readyDefer]

@[simp] theorem deferUpdate_fixed (t : Tick) (k : Nat) (s : State) : (deferUpdate t k s).fixed = s.fixed := by
  simp only [deferUpdate]
  repeat' split
  all_goals simp

@[simp] theorem carryDue_fixed (g k : Nat) (s : State) : (carryDue g k s).fixed = s.fixed := by simp [carryDue]

@[simp] theorem startAnalyze_fixed (c : Cur) (s : State) : (startAnalyze c s).fixed = s.fixed := by simp [startAnalyze]

@[simp] theorem moveToSlack_fixed (c : Cur) (s : State) : (moveToSlack c s).fixed = s.fixed := by
  unfold moveToSlack
  dsimp only
  rw [modCur_fixed, foldl_fixed _ _ _ fun s t => by split <;> (try split) <;> simp]
  simp

@[simp] theorem startEmit_fixed (c : Cur) (s : State) : (startEmit c s).fixed = s.fixed := by simp [startEmit]

@[simp] theorem finishEmit_fixed (s : State) : (finishEmit s).fixed = s.fixed := by
  simp only [finishEmit]
  repeat' split
  all_goals simp

@[simp] theorem endPhase_fixed (c : Cur) (s : State) : (endPhase c s).fixed = s.fixed := by
  unfold endPhase
  split <;> simp

@[simp] theorem settleStep_fixed (s : State) : (settleStep s).fixed = s.fixed := by
  unfold settleStep
  split <;> simp

@[simp] theorem settleN_fixed (x0 : Nat) (x1 : State) : (settleN x0 x1).fixed = x1.fixed := by
  induction x0 generalizing x1 with
  | zero => simp [settleN]
  | succ k ih => simp [settleN, ih]

@[simp] theorem inCur_fixed (e : TEntry) (f : Cur → Tick → State → State) (s : State) (h : ∀ c t s, (f c t s).fixed = s.fixed) :
    (inCur e f s).fixed = s.fixed := by
  unfold inCur
  split
  · split
    · exact h _ _ _
    · rfl
  · rfl

@[simp] theorem feedPort_fixed (e : TEntry) (s : State) : (feedPort e s).fixed = s.fixed := by
  unfold feedPort
  split <;> simp

@[simp] theorem againResolve_fixed (e : TEntry) (t : Tick) (s : State) : (againResolve e t s).fixed = s.fixed := by simp [againResolve]

@[simp] theorem effect_fixed (e : TEntry) (s : State) : (effect e s).fixed = s.fixed := by
  unfold effect
  split
  all_goals (try exact inCur_fixed _ _ _ fun c t s => by (try split) <;> simp)
  all_goals (repeat' split)
  all_goals simp

@[simp] theorem releaseN_fixed (n : Nat) (s : State) : (releaseN n s).fixed = s.fixed := by
  induction n generalizing s with
  | zero => rfl
  | succ k ih =>
    simp only [releaseN]
    repeat' split
    all_goals simp [ih]

@[simp] theorem releaseAll_fixed (s : State) : (releaseAll s).fixed = s.fixed := by simp [releaseAll]

theorem enterMaint_fixed (s : State) (h : s.sys.runState ≠ .init) : (enterMaint s).fixed = s.fixed := by
  unfold enterMaint
  split
  · rfl
  · dsimp only
    split <;> simp [setRunState_fixed, inInit_false h]

@[simp] theorem maintWhenIdle_fixed (s : State) : (maintWhenIdle s).fixed = s.fixed := by
  unfold maintWhenIdle
  split
  · rename_i h
    exact enterMaint_fixed s (by simp_all)
  · rfl

@[simp] theorem settle_fixed (s : State) : (settle s).fixed = s.fixed := by simp [settle]

@[simp] theorem carryLeft_fixed (c : Cur) (s : State) : (carryLeft c s).fixed = s.fixed := by simp [carryLeft]

@[simp] theorem overrun_fixed (s : State) : (overrun s).fixed = s.fixed := by
  simp only [overrun]
  repeat' split
  all_goals simp

@[simp] theorem completeTask_fixed (e : TEntry) (s : State) : (completeTask e s).fixed = s.fixed := by simp [completeTask]

@[simp] theorem completeOnce_fixed (e : TEntry) (s : State) : (completeOnce e s).fixed = s.fixed := by
  unfold completeOnce
  split <;> simp

@[simp] theorem completeCur_fixed (w : Work) (s : State) : (completeCur w s).fixed = s.fixed := by
  unfold completeCur
  split <;> simp

@[simp] theorem dfcComplete_fixed (grp : Nat) (s : State) : (dfcComplete grp s).fixed = s.fixed := by simp [dfcComplete]

@[simp] theorem sepComplete_fixed (s : State) : (sepComplete s).fixed = s.fixed := by
  unfold sepComplete
  split <;> simp

@[simp] theorem solveComplete_fixed (bad : Bool) (s : State) : (solveComplete bad s).fixed = s.fixed := by
  simp only [solveComplete]
  repeat' split
  all_goals simp

@[simp] theorem analyzeComplete_fixed (s : State) : (analyzeComplete s).fixed = s.fixed := by simp [analyzeComplete]

@[simp] theorem osmComplete_fixed (k : Nat) (s : State) : (osmComplete k s).fixed = s.fixed := by simp [osmComplete]

@[simp] theorem locComplete_fixed (s : State) : (locComplete s).fixed = s.fixed := by simp [locComplete]

@[simp] theorem osmDeferComplete_fixed (k : Nat) (s : State) : (osmDeferComplete k s).fixed = s.fixed := by
  unfold osmDeferComplete
  split <;> simp

@[simp] theorem geAggTask_fixed (s : State) : (geAggTask s).fixed = s.fixed := by
  unfold geAggTask
  split <;> simp

@[simp] theorem emitPortComplete_fixed (p : Nat) (e : TEntry) (s : State) : (emitPortComplete p e s).fixed = s.fixed := by simp [emitPortComplete]

@[simp] theorem emitComplete_fixed (part : Option Nat) (s : State) : (emitComplete part s).fixed = s.fixed := by
  unfold emitComplete
  repeat' split
  all_goals simp

@[simp] theorem resolveAComplete_fixed (g : Nat) (bad : Bool) (s : State) : (resolveAComplete g bad s).fixed = s.fixed := by
  simp only [resolveAComplete]
  repeat' split
  all_goals simp

@[simp] theorem resolveBComplete_fixed (g : Nat) (s : State) : (resolveBComplete g s).fixed = s.fixed := by
  unfold resolveBComplete
  split <;> simp

@[simp] theorem shedEntry_fixed (t : TEntry) (s : State) : (shedEntry t s).fixed = s.fixed := by
  unfold shedEntry
  split <;> simp

@[simp] theorem shedWhere_fixed (p : TEntry → Bool) (s : State) : (shedWhere p s).fixed = s.fixed := by simp [shedWhere]

@[simp] theorem shedWork_fixed (k : Nat) (c : Cur) (s : State) : (shedWork k c s).fixed = s.fixed := by
  unfold shedWork
  split <;> simp

@[simp] theorem projection_fixed (s : State) : (projection s).fixed = s.fixed := by
  simp only [projection]
  repeat' split
  all_goals simp

@[simp] theorem reap_fixed (s : State) : (reap s).fixed = s.fixed := by simp [reap]

@[simp] theorem holdLoads_fixed (before : List TEntry) (s : State) : (holdLoads before s).fixed = s.fixed :=
  foldl_fixed _ _ _ fun s t => foldl_fixed _ _ _ fun s x => by
    dsimp only
    split
    · split <;> simp
    · rfl

@[simp] theorem endCycle_fixed (s : State) : (endCycle s).fixed = s.fixed := by simp [endCycle]

/-- All that the passing of time does to what is fixed: the clocks advance. -/
theorem elapse_fixed (dt : Nat) (s : State) : (elapse dt s).fixed =
    { s.fixed with free := if s.tbu.running then s.tbu.free + dt * 256 else s.tbu.free, aon := s.sys.aon + dt } := by
  have h := endCycle_fixed s
  unfold elapse
  split
  · rfl
  · generalize endCycle s = t at h
    have hf := congrArg Fixed.free h
    have ha := congrArg Fixed.aon h
    have hr := congrArg Fixed.running h
    rw [← h]
    simp only [State.fixed] at hf ha hr
    simp only [passTime, State.fixed, hf, ha, hr, State.sizes]

end Sys2Proof.Machine
end

