-- ==== Sys2Proof/Laws/Fixed/Commit.lean ====
section
/-! SUPPORT. The operations of Machine/Commit.lean keep power, READY, INIT, array sizes and life-cycle records. -/

namespace Sys2Proof.Machine

@[simp] theorem sendSnapshot_fixed (g : Nat) (s : State) : (sendSnapshot g s).fixed = s.fixed := by simp [sendSnapshot]

@[simp] theorem placeAfter_fixed (g : Nat) (s : State) (e : Nat × EpVal) : (placeAfter g s e).fixed = s.fixed := by
  unfold placeAfter
  split <;> simp

@[simp] theorem passOpen_fixed (g : Nat) (s : State) : (passOpen g s).fixed = s.fixed := by
  simp only [passOpen]
  repeat' (first | split | refine (foldl_fixed _ _ _ ?_).trans ?_ | intro _ _ | simp)

@[simp] theorem newCkpt_fixed (s : State) : (newCkpt s).fixed = s.fixed := rfl

@[simp] theorem judgeSwitch_fixed (c : Ctx) (late : Bool) (seq : Nat) (s : State) : (judgeSwitch c late seq s).fixed = s.fixed := by simp [judgeSwitch]

@[simp] theorem dropSwitch_fixed (seq : Nat) (s : State) : (dropSwitch seq s).fixed = s.fixed := by
  unfold dropSwitch
  split <;> simp

@[simp] theorem runSched_fixed (g : Nat) (seq : Nat) (s : State) (c : Sched) : (runSched g seq s c).fixed = s.fixed := by
  unfold runSched
  split <;> simp

@[simp] theorem takeDue_fixed (g : Nat) (s : State) : (takeDue g s).2.fixed = s.fixed := rfl

@[simp] theorem switchOver_fixed (seq : Nat) (c : Ctx) (late : Bool) (s : State) : (switchOver seq c late s).fixed = s.fixed := by simp [switchOver]

@[simp] theorem pairCommit_fixed (g : Nat) (seq : Nat) (cause : Nat) (s : State) : (pairCommit g seq cause s).fixed = s.fixed := by
  unfold pairCommit
  repeat' split
  all_goals simp

@[simp] theorem freezeTick_fixed (g : Nat) (cause : Nat) (mark : Option CommitMark) (skip : Bool) (s : State) : (freezeTick g cause mark skip s).fixed = s.fixed := by simp [freezeTick]

@[simp] theorem freeSilent_fixed (g : Nat) (s : State) : (freeSilent g s).fixed = s.fixed := by simp [freeSilent]

@[simp] theorem commitTick_fixed (cause : Nat) (mark : Option CommitMark) (missing : Bool) (s : State) : (commitTick cause mark missing s).fixed = s.fixed := by
  unfold commitTick
  cases mark <;> dsimp only
  all_goals split
  · simp
  · rw [settle_fixed]
    split <;> split <;> (try split) <;> simp
  · simp
  · rw [settle_fixed]
    split <;> split <;> (try split) <;> simp

@[simp] theorem writeSkip_fixed (w : SkipGroup) (s : State) (x : Nat × Nat) : (writeSkip w s x).fixed = s.fixed := by simp [writeSkip]

@[simp] theorem commitGroup_fixed (w : SkipGroup) (a b : Nat) (s : State) : (commitGroup w a b s).fixed = s.fixed := by simp [commitGroup]

@[simp] theorem commitSkips_fixed (n : Nat) (s : State) : (commitSkips n s).fixed = s.fixed := by
  induction n generalizing s with
  | zero => rfl
  | succ k ih =>
    simp only [commitSkips]
    repeat' split
    all_goals simp [ih]

@[simp] theorem runSkips_fixed (s : State) : (runSkips s).fixed = s.fixed := by simp [runSkips]

@[simp] theorem commitNext_fixed (cause : Nat) (mark : Option CommitMark) (missing : Bool) (s : State) : (commitNext cause mark missing s).fixed = s.fixed := by simp [commitNext]

@[simp] theorem tickCommit_fixed (s : State) : (tickCommit s).fixed = s.fixed := by simp [tickCommit]

@[simp] theorem skipPassed_fixed (was : Int) (s : State) : (skipPassed was s).fixed = s.fixed := by simp [skipPassed]

@[simp] theorem noteJump_fixed (was : Int) (s : State) : (noteJump was s).fixed = s.fixed := by simp [noteJump]

@[simp] theorem timeStepped_fixed (was : Int) (s : State) : (timeStepped was s).fixed = s.fixed := by simp [timeStepped]

@[simp] theorem checkpointDone_fixed (s : State) : (checkpointDone s).fixed = s.fixed := by simp [checkpointDone]

@[simp] theorem checkpointDeadline_fixed (s : State) : (checkpointDeadline s).fixed = s.fixed := by simp [checkpointDeadline]

end Sys2Proof.Machine
end

