-- ==== Sys2Proof/Laws/Fixed/Start.lean ====
section
/-! SUPPORT. The operations of Machine/Start.lean keep power, READY, INIT, array sizes and life-cycle records. -/

namespace Sys2Proof.Machine

@[simp] theorem endLoad_fixed (c : Ctx) (st : Status) (i : Option Image) (s : State) : (endLoad c st i s).fixed = s.fixed := by simp [endLoad]

@[simp] theorem clearMisfit_fixed (s : State) : (clearMisfit s).fixed = s.fixed := rfl

@[simp] theorem keepImage_fixed (c : Ctx) (total : Nat) (i : Image) (s : State) : (keepImage c total i s).fixed = s.fixed := by
  simp only [keepImage]
  repeat' split
  all_goals simp

@[simp] theorem configLoad_fixed (c : Ctx) (p : BitVec 384) (list : Option (List (BitVec 128))) (img : Option Image) (s : State) : (configLoad c p list img s).fixed = s.fixed := by
  unfold configLoad
  repeat' split
  all_goals simp

@[simp] theorem loadIng_fixed (i : Image) (role : Nat) (s : State) : (loadIng i role s).fixed = s.fixed := rfl

@[simp] theorem loadAln_fixed (i : Image) (s : State) : (loadAln i s).fixed = s.fixed := rfl

@[simp] theorem openWindow_fixed (s : State) : (openWindow s).fixed = s.fixed := rfl

@[simp] theorem reopenWindow_fixed (s : State) : (reopenWindow s).fixed = s.fixed := rfl

@[simp] theorem loadTkx_fixed (i : Image) (mode : Nat) (s : State) : (loadTkx i mode s).fixed = s.fixed := rfl

@[simp] theorem loadDfc_fixed (i : Image) (s : State) : (loadDfc i s).fixed = s.fixed := by
  unfold loadDfc
  split <;> simp

@[simp] theorem swapsNext_fixed (s : State) : (swapsNext s).fixed = s.fixed := rfl

@[simp] theorem resetChains_fixed (s : State) : (resetChains s).fixed = s.fixed := rfl

@[simp] theorem zeroHold_fixed (s : State) : (zeroHold s).fixed = s.fixed := rfl

@[simp] theorem loadLse_fixed (i : Image) (s : State) : (loadLse i s).fixed = s.fixed := rfl

@[simp] theorem loadOsm_fixed (i : Image) (s : State) : (loadOsm i s).fixed = s.fixed := rfl

@[simp] theorem loadSep_fixed (i : Image) (s : State) : (loadSep i s).fixed = s.fixed := rfl

@[simp] theorem loadAla_fixed (i : Image) (s : State) : (loadAla i s).fixed = s.fixed := by simp [loadAla]

@[simp] theorem loadPorts_fixed (i : Image) (s : State) : (loadPorts i s).fixed = s.fixed := by simp [loadPorts]

@[simp] theorem loadSys_fixed (i : Image) (mode : Nat) (s : State) : (loadSys i mode s).fixed = s.fixed := rfl

@[simp] theorem loadAll_fixed (i : Image) (role : Nat) (s : State) : (loadAll i role s).fixed = s.fixed := by simp [loadAll]

@[simp] theorem finishStart_fixed (c : Ctx) (role : Nat) (s : State) : (finishStart c role s).fixed = s.fixed := by
  unfold finishStart
  split
  · simp
  · rename_i h
    split
    · simp
    · simp [setRunState_fixed, inInit_false (s := s) (by simp_all)]

@[simp] theorem startCmd_fixed (c : Ctx) (s : State) : (startCmd c s).fixed = s.fixed := by
  unfold startCmd
  split <;> simp

theorem maintExit_fixed (s : State) (h : s.sys.runState ≠ .init) : (maintExit s).fixed = s.fixed := by
  simp [maintExit, setRunState_fixed, inInit_false h]

theorem unconfigure_fixed (s : State) (h : s.sys.runState ≠ .init) : (unconfigure s).fixed = s.fixed := by
  simp [unconfigure, setRunState_fixed, inInit_false h]

@[simp] theorem configLock_fixed (s : State) : (configLock s).fixed = s.fixed := by simp [configLock]

@[simp] theorem stepBy_fixed (amt : Int) (s : State) : (stepBy amt s).fixed = s.fixed := by simp [stepBy]

@[simp] theorem stepCmd_fixed (c : Ctx) (p : BitVec 384) (s : State) : (stepCmd c p s).fixed = s.fixed := by
  simp only [stepCmd]
  repeat' split
  all_goals simp

end Sys2Proof.Machine
end

