-- ==== Sys2Proof/Laws/Fixed/PairCtl.lean ====
section
/-! SUPPORT. The operations of Machine/PairCtl.lean keep power, READY, INIT, array sizes and life-cycle records. -/

namespace Sys2Proof.Machine

@[simp] theorem reissueGroups_fixed (s : State) : (reissueGroups s).fixed = s.fixed := by simp [reissueGroups]

@[simp] theorem ownSched_fixed (s : State) : (ownSched s).fixed = s.fixed := rfl

@[simp] theorem takeover_fixed (s : State) : (takeover s).fixed = s.fixed := by simp [takeover]

@[simp] theorem peerGone_fixed (s : State) : (peerGone s).fixed = s.fixed := by simp [peerGone]

@[simp] theorem forceActive_fixed (v : Word) (s : State) : (forceActive v s).fixed = s.fixed := by simp [forceActive]

@[simp] theorem peerFatal_fixed (s : State) : (peerFatal s).fixed = s.fixed := by simp [peerFatal]

@[simp] theorem osmUpdates_fixed (t : Tick) (g : Nat) (s : State) : (osmUpdates t g s).fixed = s.fixed := by simp [osmUpdates]

@[simp] theorem silentWork_fixed (t : Tick) (g : Nat) (s : State) : (silentWork t g s).fixed = s.fixed := by
  simp only [silentWork]
  repeat' split
  all_goals simp

@[simp] theorem silentTick_fixed (s : State) (g : Nat) : (silentTick s g).fixed = s.fixed := by
  simp only [silentTick]
  repeat' split
  all_goals simp

@[simp] theorem catchUp_fixed (g : Nat) (s : State) : (catchUp g s).fixed = s.fixed := by simp [catchUp]

@[simp] theorem answerChallenge_fixed (c : BitVec 256) (s : State) : (answerChallenge c s).fixed = s.fixed := by simp [answerChallenge]

@[simp] theorem attestReceive_fixed (a : PeerAttest) (s : State) : (attestReceive a s).fixed = s.fixed := by
  unfold attestReceive
  repeat' split
  all_goals simp

@[simp] theorem loadEngines_fixed (e : Engines) (s : State) : (loadEngines e s).fixed = s.fixed := by simp [loadEngines]

@[simp] theorem snapshotReceive_fixed (x : Snapshot) (s : State) : (snapshotReceive x s).fixed = s.fixed := by
  unfold snapshotReceive
  repeat' split
  all_goals simp

@[simp] theorem synced_fixed (s : State) : (synced s).fixed = s.fixed := by simp [synced]

@[simp] theorem syncFail_fixed (s : State) : (syncFail s).fixed = s.fixed := by
  unfold syncFail
  repeat' split
  all_goals simp

@[simp] theorem joinRetry_fixed (s : State) : (joinRetry s).fixed = s.fixed := by
  unfold joinRetry
  split <;> simp

@[simp] theorem answerStart_fixed (c : Ctx) (h : PairHello) (s : State) : (answerStart c h s).fixed = s.fixed := by
  unfold answerStart
  split <;> simp

@[simp] theorem dualActive_fixed (h : PairHello) (s : State) : (dualActive h s).fixed = s.fixed := by simp [dualActive]

@[simp] theorem judgePeer_fixed (was : Nat) (h : PairHello) (s : State) : (judgePeer was h s).fixed = s.fixed := by simp [judgePeer]

@[simp] theorem stateExchange_fixed (h : PairHello) (s : State) : (stateExchange h s).fixed = s.fixed := by
  simp only [stateExchange]
  repeat' split
  all_goals simp

@[simp] theorem queryTimeout_fixed (s : State) : (queryTimeout s).fixed = s.fixed := by
  unfold queryTimeout
  split <;> simp

@[simp] theorem applyMirror_fixed (s : State) (c : MirrorCmd) : (applyMirror s c).fixed = s.fixed := by
  unfold applyMirror
  split
  · split <;> simp
  · split
    · rename_i h
      exact maintExit_fixed s (by simp [h])
    · rfl
  · split
    · rename_i h
      exact unconfigure_fixed s (by simp [h])
    · rfl
  · simp
  · split <;> simp
  · split <;> simp
  · simp
  · simp
  · simp

@[simp] theorem drainMirrorN_fixed (x0 : Nat) (x1 : State) : (drainMirrorN x0 x1).fixed = x1.fixed := by
  induction x0 generalizing x1 with
  | zero => simp [drainMirrorN]
  | succ k ih =>
    simp only [drainMirrorN]
    repeat' split
    all_goals simp [ih]

@[simp] theorem drainMirrored_fixed (s : State) : (drainMirrored s).fixed = s.fixed := by simp [drainMirrored]

@[simp] theorem mirrorReceive_fixed (c : MirrorCmd) (s : State) : (mirrorReceive c s).fixed = s.fixed := by simp [mirrorReceive]

@[simp] theorem mirrorAck_fixed (s : State) : (mirrorAck s).fixed = s.fixed := by
  unfold mirrorAck
  split <;> simp

@[simp] theorem mirrorFail_fixed (s : State) : (mirrorFail s).fixed = s.fixed := by
  unfold mirrorFail
  split <;> simp

@[simp] theorem becomeActive_fixed (s : State) : (becomeActive s).fixed = s.fixed := by simp [becomeActive]

@[simp] theorem useMark_fixed (m : CommitMark) (s : State) : (useMark m s).fixed = s.fixed := by simp [useMark]

@[simp] theorem drainMarksN_fixed (x0 : Nat) (x1 : State) : (drainMarksN x0 x1).fixed = x1.fixed := by
  induction x0 generalizing x1 with
  | zero => simp [drainMarksN]
  | succ k ih =>
    simp only [drainMarksN]
    repeat' split
    all_goals simp [ih]

@[simp] theorem drainMarks_fixed (s : State) : (drainMarks s).fixed = s.fixed := by simp [drainMarks]

@[simp] theorem commitMarkReceive_fixed (m : CommitMark) (s : State) : (commitMarkReceive m s).fixed = s.fixed := by simp [commitMarkReceive]

@[simp] theorem markMissing_fixed (s : State) : (markMissing s).fixed = s.fixed := by simp [markMissing]

@[simp] theorem emitMarkReceive_fixed (seq : Nat) (s : State) : (emitMarkReceive seq s).fixed = s.fixed := by simp [emitMarkReceive]

@[simp] theorem frameMarkReceive_fixed (g : Nat) (st : Nat) (s : State) : (frameMarkReceive g st s).fixed = s.fixed := by simp [frameMarkReceive]

@[simp] theorem injectForward_fixed (id : Nat) (bytes : List Byte) (s : State) : (injectForward id bytes s).fixed = s.fixed := by simp [injectForward]

@[simp] theorem hbSend_fixed (s : State) : (hbSend s).fixed = s.fixed := by simp [hbSend]

@[simp] theorem hbReceive_fixed (lane : Nat) (peer : Int) (s : State) : (hbReceive lane peer s).fixed = s.fixed := rfl

@[simp] theorem heartbeatLost_fixed (s : State) : (heartbeatLost s).fixed = s.fixed := by simp [heartbeatLost]

@[simp] theorem hbMissed_fixed (lane : Nat) (s : State) : (hbMissed lane s).fixed = s.fixed := by simp [hbMissed]

@[simp] theorem laneDown_fixed (lane : Nat) (s : State) : (laneDown lane s).fixed = s.fixed := by simp [laneDown]

@[simp] theorem laneUp_fixed (lane : Nat) (s : State) : (laneUp lane s).fixed = s.fixed := by simp [laneUp]

@[simp] theorem yokeComesUp_fixed (h : PairHello) (s : State) : (yokeComesUp h s).fixed = s.fixed := by simp [yokeComesUp]

@[simp] theorem yokeCrc_fixed (s : State) : (yokeCrc s).fixed = s.fixed := by simp [yokeCrc]

end Sys2Proof.Machine
end

