-- ==== Sys2Proof/Laws/Fixed/Logbook.lean ====
section
/-! SUPPORT. The operations of Machine/Logbook.lean keep power, READY, INIT, array sizes and life-cycle records. -/

namespace Sys2Proof.Machine

@[simp] theorem handLogRecord_fixed (ring : Nat) (u : Unit512) (s : State) : (handLogRecord ring u s).fixed = s.fixed := by simp [handLogRecord]

@[simp] theorem logStore_fixed (e : LogEv) (s : State) : (logStore e s).fixed = s.fixed := by simp [logStore]

@[simp] theorem logDropped_fixed (s : State) : (logDropped s).fixed = s.fixed := by simp [logDropped]

@[simp] theorem logWriteNext_fixed (s : State) : (logWriteNext s).fixed = s.fixed := by
  unfold logWriteNext
  split <;> simp

@[simp] theorem logFlushN_fixed (x0 : Nat) (x1 : State) : (logFlushN x0 x1).fixed = x1.fixed := by
  induction x0 generalizing x1 with
  | zero => simp [logFlushN]
  | succ k ih =>
    simp [logFlushN, ih]

@[simp] theorem logClear_fixed (s : State) : (logClear s).2.fixed = s.fixed := by simp [logClear]

theorem logExportN_fixed (ring k seq : Nat) (a : Nat × Nat × State) : (logExportN ring k seq a).2.2.fixed = a.2.2.fixed := by
  induction k generalizing seq a with
  | zero => rfl
  | succ k ih =>
    obtain ⟨e, sk, s⟩ := a
    simp only [logExportN]
    split <;> simp [ih]

end Sys2Proof.Machine
end

