-- ==== Sys2Proof/Laws/Fixed/Commands.lean ====
section
/-! SUPPORT. The operations of Machine/Commands.lean keep power, READY, INIT, array sizes and life-cycle records. -/

namespace Sys2Proof.Machine

@[simp] theorem pendSched_fixed (c : Ctx) (atNs : Nat) (late : Bool) (cmd : SchedCmd) (s : State) : (pendSched c atNs late cmd s).fixed = s.fixed := by simp [pendSched]

@[simp] theorem noteWaits_fixed (s : State) : (noteWaits s).fixed = s.fixed := by simp [noteWaits]

@[simp] theorem takeHead_fixed (d : Desc) (op : Nat) (s : State) : (takeHead d op s).2.fixed = s.fixed := by simp [takeHead]

@[simp] theorem drainAll_fixed (s : State) : (drainAll s).fixed = s.fixed := by simp [drainAll]

@[simp] theorem busResume_fixed (s : State) : (busResume s).fixed = s.fixed := by simp [busResume]

@[simp] theorem doorbell_fixed (n : Nat) (idx : Nat) (s : State) : (doorbell n idx s).fixed = s.fixed := by simp [doorbell]

@[simp] theorem injectFail_fixed (c : Ctx) (st : Status) (s : State) : (injectFail c st s).fixed = s.fixed := by simp [injectFail]

@[simp] theorem injectNow_fixed (c : Ctx) (p : BitVec 384) (frame : Option (List Byte)) (s : State) : (injectNow c p frame s).fixed = s.fixed := by
  unfold injectNow
  split <;> simp

@[simp] theorem irqCoalTimer_fixed (n : Nat) (s : State) : (irqCoalTimer n s).fixed = s.fixed := by
  simp only [irqCoalTimer]
  repeat' split
  all_goals simp

@[simp] theorem keyRevokeNow_fixed (c : Ctx) (p : BitVec 384) (s : State) : (keyRevokeNow c p s).fixed = s.fixed := by simp [keyRevokeNow]

@[simp] theorem maintEnterNow_fixed (c : Ctx) (s : State) : (maintEnterNow c s).fixed = s.fixed := by simp [maintEnterNow]

@[simp] theorem writeMsix_fixed (k : Nat) (v : Word) (s : State) : (writeMsix k v s).fixed = s.fixed := by simp [writeMsix]

@[simp] theorem msixUnmask_fixed (v : Nat) (s : State) : (msixUnmask v s).fixed = s.fixed := by simp [msixUnmask]

@[simp] theorem switchNow_fixed (c : Ctx) (s : State) : (switchNow c s).fixed = s.fixed := by simp [switchNow]

@[simp] theorem loseStaged_fixed (n : Nat) (why : Loss) (hit : Rec → Bool) (s : State) : (loseStaged n why hit s).fixed = s.fixed := by simp [loseStaged]

@[simp] theorem recordDeadline_fixed (n : Nat) (s : State) : (recordDeadline n s).fixed = s.fixed := by simp [recordDeadline]

@[simp] theorem writeRingCfg_fixed (n : Nat) (v : Word) (s : State) : (writeRingCfg n v s).fixed = s.fixed := by simp [writeRingCfg]

theorem judgeHead_states {o : Opcode} {d : Desc} {s : State} (h : judgeHead o d s = none) : o.states.contains s.sys.runState = true := by
  unfold judgeHead at h
  split at h
  · cases h
  · split at h
    · cases h
    · split at h
      · cases h
      · rename_i h'
        simp only [Bool.or_eq_true, not_or] at h'
        simpa using h'.1

theorem withDesc_fixed (o : Opcode) (d : Desc) (fail : Ctx → Status → State → State) (run : Ctx → State → State) (s : State)
    (hf : ∀ c st t, (fail c st t).fixed = t.fixed) (hr : ∀ c t, judgeHead o d t = none → (run c t).fixed = t.fixed) :
    (withDesc o d fail run s).fixed = s.fixed := by
  unfold withDesc
  split
  · rfl
  · split
    · simp
    · have ht := takeHead_fixed d o.code s
      generalize takeHead d o.code s = r at ht ⊢
      obtain ⟨c, t⟩ := r
      simp only [noteWaits_fixed]
      rw [← ht]
      split
      · simp
      · simp
      · split
        · rw [hf]; simp
        · rename_i h
          rw [hr _ _ h]; simp

theorem plainDesc_fixed (o : Opcode) (d : Desc) (run : Ctx → State → State) (s : State)
    (hr : ∀ c t, judgeHead o d t = none → (run c t).fixed = t.fixed) : (plainDesc o d run s).fixed = s.fixed :=
  withDesc_fixed o d complete run s (fun c st t => complete_fixed c st t) hr

theorem acceptSched_fixed (c : Ctx) (d : Desc) (fail : Ctx → Status → State → State) (cmd : SchedCmd) (s : State)
    (hf : ∀ c st t, (fail c st t).fixed = t.fixed) : (acceptSched c d fail cmd s).fixed = s.fixed := by
  unfold acceptSched
  dsimp only
  repeat' split
  all_goals simp [hf]

@[simp] theorem coefLoadNow_fixed (c : Ctx) (d : Desc) (words : Option (List Word)) (s : State) : (coefLoadNow c d words s).fixed = s.fixed := by
  unfold coefLoadNow
  dsimp only
  repeat' split
  all_goals simp [acceptSched_fixed]

@[simp] theorem fwLoadNow_fixed (c : Ctx) (p : BitVec 384) (list : Option (List (BitVec 128))) (img : Option (List Byte)) (s : State) : (fwLoadNow c p list img s).fixed = s.fixed := by
  unfold fwLoadNow
  dsimp only
  repeat' split
  all_goals simp

@[simp] theorem logExportNow_fixed (c : Ctx) (p : BitVec 384) (s : State) : (logExportNow c p s).fixed = s.fixed := by
  unfold logExportNow
  dsimp only
  split
  · simp
  · simp [logExportN_fixed]

@[simp] theorem cellFail_fixed (c : Ctx) (k : Nat) (s : State) : (cellFail c k s).fixed = s.fixed := by simp [cellFail]

@[simp] theorem keyRollNow_fixed (c : Ctx) (d : Desc) (blob : Option (List Byte)) (b : Bool) (s : State) : (keyRollNow c d blob b s).fixed = s.fixed := by
  unfold keyRollNow
  dsimp only
  repeat' split
  all_goals simp [acceptSched_fixed]

@[simp] theorem nopCmd_fixed (d : Desc) (s : State) : (nopCmd d s).fixed = s.fixed := by
  exact plainDesc_fixed _ _ _ _ (by simp)

@[simp] theorem configLoadCmd_fixed (d : Desc) (list : Option (List (BitVec 128))) (img : Option Image) (s : State) : (configLoadCmd d list img s).fixed = s.fixed := by
  exact plainDesc_fixed _ _ _ _ (by simp)

@[simp] theorem startDesc_fixed (d : Desc) (s : State) : (startDesc d s).fixed = s.fixed := by
  exact plainDesc_fixed _ _ _ _ (by simp)

@[simp] theorem configLockCmd_fixed (d : Desc) (s : State) : (configLockCmd d s).fixed = s.fixed := by
  exact plainDesc_fixed _ _ _ _ (by simp)

@[simp] theorem maintEnterCmd_fixed (d : Desc) (s : State) : (maintEnterCmd d s).fixed = s.fixed := by
  exact plainDesc_fixed _ _ _ _ fun c t _ => by split <;> simp [acceptSched_fixed]

@[simp] theorem maintExitCmd_fixed (d : Desc) (s : State) : (maintExitCmd d s).fixed = s.fixed := by
  refine plainDesc_fixed _ _ _ _ fun c t h => ?_
  have hs : (mirror .maintExit t).fixed.inInit = false := by
    rw [mirror_fixed]; exact inInit_false fun e => by simpa [Opcode.states, e] using judgeHead_states h
  rw [complete_fixed, maintExit_fixed _ (by simpa [State.fixed] using hs), mirror_fixed]

@[simp] theorem unconfigureCmd_fixed (d : Desc) (s : State) : (unconfigureCmd d s).fixed = s.fixed := by
  refine plainDesc_fixed _ _ _ _ fun c t h => ?_
  have hs : (mirror .unconfigure t).fixed.inInit = false := by
    rw [mirror_fixed]; exact inInit_false fun e => by simpa [Opcode.states, e] using judgeHead_states h
  rw [complete_fixed, unconfigure_fixed _ (by simpa [State.fixed] using hs), mirror_fixed]

@[simp] theorem fwLoadCmd_fixed (d : Desc) (list : Option (List (BitVec 128))) (img : Option (List Byte)) (s : State) : (fwLoadCmd d list img s).fixed = s.fixed := by
  exact plainDesc_fixed _ _ _ _ (by simp)

@[simp] theorem stepDesc_fixed (d : Desc) (s : State) : (stepDesc d s).fixed = s.fixed := by
  exact plainDesc_fixed _ _ _ _ (by simp)

@[simp] theorem dfcCoefLoadCmd_fixed (d : Desc) (words : Option (List Word)) (s : State) : (dfcCoefLoadCmd d words s).fixed = s.fixed := by
  exact withDesc_fixed _ _ _ _ _ (by simp) (by simp)

@[simp] theorem logClearCmd_fixed (d : Desc) (s : State) : (logClearCmd d s).fixed = s.fixed := by
  exact plainDesc_fixed _ _ _ _ (by simp)

@[simp] theorem logExportCmd_fixed (d : Desc) (s : State) : (logExportCmd d s).fixed = s.fixed := by
  exact plainDesc_fixed _ _ _ _ (by simp)

@[simp] theorem keyGenerateCmd_fixed (d : Desc) (b : Bool) (s : State) : (keyGenerateCmd d b s).fixed = s.fixed := by
  refine plainDesc_fixed _ _ _ _ fun c t _ => ?_
  dsimp only
  split <;> simp

@[simp] theorem keyImportCmd_fixed (d : Desc) (blob : Option (List Byte)) (s : State) : (keyImportCmd d blob s).fixed = s.fixed := by
  exact plainDesc_fixed _ _ _ _ (by simp)

@[simp] theorem keyRollCmd_fixed (d : Desc) (blob : Option (List Byte)) (b : Bool) (s : State) : (keyRollCmd d blob b s).fixed = s.fixed := by
  exact plainDesc_fixed _ _ _ _ (by simp)

@[simp] theorem keyRevokeCmd_fixed (d : Desc) (s : State) : (keyRevokeCmd d s).fixed = s.fixed := by
  exact plainDesc_fixed _ _ _ _ (by simp)

@[simp] theorem attestCmd_fixed (d : Desc) (challenge : Option (List Byte)) (s : State) : (attestCmd d challenge s).fixed = s.fixed := by
  refine plainDesc_fixed _ _ _ _ fun c t _ => ?_
  dsimp only
  split <;> simp

@[simp] theorem pairSwitchoverCmd_fixed (d : Desc) (s : State) : (pairSwitchoverCmd d s).fixed = s.fixed := by
  exact plainDesc_fixed _ _ _ _ fun c t _ => by split <;> simp [acceptSched_fixed]

@[simp] theorem injectCmd_fixed (d : Desc) (frame : Option (List Byte)) (s : State) : (injectCmd d frame s).fixed = s.fixed := by
  unfold injectCmd
  split
  · rfl
  · exact withDesc_fixed _ _ _ _ _ (by simp) (by simp)

end Sys2Proof.Machine
end

