-- ==== Sys2Proof/Laws/Calm/Base.lean ====
section
/-! SUPPORT. SAFE as lemmas carry it. -/

namespace Sys2Proof.Machine

theorem course_safe (s : State) : s.course = ⟨.safe⟩ ↔ s.sys.runState = .safe := Course.mk.injEq .. ▸ Iff.rfl

theorem run_safe {s : State} (h : s.course = ⟨.safe⟩) : s.sys.runState = .safe := (course_safe s).mp h

/-- A fold whose step keeps SAFE. -/
theorem foldl_safe {α : Type} (g : State → α → State) (l : List α) (hg : ∀ a x, a.course = ⟨.safe⟩ → (g a x).course = ⟨.safe⟩) {s : State}
    (h : s.course = ⟨.safe⟩) : (l.foldl g s).course = ⟨.safe⟩ := by
  induction l generalizing s with
  | nil => exact h
  | cons x r ih => exact ih (hg _ _ h)

end Sys2Proof.Machine
end

