-- ==== Sys2Proof/Laws/Course/Ops.lean ====
section
/-! SUPPORT. The operations of Machine/Ops.lean keep the run state. -/

namespace Sys2Proof.Machine

@[simp] theorem passTime_course (dt : Nat) (s : State) : (passTime dt s).course = s.course := rfl

@[simp] theorem onPrior_course (f : State → State) (s : State) : (onPrior f s).course = s.course := rfl

@[simp] theorem emitOut_course (o : Out) (s : State) : (emitOut o s).course = s.course := rfl

@[simp] theorem hifCnt_course (k : Nat) (n : Nat) (s : State) : (hifCnt k n s).course = s.course := rfl

@[simp] theorem sendMsix_course (v : Nat) (s : State) : (sendMsix v s).course = s.course := rfl

@[simp] theorem raiseVec_course (v : Nat) (s : State) : (raiseVec v s).course = s.course := by simp [raiseVec]

@[simp] theorem flushVec_course (v : Nat) (s : State) : (flushVec v s).course = s.course := by simp [flushVec]

@[simp] theorem flushAllVecs_course (s : State) : (flushAllVecs s).course = s.course := by simp [flushAllVecs]

@[simp] theorem raiseBlock_course (b : Nat) (s : State) : (raiseBlock b s).course = s.course := by simp [raiseBlock]

@[simp] theorem hifEvent_course (k : Nat) (s : State) : (hifEvent k s).course = s.course := by simp [hifEvent]

@[simp] theorem dmaErr_course (s : State) : (dmaErr s).course = s.course := by simp [dmaErr]

@[simp] theorem tbuEvent_course (k : Nat) (s : State) : (tbuEvent k s).course = s.course := by simp [tbuEvent]

@[simp] theorem logEventBit_course (k : Nat) (s : State) : (logEventBit k s).course = s.course := by simp [logEventBit]

@[simp] theorem fltEvent_course (k : Nat) (s : State) : (fltEvent k s).course = s.course := by simp [fltEvent]

@[simp] theorem logCnt_course (k : Nat) (n : Nat) (s : State) : (logCnt k n s).course = s.course := rfl

@[simp] theorem logDrop_course (source : Nat) (cls : Nat) (s : State) : (logDrop source cls s).course = s.course := by simp [logDrop]

@[simp] theorem logEnter_course (e : LogEv) (s : State) : (logEnter e s).course = s.course := rfl

@[simp] theorem logEv_course (event : Nat) (source : Nat) (cls : Nat) (arg : Nat) (s : State) : (logEv event source cls arg s).course = s.course := by simp [logEv]

@[simp] theorem modRing_course (n : Nat) (f : Ring → Ring) (s : State) : (modRing n f s).course = s.course := by simp [modRing]

@[simp] theorem ringIrq_course (n : Nat) (s : State) : (ringIrq n s).course = s.course := by simp [ringIrq]

@[simp] theorem ringSignal_course (n : Nat) (urgent : Bool) (s : State) : (ringSignal n urgent s).course = s.course := by simp [ringSignal]

@[simp] theorem placeUnits_course (n : Nat) (typ : Nat) (us : List Unit512) (s : State) : (placeUnits n typ us s).course = s.course := by simp [placeUnits]

@[simp] theorem placeRec_course (n : Nat) (r : Rec) (s : State) : (placeRec n r s).course = s.course := by simp [placeRec]

@[simp] theorem countLost_course (n : Nat) (k : Nat) (s : State) : (countLost n k s).course = s.course := by simp [countLost]

@[simp] theorem drainQueue_course (n k : Nat) (s : State) : (drainQueue n k s).course = s.course := by
  induction k generalizing s with
  | zero => rfl
  | succ k ih => simp only [drainQueue]; split <;> (try split) <;> simp [ih]

@[simp] theorem drainRing_course (n : Nat) (s : State) : (drainRing n s).course = s.course := by simp [drainRing]

@[simp] theorem loseNew_course (n : Nat) (r : Rec) (c : Loss) (s : State) : (loseNew n r c s).course = s.course := by simp [loseNew]

@[simp] theorem handRaw_course (n : Nat) (r : Rec) (s : State) : (handRaw n r s).course = s.course := by simp [handRaw]

@[simp] theorem handRec_course (n : Nat) (typ : Nat) (us : List Unit512) (stamp : Option Nat) (tick : Option Nat) (s : State) : (handRec n typ us stamp tick s).course = s.course := by simp [handRec]

@[simp] theorem writeCompl_course (n : Nat) (b : Compl256) (irq : Bool) (s : State) : (writeCompl n b irq s).course = s.course := by simp [writeCompl]

@[simp] theorem drainHeldN_course (n k : Nat) (s : State) : (drainHeldN n k s).course = s.course := by
  induction k generalizing s with
  | zero => rfl
  | succ k ih => simp only [drainHeldN]; split <;> (try split) <;> simp [ih]

@[simp] theorem drainHeld_course (n : Nat) (s : State) : (drainHeld n s).course = s.course := by simp [drainHeld]

@[simp] theorem completeWith_course (c : Ctx) (st : Status) (late : Bool) (tick : Option Nat) (result : Nat) (s : State) : (completeWith c st late tick result s).course = s.course := by simp [completeWith]

@[simp] theorem complete_course (c : Ctx) (st : Status) (s : State) : (complete c st s).course = s.course := by simp [complete]

@[simp] theorem drawFree_course (s : State) : (drawFree s).2.course = s.course := rfl

end Sys2Proof.Machine
end

