-- ==== Sys2Proof/Laws/Course/Sextant.lean ====
section
/-! SUPPORT. The operations of Machine/Sextant.lean keep the run state. -/

namespace Sys2Proof.Machine

@[simp] theorem modDom_course (x : DomId) (f : Dom → Dom) (s : State) : (modDom x f s).course = s.course := by
  unfold modDom
  split <;> simp

@[simp] theorem logSuspect_course (code : Nat) (s : State) : (logSuspect code s).course = s.course := by simp [logSuspect]

@[simp] theorem evalSuspect_course (check : Bool) (pairBad : Bool) (s : State) : (evalSuspect check pairBad s).course = s.course := by simp [evalSuspect]

@[simp] theorem crossCheck_course (s : State) : (crossCheck s).course = s.course := by simp [crossCheck]

@[simp] theorem selectDom_course (y : DomId) (auto : Bool) (s : State) : (selectDom y auto s).course = s.course := by simp [selectDom]

@[simp] theorem takeSel_course (y : DomId) (s : State) : (takeSel y s).course = s.course := by simp [takeSel]

@[simp] theorem autoSelect_course (s : State) : (autoSelect s).course = s.course := by
  unfold autoSelect
  split <;> simp

@[simp] theorem enterState_course (x : DomId) (new : DomState) (s : State) : (enterState x new s).course = s.course := by simp [enterState]

@[simp] theorem enterDr_course (x : DomId) (cause : DrCause) (dwell : Dwell) (s : State) : (enterDr x cause dwell s).course = s.course := by simp [enterDr]

@[simp] theorem servo_course (x : DomId) (theta : Int) (tau : Nat) (s : State) : (servo x theta tau s).course = s.course := by simp [servo]

@[simp] theorem epochStep_course (amount : Int) (counted : Bool) (s : State) : (epochStep amount counted s).course = s.course := by simp [epochStep]

@[simp] theorem initialSet_course (x : DomId) (theta : Int) (s : State) : (initialSet x theta s).course = s.course := by simp [initialSet]

@[simp] theorem tauOf_course (x : DomId) (at_ : Nat) (s : State) : (tauOf x at_ s).2.course = s.course := by
  unfold tauOf
  split <;> simp

@[simp] theorem judgeAcquire_course (x : DomId) (theta : Int) (s : State) : (judgeAcquire x theta s).course = s.course := by simp [judgeAcquire]

@[simp] theorem judgeLocked_course (x : DomId) (theta : Int) (s : State) : (judgeLocked x theta s).course = s.course := by simp [judgeLocked]

@[simp] theorem acquireSample_course (x : DomId) (theta : Int) (at_ : Nat) (tau : Option Nat) (s : State) : (acquireSample x theta at_ tau s).course = s.course := by
  unfold acquireSample
  split <;> simp

@[simp] theorem lockedSample_course (x : DomId) (theta : Int) (at_ : Nat) (tau : Option Nat) (s : State) : (lockedSample x theta at_ tau s).course = s.course := by
  simp only [lockedSample]
  repeat' split
  all_goals simp

@[simp] theorem requalJudge_course (x : DomId) (s : State) : (requalJudge x s).course = s.course := by simp [requalJudge]

@[simp] theorem requalSample_course (x : DomId) (theta : Int) (at_ : Nat) (s : State) : (requalSample x theta at_ s).course = s.course := by simp [requalSample]

@[simp] theorem dwellSync_course (x : DomId) (s : State) : (dwellSync x s).course = s.course := by
  unfold dwellSync
  split <;> simp

@[simp] theorem domSample_course (x : DomId) (theta dd : Int) (at_ : Nat) (s : State) : (domSample x theta dd at_ s).course = s.course := by
  simp only [domSample]
  repeat' split
  all_goals simp

@[simp] theorem syncFor_course (x : DomId) (port num : Nat) (src : PortId) (seq : Nat) (twoStep : Bool) (t1 : PtpTime) (corr logInt : Int) (s : State) : (syncFor x port num src seq twoStep t1 corr logInt s).course = s.course := by simp [syncFor]

@[simp] theorem followUpFor_course (x : DomId) (port num : Nat) (src : PortId) (seq : Nat) (t1 : PtpTime) (corr : Int) (s : State) : (followUpFor x port num src seq t1 corr s).course = s.course := by
  simp only [followUpFor]
  repeat' split
  all_goals simp

@[simp] theorem setGm_course (x : DomId) (g : Foreign) (s : State) : (setGm x g s).course = s.course := by
  simp only [setGm]
  repeat' split
  all_goals simp

@[simp] theorem announceFor_course (x : DomId) (port : Nat) (num : Nat) (a : Announce) (s : State) : (announceFor x port num a s).course = s.course := by
  simp only [announceFor]
  repeat' split
  all_goals simp

@[simp] theorem announceTimeout_course (x : DomId) (s : State) : (announceTimeout x s).course = s.course := by
  unfold announceTimeout
  split <;> simp

@[simp] theorem syncTimeout_course (x : DomId) (s : State) : (syncTimeout x s).course = s.course := by simp [syncTimeout]

@[simp] theorem writeTbuCtrl_course (v : Word) (s : State) : (writeTbuCtrl v s).course = s.course := by simp [writeTbuCtrl]

@[simp] theorem writeDcfg_course (x : DomId) (v : Word) (s : State) : (writeDcfg x v s).course = s.course := by simp [writeDcfg]

@[simp] theorem ppsUnassist_course (s : State) : (ppsUnassist s).course = s.course := by simp [ppsUnassist]

@[simp] theorem ppsEdge_course (s : State) : (ppsEdge s).course = s.course := by simp [ppsEdge]

@[simp] theorem noteRise_course (s : State) : (noteRise s).course = s.course := rfl

@[simp] theorem ppsInEdge_course (s : State) : (ppsInEdge s).course = s.course := by
  simp only [ppsInEdge]
  repeat' split
  all_goals simp

@[simp] theorem ppsInLost_course (s : State) : (ppsInLost s).course = s.course := by
  unfold ppsInLost
  dsimp only
  split
  · rfl
  · split
    · rfl
    · split
      · rw [tbuEvent_course, ppsUnassist_course]
        rfl
      · rfl

@[simp] theorem ppsOutSecond_course (s : State) : (ppsOutSecond s).course = s.course := by simp [ppsOutSecond]

@[simp] theorem ppsOutFall_course (s : State) : (ppsOutFall s).course = s.course := by
  unfold ppsOutFall
  split <;> simp

@[simp] theorem tbuSnap_course (v : Word) (s : State) : (tbuSnap v s).course = s.course := by simp [tbuSnap]

end Sys2Proof.Machine
end

