-- ==== Sys2Proof/Laws/Course/Net.lean ====
section
/-! SUPPORT. The operations of Machine/Net.lean keep the run state. -/

namespace Sys2Proof.Machine

@[simp] theorem netEvent_course (k : Nat) (s : State) : (netEvent k s).course = s.course := by simp [netEvent]

@[simp] theorem modPort_course (p : Nat) (f : Port → Port) (s : State) : (modPort p f s).course = s.course := by simp [modPort]

@[simp] theorem netCnt_course (p : Nat) (k : Nat) (n : Nat) (s : State) : (netCnt p k n s).course = s.course := by simp [netCnt]

@[simp] theorem settlePause_course (p : Nat) (upTo : Nat) (s : State) : (settlePause p upTo s).course = s.course := rfl

@[simp] theorem wakePort_course (p : Nat) (s : State) : (wakePort p s).course = s.course := by simp [wakePort]

@[simp] theorem queueFrame_course (p : Nat) (express : Bool) (f : TxFrame) (s : State) : (queueFrame p express f s).course = s.course := by simp [queueFrame]

@[simp] theorem copies_course (p : Nat) (f : TxFrame) (s : State) : (copies p f s).2.course = s.course := by
  unfold copies
  split <;> simp

@[simp] theorem handFrame_course (p : Nat) (express : Bool) (f : TxFrame) (s : State) : (handFrame p express f s).course = s.course := by
  unfold handFrame
  rw [foldl_course _ _ _ fun s c => queueFrame_course .., copies_course]

@[simp] theorem shedFrame_course (p : Nat) (g : Nat) (f : TxFrame) (s : State) : (shedFrame p g f s).course = s.course := by
  unfold shedFrame
  rw [foldl_course _ _ _ fun s c => by simp, copies_course]

@[simp] theorem unshedPort_course (p g : Nat) (s : State) : (unshedPort p g s).course = s.course := by simp [unshedPort]

@[simp] theorem markHeld_course (p g : Nat) (s : State) : (markHeld p g s).course = s.course := rfl

@[simp] theorem dropHeld_course (p : Nat) (g : Nat) (s : State) : (dropHeld p g s).course = s.course := by simp [dropHeld]

@[simp] theorem limitHeld_course (p : Nat) (s : State) : (limitHeld p s).course = s.course := by
  unfold limitHeld
  split <;> simp

@[simp] theorem addCorr_course (l : List Byte) (add : Int) (s : State) : (addCorr l add s).2.course = s.course := by
  simp only [addCorr]
  repeat' split
  all_goals simp

@[simp] theorem tcFwd_course (s : State) : (tcFwd s).course = s.course := rfl

@[simp] theorem tcRemember_course (e : TcEntry) (s : State) : (tcRemember e s).course = s.course := rfl

@[simp] theorem egress_course (p : Nat) (f : TxFrame) (s : State) : (egress p f s).2.course = s.course := by
  simp only [egress]
  repeat' split
  all_goals simp

@[simp] theorem startFrame_course (p : Nat) (express : Bool) (f : TxFrame) (s : State) : (startFrame p express f s).course = s.course := by simp [startFrame]

@[simp] theorem nextFrame_course (p : Nat) (s : State) : (nextFrame p s).course = s.course := by
  simp only [nextFrame]
  repeat' split
  all_goals simp

@[simp] theorem interruptFrame_course (p : Nat) (t : TxLine) (s : State) : (interruptFrame p t s).course = s.course := by
  simp only [interruptFrame]
  repeat' split
  all_goals simp

@[simp] theorem flushDown_course (p : Nat) (s : State) : (flushDown p s).course = s.course := by simp [flushDown]

@[simp] theorem startVerify_course (p : Nat) (s : State) : (startVerify p s).course = s.course := by simp [startVerify]

@[simp] theorem linkUp_course (p : Nat) (l : LinkIn) (s : State) : (linkUp p l s).course = s.course := by
  simp only [linkUp]
  repeat' split
  all_goals simp

@[simp] theorem linkDown_course (p : Nat) (s : State) : (linkDown p s).course = s.course := by simp [linkDown]

@[simp] theorem verifyTimer_course (p : Nat) (s : State) : (verifyTimer p s).course = s.course := by simp [verifyTimer]

@[simp] theorem lpiIdle_course (p : Nat) (s : State) : (lpiIdle p s).course = s.course := by simp [lpiIdle]

@[simp] theorem pauseExpiry_course (p : Nat) (s : State) : (pauseExpiry p s).course = s.course := by
  unfold pauseExpiry
  split <;> simp

@[simp] theorem renegotiate_course (p : Nat) (down : Bool) (s : State) : (renegotiate p down s).course = s.course := by simp [renegotiate]

@[simp] theorem dsShift_course (p : Nat) (down : Bool) (s : State) : (dsShift p down s).course = s.course := by simp [dsShift]

@[simp] theorem endForShift_course (p : Nat) (down : Bool) (s : State) : (endForShift p down s).course = s.course := by
  unfold endForShift
  split <;> simp

@[simp] theorem lineFree_course (p : Nat) (s : State) : (lineFree p s).course = s.course := by
  unfold lineFree
  split <;> simp

@[simp] theorem portTransmit_course (p : Nat) (s : State) : (portTransmit p s).course = s.course := by
  simp only [portTransmit]
  repeat' split
  all_goals simp

@[simp] theorem dsRevoke_course (p : Nat) (s : State) : (dsRevoke p s).course = s.course := by simp [dsRevoke]

@[simp] theorem dsCheck_course (s : State) : (dsCheck s).course = s.course := by simp [dsCheck]

@[simp] theorem dsInterval_course (p : Nat) (s : State) : (dsInterval p s).course = s.course := by simp [dsInterval]

@[simp] theorem dsWrite_course (p : Nat) (v : Word) (s : State) : (dsWrite p v s).course = s.course := by simp [dsWrite]

@[simp] theorem rxDeliver_course (p : Nat) (l : List Byte) (st : RxStat) (s : State) : (rxDeliver p l st s).2.course = s.course := by
  unfold rxDeliver
  split <;> simp

@[simp] theorem rxFlagged_course (p : Nat) (k : Nat) (l : List Byte) (st : RxStat) (s : State) : (rxFlagged p k l st s).course = s.course := by simp [rxFlagged]

@[simp] theorem rxOk_course (p : Nat) (len : Nat) (s : State) : (rxOk p len s).course = s.course := by simp [rxOk]

@[simp] theorem rxPause_course (p : Nat) (quanta : Nat) (s : State) : (rxPause p quanta s).course = s.course := by simp [rxPause]

@[simp] theorem tcForward_course (p : Nat) (l : List Byte) (s : State) : (tcForward p l s).course = s.course := by
  unfold tcForward
  split <;> simp

@[simp] theorem rxSextant_course (p : Nat) (s : State) : (rxSextant p s).course = s.course := rfl

@[simp] theorem rxGood_course (p : Nat) (l : List Byte) (st : RxStat) (s : State) : (rxGood p l st s).course = s.course := by
  unfold rxGood
  repeat' split
  all_goals simp

@[simp] theorem prpForget_course (i : Nat) (s : State) : (prpForget i s).course = s.course := rfl

@[simp] theorem prpSwap_course (p mac seq : Nat) (s : State) : (prpSwap p mac seq s).2.course = s.course := by
  simp only [prpSwap]
  repeat' split
  all_goals simp

@[simp] theorem prpEnter_course (i : Nat) (mac : Nat) (seq : Nat) (s : State) : (prpEnter i mac seq s).course = s.course := rfl

@[simp] theorem rxIp_course (p : Nat) (l : List Byte) (st : RxStat) (s : State) : (rxIp p l st s).course = s.course := by
  unfold rxIp
  split <;> simp

@[simp] theorem rxPrp_course (p : Nat) (l : List Byte) (st : RxStat) (s : State) : (rxPrp p l st s).course = s.course := by
  unfold rxPrp
  split <;> simp

@[simp] theorem rxVlan_course (p : Nat) (l : List Byte) (st : RxStat) (s : State) : (rxVlan p l st s).course = s.course := by simp [rxVlan]

@[simp] theorem rxFrame_course (p : Nat) (bytes : List Byte) (reasm : Bool) (s : State) : (rxFrame p bytes reasm s).course = s.course := by simp [rxFrame]

@[simp] theorem assemble_course (p : Nat) (a : Assy) (b : List Byte) (more : Bool) (s : State) : (assemble p a b more s).course = s.course := by simp [assemble]

@[simp] theorem assyFirst_course (p cnt : Nat) (b : List Byte) (more : Bool) (s : State) : (assyFirst p cnt b more s).course = s.course := by simp [assyFirst]

@[simp] theorem assyCont_course (p cnt frag : Nat) (b : List Byte) (more : Bool) (s : State) : (assyCont p cnt frag b more s).course = s.course := by
  unfold assyCont
  split <;> simp

@[simp] theorem portReceive_course (p : Nat) (r : RxIn) (s : State) : (portReceive p r s).course = s.course := by
  unfold portReceive
  repeat' split
  all_goals simp

@[simp] theorem tcExpire_course (s : State) : (tcExpire s).course = s.course := rfl

@[simp] theorem pdelayRequest_course (p : Nat) (s : State) : (pdelayRequest p s).course = s.course := by simp [pdelayRequest]

@[simp] theorem pdelayDone_course (p : Nat) (t1 : Nat) (t4 : Nat) (turn : Int) (s : State) : (pdelayDone p t1 t4 turn s).course = s.course := rfl

@[simp] theorem pdelayReceive_course (p : Nat) (m : PdelayIn) (s : State) : (pdelayReceive p m s).course = s.course := by
  simp only [pdelayReceive]
  repeat' split
  all_goals simp

end Sys2Proof.Machine
end

