-- ==== Sys2Proof/Laws/Course/Helm.lean ====
section
/-! SUPPORT. The operations of Machine/Helm.lean keep the run state. -/

namespace Sys2Proof.Machine

@[simp] theorem tkxEvent_course (k : Nat) (s : State) : (tkxEvent k s).course = s.course := by simp [tkxEvent]

@[simp] theorem traceRaw_course (e : TrEv) (bits : List (Nat × Nat × Nat)) (s : State) : (traceRaw e bits s).course = s.course := by simp [traceRaw]

@[simp] theorem traceTick_course (e : TrEv) (arg : Nat) (seq : Nat) (phase : Nat) (s : State) : (traceTick e arg seq phase s).course = s.course := by simp [traceTick]

@[simp] theorem traceTask_course (e : TrEv) (arg : Nat) (t : TEntry) (s : State) : (traceTask e arg t s).course = s.course := by simp [traceTask]

@[simp] theorem setEntries_course (l : List TEntry) (s : State) : (setEntries l s).course = s.course := rfl

@[simp] theorem updEntry_course (t : TEntry) (f : TEntry → TEntry) (s : State) : (updEntry t f s).course = s.course := rfl

@[simp] theorem dropEntry_course (t : TEntry) (s : State) : (dropEntry t s).course = s.course := rfl

@[simp] theorem setFlow_course (n : Nat) (f : Flow) (s : State) : (setFlow n f s).course = s.course := rfl

@[simp] theorem accountEmits_course (s : State) : (accountEmits s).course = s.course := by simp [accountEmits]

@[simp] theorem gather_course (t : TEntry) (s : State) : (gather t s).course = s.course := by simp [gather]

@[simp] theorem dispatch_course (t : TEntry) (s : State) : (dispatch t s).course = s.course := by simp [dispatch]

@[simp] theorem preempt_course (t : TEntry) (by_ : TEntry) (s : State) : (preempt t by_ s).course = s.course := by simp [preempt]

@[simp] theorem scheduleUnit_course (pr : TEntry → Nat) (u : Nat) (s : State) : (scheduleUnit pr u s).course = s.course := by
  simp only [scheduleUnit]
  repeat' split
  all_goals simp

@[simp] theorem schedule_course (pr : TEntry → Nat) (s : State) : (schedule pr s).course = s.course := by simp [schedule]

@[simp] theorem enterReady_course (t : TEntry) (s : State) : (enterReady t s).course = s.course := by
  unfold enterReady
  split <;> simp

@[simp] theorem makeReady_course (c : TaskCfg) (g : Nat) (seq : Nat) (s : State) : (makeReady c g seq s).course = s.course := by
  unfold makeReady
  split <;> simp

@[simp] theorem readyAll_course (p : Work → Bool) (g : Nat) (seq : Nat) (s : State) : (readyAll p g seq s).course = s.course := by simp [readyAll]

@[simp] theorem wakeFlow_course (n : Nat) (s : State) : (wakeFlow n s).course = s.course := by
  unfold wakeFlow
  split <;> simp

@[simp] theorem releaseEntry_course (n : Nat) (t : TEntry) (s : State) : (releaseEntry n t s).course = s.course := by simp [releaseEntry]

@[simp] theorem flowEnd_course (result : Bool) (t : TEntry) (s : State) : (flowEnd result t s).course = s.course := by
  unfold flowEnd
  split <;> simp

@[simp] theorem finishTask_course (t : TEntry) (s : State) : (finishTask t s).course = s.course := by simp [finishTask]

@[simp] theorem cancelOne_course (arg : Nat) (t : TEntry) (s : State) : (cancelOne arg t s).course = s.course := by simp [cancelOne]

@[simp] theorem cancelWhere_course (p : TEntry → Bool) (arg : Nat) (s : State) : (cancelWhere p arg s).course = s.course := by simp [cancelWhere]

@[simp] theorem cancelSoon_course (arg : Nat) (t : TEntry) (s : State) : (cancelSoon arg t s).course = s.course := by simp [cancelSoon]

@[simp] theorem fireMicro_course (x0 : Nat) (x1 : State) : (fireMicro x0 x1).course = x1.course := by
  induction x0 generalizing x1 with
  | zero => simp [fireMicro]
  | succ k ih =>
    simp only [fireMicro]
    repeat' split
    all_goals simp [ih]

@[simp] theorem delayExpiry_course (s : State) : (delayExpiry s).course = s.course := by simp [delayExpiry]

@[simp] theorem phaseMax_course (k : Nat) (us : Nat) (s : State) : (phaseMax k us s).course = s.course := rfl

@[simp] theorem phaseLate_course (task : Option TEntry) (phase late seq : Nat) (s : State) : (phaseLate task phase late seq s).course = s.course := by
  cases task <;> simp [phaseLate]

end Sys2Proof.Machine
end

