-- ==== Sys2Proof/Laws/Course/GridEdge.lean ====
section
/-! SUPPORT. The operations of Machine/GridEdge.lean keep the run state. -/

namespace Sys2Proof.Machine

@[simp] theorem sepEvent_course (k : Nat) (s : State) : (sepEvent k s).course = s.course := by simp [sepEvent]

@[simp] theorem geCnt_course (k : Nat) (n : Nat) (s : State) : (geCnt k n s).course = s.course := rfl

@[simp] theorem sepCnt_course (k : Nat) (n : Nat) (s : State) : (sepCnt k n s).course = s.course := rfl

@[simp] theorem writePoint_course (k : Nat) (pos : Nat) (sec : Nat) (ns : Nat) (s : State) : (writePoint k pos sec ns s).course = s.course := by
  unfold writePoint
  split <;> simp

@[simp] theorem stalePoint_course (k : Nat) (s : State) : (stalePoint k s).course = s.course := by
  unfold stalePoint
  split <;> simp

@[simp] theorem geReport_course (sec : Nat) (r : GeRep) (s : State) : (geReport sec r s).course = s.course := by simp [geReport]

@[simp] theorem geClose_course (x0 : Nat) (x1 : State) : (geClose x0 x1).course = x1.course := by
  induction x0 generalizing x1 with
  | zero => simp [geClose]
  | succ k ih =>
    simp only [geClose]
    repeat' split
    all_goals simp [ih]

@[simp] theorem geBucketClose_course (s : State) : (geBucketClose s).course = s.course := by simp [geBucketClose]

@[simp] theorem geZone_course (b : Bucket) (z : Nat) (s : State) : (geZone b z s).course = s.course := by simp [geZone]

@[simp] theorem geAggregate_course (b : Bucket) (s : State) : (geAggregate b s).course = s.course := by simp [geAggregate]

@[simp] theorem geAggNext_course (s : State) : (geAggNext s).course = s.course := by
  unfold geAggNext
  split <;> simp

end Sys2Proof.Machine
end

