-- ==== Sys2Proof/Laws/Course/KeyStore.lean ====
section
/-! SUPPORT. The operations of Machine/KeyStore.lean keep the run state. -/

namespace Sys2Proof.Machine

@[simp] theorem kstEvent_course (k : Nat) (s : State) : (kstEvent k s).course = s.course := by simp [kstEvent]

@[simp] theorem kstCnt_course (k : Nat) (n : Nat) (s : State) : (kstCnt k n s).course = s.course := rfl

@[simp] theorem restartWindows_course (k : Nat) (s : State) : (restartWindows k s).course = s.course := rfl

@[simp] theorem setSlot_course (k : Nat) (x : Slot) (s : State) : (setSlot k x s).course = s.course := by simp [setSlot]

@[simp] theorem dropRolls_course (k : Nat) (s : State) : (dropRolls k s).course = s.course := by simp [dropRolls]

@[simp] theorem orphan_course (by_ : Nat) (cause : Nat) (s : State) (j : Nat) : (orphan by_ cause s j).course = s.course := by simp [orphan]

@[simp] theorem revokeOne_course (k : Nat) (cause : Nat) (s : State) : (revokeOne k cause s).course = s.course := by simp [revokeOne]

@[simp] theorem revokeSlot_course (k : Nat) (cause : Nat) (s : State) : (revokeSlot k cause s).course = s.course := by simp [revokeSlot]

@[simp] theorem revokeAll_course (cause : Nat) (s : State) : (revokeAll cause s).course = s.course := by simp [revokeAll]

@[simp] theorem zeroise_course (k : Nat) (s : State) : (zeroise k s).course = s.course := by simp [zeroise]

@[simp] theorem zeroiseOthers_course (s : State) : (zeroiseOthers s).course = s.course := by simp [zeroiseOthers]

@[simp] theorem keyCell_course (detail : Nat) (s : State) : (keyCell detail s).course = s.course := by simp [keyCell]

@[simp] theorem freshKey_course (s : State) : (freshKey s).2.course = s.course := rfl

@[simp] theorem prepGenerate_course (p : BitVec 384) (s : State) : (prepGenerate p s).2.course = s.course := by
  simp only [prepGenerate]
  repeat' split
  all_goals simp

@[simp] theorem prepRoll_course (slot : Nat) (id : Word) (blob : Option (List Byte)) (blobLen outAddr : Nat) (s : State) : (prepRoll slot id blob blobLen outAddr s).2.course = s.course := by
  simp only [prepRoll]
  repeat' split
  all_goals simp

@[simp] theorem applyKey_course (u : KeyUpd) (s : State) : (applyKey u s).course = s.course := by
  unfold applyKey
  repeat' split
  all_goals simp

@[simp] theorem keyRevoke_course (slot : Nat) (s : State) : (keyRevoke slot s).2.course = s.course := by
  unfold keyRevoke
  repeat' split
  all_goals simp

@[simp] theorem lcEnter_course (a : Nat) (b : Nat) (owner : List Byte) (cert : List Byte) (s : State) : (lcEnter a b owner cert s).course = s.course := by simp [lcEnter]

@[simp] theorem lifecycle_course (p : BitVec 384) (sig : Option (List Byte)) (aux : Option (List Byte)) (s : State) : (lifecycle p sig aux s).2.course = s.course := by
  simp only [lifecycle]
  repeat' split
  all_goals simp

@[simp] theorem fwJudge_course (img : List Byte) (s : State) : (fwJudge img s).2.2.course = s.course := by
  simp only [fwJudge]
  repeat' split
  all_goals simp

@[simp] theorem attest_course (p : BitVec 384) (challenge : Option (List Byte)) (config : BitVec 256) (s : State) : (attest p challenge config s).2.2.course = s.course := by
  simp only [attest]
  repeat' split
  all_goals simp

@[simp] theorem nonceRead_course (s : State) : (nonceRead s).course = s.course := rfl

@[simp] theorem tamperArm_course (v : Word) (s : State) : (tamperArm v s).course = s.course := by simp [tamperArm]

@[simp] theorem tamperClr_course (v : Word) (s : State) : (tamperClr v s).course = s.course := by simp [tamperClr]

@[simp] theorem rtcSync_course (s : State) : (rtcSync s).course = s.course := rfl

@[simp] theorem logTamper_course (cause : Nat) (s : State) : (logTamper cause s).course = s.course := by simp [logTamper]

@[simp] theorem tamperRevoke_course (s : State) : (tamperRevoke s).course = s.course := by simp [tamperRevoke]

@[simp] theorem tamperEvent_course (low : Nat) (s : State) : (tamperEvent low s).course = s.course := by simp [tamperEvent]

@[simp] theorem tamperRestore_course (s : State) : (tamperRestore s).course = s.course := by
  simp only [tamperRestore]
  repeat' split
  all_goals simp

@[simp] theorem rtcUpdate_course (s : State) : (rtcUpdate s).course = s.course := by simp [rtcUpdate]

@[simp] theorem retentionLoss_course (s : State) : (retentionLoss s).course = s.course := by simp [retentionLoss]

end Sys2Proof.Machine
end

