-- ==== Sys2Proof/Laws/Course/Ingest.lean ====
section
/-! SUPPORT. The operations of Machine/Ingest.lean keep the run state. -/

namespace Sys2Proof.Machine

@[simp] theorem ingEvent_course (k : Nat) (s : State) : (ingEvent k s).course = s.course := by simp [ingEvent]

@[simp] theorem ingCnt_course (k : Nat) (n : Nat) (s : State) : (ingCnt k n s).course = s.course := rfl

@[simp] theorem engFrames_course (e : Nat) (n : Nat) (s : State) : (engFrames e n s).course = s.course := rfl

@[simp] theorem modEp_course (e : Nat) (f : EpRt → EpRt) (s : State) : (modEp e f s).course = s.course := by
  unfold modEp
  split <;> simp

@[simp] theorem leapUpdate_course (s : State) : (leapUpdate s).course = s.course := by
  unfold leapUpdate
  repeat' split
  all_goals simp

@[simp] theorem fifoDrive_course (n : Nat) (f : Fifo) (s : State) : (fifoDrive n f s).course = s.course := by simp [fifoDrive]

@[simp] theorem fifoPush_course (n : Nat) (p : Pkt) (s : State) : (fifoPush n p s).course = s.course := by simp [fifoPush]

@[simp] theorem fifoDrop_course (n k m : Nat) (flush : Option Nat) (s : State) : (fifoDrop n k m flush s).course = s.course := by simp [fifoDrop]

@[simp] theorem fifoFlushReq_course (n : Nat) (s : State) : (fifoFlushReq n s).course = s.course := by simp [fifoFlushReq]

@[simp] theorem ingFlush_course (v : Word) (s : State) : (ingFlush v s).course = s.course := by simp [ingFlush]

@[simp] theorem flushDone_course (n : Nat) (s : State) : (flushDone n s).course = s.course := by
  simp only [flushDone]
  repeat' split
  all_goals simp

@[simp] theorem journalFit_course (s : State) : (journalFit s).course = s.course := by
  unfold journalFit
  split <;> simp

@[simp] theorem journalAdd_course (i : JItem) (s : State) : (journalAdd i s).course = s.course := by simp [journalAdd]

@[simp] theorem capture_course (reason : Nat) (f : RxFrame) (s : State) : (capture reason f s).course = s.course := by simp [capture]

@[simp] theorem captureIf_course (bit : Nat) (reason : Nat) (f : RxFrame) (s : State) : (captureIf bit reason f s).course = s.course := by simp [captureIf]

@[simp] theorem ingReject_course (k : Nat) (ev : Option Nat) (s : State) : (ingReject k ev s).course = s.course := by
  unfold ingReject
  split <;> simp

@[simp] theorem rejectMisfit_course (s : State) : (rejectMisfit s).course = s.course := rfl

@[simp] theorem acceptPkt_course (k : Nat) (a : Arrive) (ep : Nat) (tm : Int) (vals : List Dword) (flags : Nat) (s : State) : (acceptPkt k a ep tm vals flags s).course = s.course := by simp [acceptPkt]

@[simp] theorem c37Block_course (a : Arrive) (l : List Byte) (s : State) (ep : Nat) : (c37Block a l s ep).course = s.course := by
  unfold c37Block
  split <;> simp

@[simp] theorem cfgFrame_course (a : Arrive) (l : List Byte) (f : RxFrame) (e0 : Nat) (s : State) : (cfgFrame a l f e0 s).course = s.course := by
  simp only [cfgFrame]
  repeat' (first | split | refine (foldl_course _ _ _ ?_).trans ?_ | intro _ _ | simp)

@[simp] theorem judgeC37_course (a : Arrive) (u : Udp) (f : RxFrame) (s : State) : (judgeC37 a u f s).course = s.course := by
  simp only [judgeC37]
  repeat' split
  all_goals simp

@[simp] theorem applyAuth_course (ep : Nat) (o : AuthOut) (s : State) : (applyAuth ep o s).2.course = s.course := by
  unfold applyAuth
  split <;> simp

@[simp] theorem judgeAsdu_course (a : Arrive) (u : Udp) (p : Spdu) (s : State) (q : SvAsdu) : (judgeAsdu a u p s q).course = s.course := by
  simp only [judgeAsdu]
  repeat' split
  all_goals simp

@[simp] theorem judgeGoose_course (a : Arrive) (u : Udp) (p : Spdu) (q : GoosePdu) (s : State) : (judgeGoose a u p q s).course = s.course := by
  simp only [judgeGoose]
  repeat' split
  all_goals simp

@[simp] theorem judge905_course (a : Arrive) (u : Udp) (p : Option Spdu) (s : State) : (judge905 a u p s).course = s.course := by
  unfold judge905
  repeat' split
  all_goals simp

@[simp] theorem gooseTal_course (ep : Nat) (s : State) : (gooseTal ep s).course = s.course := by
  unfold gooseTal
  repeat' split
  all_goals simp

@[simp] theorem setSlow_course (i : Nat) (u : Unit512) (s : State) : (setSlow i u s).course = s.course := rfl

@[simp] theorem slowReject_course (i : Nat) (k : Nat) (ev : Option Nat) (s : State) : (slowReject i k ev s).course = s.course := by
  simp only [slowReject]
  repeat' split
  all_goals simp

@[simp] theorem hxgUpdate_course (i : Nat) (l : List Byte) (arr : Int) (u : Unit512) (s : State) : (hxgUpdate i l arr u s).course = s.course := by simp [hxgUpdate]

@[simp] theorem hxgReport_course (eng : Nat) (arr : Int) (s : State) (l : List Byte) : (hxgReport eng arr s l).course = s.course := by
  simp only [hxgReport]
  repeat' split
  all_goals simp

@[simp] theorem judgeHxg_course (a : Arrive) (u : Udp) (s : State) : (judgeHxg a u s).course = s.course := by simp [judgeHxg]

@[simp] theorem judgeFrame_course (e : Nat) (f : RxFrame) (p : Option Spdu) (s : State) : (judgeFrame e f p s).course = s.course := by
  simp only [judgeFrame]
  repeat' split
  all_goals simp

@[simp] theorem ingestFrame_course (p : Nat) (spdu : Option Spdu) (s : State) : (ingestFrame p spdu s).course = s.course := by
  simp only [ingestFrame]
  repeat' split
  all_goals simp

@[simp] theorem injectJudge_course (id : Nat) (l : List Byte) (s : State) : (injectJudge id l s).2.course = s.course := by
  simp only [injectJudge]
  repeat' split
  all_goals simp

end Sys2Proof.Machine
end

