-- ==== Sys2Proof/Laws/Course/Churn.lean ====
section
/-! SUPPORT. The operations of Machine/Churn.lean keep the run state. -/

namespace Sys2Proof.Machine

@[simp] theorem alnEvent_course (k : Nat) (s : State) : (alnEvent k s).course = s.course := by simp [alnEvent]

@[simp] theorem alnCnt_course (k : Nat) (n : Nat) (s : State) : (alnCnt k n s).course = s.course := rfl

@[simp] theorem advanceFront_course (s : State) : (advanceFront s).course = s.course := rfl

@[simp] theorem modTick_course (g : Nat) (f : Tick → Tick) (s : State) : (modTick g f s).course = s.course := rfl

@[simp] theorem dropTick_course (g : Nat) (s : State) : (dropTick g s).course = s.course := rfl

@[simp] theorem putTick_course (t : Tick) (s : State) : (putTick t s).course = s.course := rfl

@[simp] theorem bumpDup_course (g : Nat) (ep : Nat) (s : State) : (bumpDup g ep s).course = s.course := rfl

@[simp] theorem placeDup_course (g : Nat) (p : Pkt) (s : State) : (placeDup g p s).course = s.course := by simp [placeDup]

@[simp] theorem requestResolve_course (g : Nat) (seq : Nat) (s : State) : (requestResolve g seq s).course = s.course := by
  unfold requestResolve
  split <;> simp

@[simp] theorem keepFinal_course (g : Nat) (typ : Nat) (us : List Unit512) (s : State) : (keepFinal g typ us s).course = s.course := by simp [keepFinal]

@[simp] theorem amendTick_course (g : Nat) (p : Pkt) (v : EpVal) (s : State) : (amendTick g p v s).course = s.course := by
  simp only [amendTick]
  repeat' split
  all_goals simp

@[simp] theorem placeAs_course (p : Pkt) (v : Verdict) (s : State) : (placeAs p v s).course = s.course := by
  unfold placeAs
  split <;> simp

@[simp] theorem placePkt_course (p : Pkt) (s : State) : (placePkt p s).course = s.course := by simp [placePkt]

@[simp] theorem journalPkt_course (p : Pkt) (v : Verdict) (s : State) : (journalPkt p v s).course = s.course := by simp [journalPkt]

@[simp] theorem popFifo_course (n : Nat) (s : State) : (popFifo n s).course = s.course := by simp [popFifo]

@[simp] theorem markWait_course (n : Nat) (p : Pkt) (s : State) : (markWait n p s).course = s.course := by simp [markWait]

@[simp] theorem serveFifo_course (x0 : Nat) (x1 : Nat) (x2 : State) : (serveFifo x0 x1 x2).2.course = x2.course := by
  induction x0 generalizing x1 x2 with
  | zero => simp [serveFifo]
  | succ k ih =>
    simp only [serveFifo]
    repeat' split
    all_goals simp [ih]

@[simp] theorem reAmend_course (g : Nat) (p : Pkt) (v : EpVal) (s : State) : (reAmend g p v s).course = s.course := rfl

@[simp] theorem replayOne_course (j : JPkt) (s : State) : (replayOne j s).course = s.course := by
  unfold replayOne
  split <;> simp

@[simp] theorem replayStep_course (s : State) : (replayStep s).course = s.course := by
  unfold replayStep
  split <;> simp

@[simp] theorem replayRest_course (s : State) : (replayRest s).course = s.course := by
  unfold replayRest
  split <;> simp

@[simp] theorem noteQuorum_course (s : State) : (noteQuorum s).course = s.course := rfl

theorem placeServed_course (r : Option (Nat × Pkt) × State) : (placeServed r).course = r.2.course := by
  rcases r with ⟨_ | ⟨n, p⟩, t⟩
  · rfl
  · rw [placeServed, noteQuorum_course, placePkt_course, journalPkt_course, popFifo_course, course_mk, course_eta]

@[simp] theorem placeNext_course (s : State) : (placeNext s).course = s.course := by
  rw [placeNext, placeServed_course, serveFifo_course, advanceFront_course]

@[simp] theorem countCause_course (c : Nat) (s : State) : (countCause c s).course = s.course := by
  unfold countCause
  split <;> simp

@[simp] theorem freezeView_course (g : Nat) (seq : Nat) (cause : Nat) (eps : List (Nat × EpVal)) (s : State) : (freezeView g seq cause eps s).course = s.course := rfl

@[simp] theorem discardOpen_course (g : Nat) (s : State) : (discardOpen g s).course = s.course := by
  unfold discardOpen
  split <;> simp

@[simp] theorem dropResolve_course (g : Nat) (s : State) : (dropResolve g s).course = s.course := by
  unfold dropResolve
  split <;> simp

@[simp] theorem writeFinalized_course (t : Tick) (cause : Nat) (s : State) : (writeFinalized t cause s).course = s.course := by simp [writeFinalized]

@[simp] theorem keepPast_course (t : Tick) (s : State) : (keepPast t s).course = s.course := by simp [keepPast]

@[simp] theorem releaseTick_course (g : Nat) (s : State) : (releaseTick g s).course = s.course := by
  unfold releaseTick
  split <;> simp

@[simp] theorem finalizeTick_course (cause : Nat) (g : Nat) (s : State) : (finalizeTick cause g s).course = s.course := by
  simp only [finalizeTick]
  repeat' split
  all_goals simp

end Sys2Proof.Machine
end

