-- ==== Sys2Proof/Laws/Course/Oscillation.lean ====
section
/-! SUPPORT. The operations of Machine/Oscillation.lean keep the run state. -/

namespace Sys2Proof.Machine

@[simp] theorem osmCnt_course (k : Nat) (n : Nat) (s : State) : (osmCnt k n s).course = s.course := rfl

@[simp] theorem osmEvent_course (k : Nat) (s : State) : (osmEvent k s).course = s.course := by simp [osmEvent]

@[simp] theorem dropQueues_course (s : State) : (dropQueues s).course = s.course := by simp [dropQueues]

@[simp] theorem resetSets_course (s : State) : (resetSets s).course = s.course := rfl

@[simp] theorem deferLoc_course (x : LocIn) (s : State) : (deferLoc x s).course = s.course := by simp [deferLoc]

@[simp] theorem putSet_course (k : Nat) (e : OsmSet) (s : State) : (putSet k e s).course = s.course := rfl

@[simp] theorem deferSet_course (k : Nat) (x : OsmIn) (s : State) : (deferSet k x s).course = s.course := by
  unfold deferSet
  repeat' split
  all_goals simp

@[simp] theorem carryId_course (k : Nat) (g : Nat) (s : State) : (carryId k g s).course = s.course := by
  unfold carryId
  split <;> simp

@[simp] theorem locationTick_course (x : LocIn) (s : State) : (locationTick x s).course = s.course := rfl

@[simp] theorem freeSlots_course (p : LocSlot → Bool) (s : State) : (freeSlots p s).course = s.course := rfl

@[simp] theorem finishId_course (k : Nat) (f : Nat) (head : List (Nat × Nat × Nat)) (marks : Nat) (e : OsmSet) (out : IdOut) (ends : List Nat) (s : State) : (finishId k f head marks e out ends s).1.course = s.course := rfl

@[simp] theorem slotFor_course (k : Nat) (g : Nat) (e : OsmSet) (s : State) (t : Track) : (slotFor k g e s t).course = s.course := by
  unfold slotFor
  repeat' split
  all_goals simp

@[simp] theorem tally_course (n : IdTally) (s : State) : (tally n s).course = s.course := by simp [tally]

@[simp] theorem takeModes_course (k : Nat) (g : Nat) (n : IdTally) (e : OsmSet) (s : State) : (takeModes k g n e s).course = s.course := by simp [takeModes]

@[simp] theorem identifyBy_course (k : Nat) (g : Nat) (f : Nat) (head : List (Nat × Nat × Nat)) (marks : Nat) (e : OsmSet) (found : Option (Nat × List Cand)) (s : State) : (identifyBy k g f head marks e found s).1.course = s.course := by
  unfold identifyBy
  split <;> simp

@[simp] theorem identifySet_course (k : Nat) (g : Nat) (seq : Nat) (marks : Nat) (s : State) : (identifySet k g seq marks s).1.course = s.course := by
  simp only [identifySet]
  repeat' split
  all_goals simp

@[simp] theorem resetSet_course (k : Nat) (e : OsmSet) (s : State) : (resetSet k e s).course = s.course := rfl

@[simp] theorem updateSet_course (k : Nat) (x : OsmIn) (marks : Nat) (s : State) : (updateSet k x marks s).1.course = s.course := by
  simp only [updateSet]
  repeat' split
  all_goals simp

end Sys2Proof.Machine
end

