-- ==== Sys2Proof/Laws/Course/Separation.lean ====
section
/-! SUPPORT. The operations of Machine/Separation.lean keep the run state. -/

namespace Sys2Proof.Machine

@[simp] theorem sepTask_course (t : Tick) (s : State) : (sepTask t s).1.course = s.course := by simp [sepTask]

end Sys2Proof.Machine
end

