-- ==== Sys2Proof/Laws/Course/Bell.lean ====
section
/-! SUPPORT. The operations of Machine/Bell.lean keep the run state. -/

namespace Sys2Proof.Machine

@[simp] theorem alaEvent_course (k : Nat) (s : State) : (alaEvent k s).course = s.course := by simp [alaEvent]

@[simp] theorem alaCnt_course (k : Nat) (n : Nat) (s : State) : (alaCnt k n s).course = s.course := rfl

@[simp] theorem yokeSend_course (m : YokeOut) (s : State) : (yokeSend m s).course = s.course := by simp [yokeSend]

@[simp] theorem drivePins_course (s : State) : (drivePins s).course = s.course := by simp [drivePins]

@[simp] theorem modGroup_course (k : Nat) (f : Group → Group) (s : State) : (modGroup k f s).course = s.course := rfl

@[simp] theorem setNext_course (k : Nat) (s : State) : (setNext k s).course = s.course := rfl

@[simp] theorem handGroup_course (k : Nat) (g : Group) (s : State) : (handGroup k g s).course = s.course := by simp [handGroup]

@[simp] theorem sendGroup_course (k : Nat) (s : State) : (sendGroup k s).course = s.course := by
  unfold sendGroup
  repeat' split
  all_goals simp

@[simp] theorem newState_course (k : Nat) (st : Nat) (t : Nat) (s : State) : (newState k st t s).course = s.course := by
  unfold newState
  split <;> simp

@[simp] theorem refreshGroup_course (k : Nat) (s : State) : (refreshGroup k s).course = s.course := by
  unfold refreshGroup
  repeat' split
  all_goals simp

@[simp] theorem refreshGroups_course (s : State) : (refreshGroups s).course = s.course := by simp [refreshGroups]

@[simp] theorem groupRetx_course (k : Nat) (s : State) : (groupRetx k s).course = s.course := by
  unfold groupRetx
  repeat' split
  all_goals simp

@[simp] theorem invalidFrames_course (s : State) : (invalidFrames s).course = s.course := by
  unfold invalidFrames
  split
  · rfl
  · exact foldl_course _ _ _ fun s k => by split <;> simp

@[simp] theorem keepDigest_course (typ : Nat) (us : List Unit512) (s : State) : (keepDigest typ us s).course = s.course := by
  unfold keepDigest
  repeat' split
  all_goals simp

@[simp] theorem noteRing_course (n : Nat) (seq : Nat) (s : State) : (noteRing n seq s).course = s.course := by
  unfold noteRing
  split <;> simp

@[simp] theorem writeAlarm_course (s : State) (e : AEv) : (writeAlarm s e).course = s.course := by
  simp only [writeAlarm]
  repeat' split
  all_goals simp

@[simp] theorem latchPins_course (evs : List AEv) (s : State) : (latchPins evs s).course = s.course := by simp [latchPins]

@[simp] theorem publish_course (evs : List AEv) (s : State) : (publish evs s).course = s.course := by simp [publish]

@[simp] theorem setRule_course (k : Nat) (t : Tick) (dec2 : Bool) (ops : Nat) (prior : Nat) (cause : Nat) (rev : Nat) (reissue : Nat) (s : State) : (setRule k t dec2 ops prior cause rev reissue s).1.course = s.course := rfl

@[simp] theorem keepEnded_course (i : Inst) (g : Nat) (seq : Nat) (s : State) : (keepEnded i g seq s).1.course = s.course := by
  unfold keepEnded
  repeat' split
  all_goals simp

@[simp] theorem releaseRule_course (k g seq ops cause rev : Nat) (s : State) : (releaseRule k g seq ops cause rev s).1.course = s.course := by
  simp only [releaseRule]
  repeat' split
  all_goals simp

@[simp] theorem retractRule_course (k : Nat) (g : Nat) (seq : Nat) (ops : Nat) (rev : Nat) (s : State) : (retractRule k g seq ops rev s).1.course = s.course := by
  unfold retractRule
  split <;> simp

@[simp] theorem evalRule_course (t : Tick) (dec2 : Bool) (before : Conds) (a : State × List AEv) (x : Nat × BitVec 256) :
    (evalRule t dec2 before a x).1.course = a.1.course := by
  unfold evalRule
  dsimp only
  repeat' split
  all_goals simp

@[simp] theorem noteDecision_course (t : Tick) (s : State) : (noteDecision t s).course = s.course := rfl

@[simp] theorem decideD1_course (t : Tick) (dfc : Bool) (s : State) : (decideD1 t dfc s).course = s.course := by
  unfold decideD1
  dsimp only
  rw [publish_course, foldl_fst_course _ _ _ (evalRule_course _ _ _)]
  simp

@[simp] theorem decideD2_course (t : Tick) (res : Option LseRes) (osm : Bool) (s : State) : (decideD2 t res osm s).course = s.course := by
  unfold decideD2
  dsimp only
  rw [course_mk, course_eta, publish_course, foldl_fst_course _ _ _ (evalRule_course _ _ _)]
  simp

@[simp] theorem reviseRule_course (t : Tick) (rev : Nat) (d : D2Rec) (a : State × List AEv) (x : Nat × BitVec 256) :
    (reviseRule t rev d a x).1.course = a.1.course := by
  unfold reviseRule
  dsimp only
  repeat' split
  all_goals simp

@[simp] theorem reviseInst_course (t : Tick) (rev : Nat) (res : LseRes) (a : State × List AEv) (i : Inst) :
    (reviseInst t rev res a i).1.course = a.1.course := by
  unfold reviseInst
  dsimp only
  repeat' split
  all_goals simp

@[simp] theorem reviseAlarms_course (t : Tick) (rev : Nat) (res : LseRes) (s : State) : (reviseAlarms t rev res s).course = s.course := by
  unfold reviseAlarms
  split
  · rfl
  · dsimp only
    split
    · rw [publish_course, foldl_fst_course _ _ _ (reviseRule_course _ _ _)]
      simp
    · rw [publish_course, foldl_fst_course _ _ _ (reviseInst_course _ _ _)]

@[simp] theorem confirmAlarms_course (t : Tick) (s : State) : (confirmAlarms t s).course = s.course := by simp [confirmAlarms]

@[simp] theorem endAlarms_course (s : State) : (endAlarms s).course = s.course := by simp [endAlarms]

@[simp] theorem unlatch_course (k : Nat) (s : State) : (unlatch k s).course = s.course := by simp [unlatch]

@[simp] theorem pinClear_course (mask : Nat) (s : State) : (pinClear mask s).course = s.course := by simp [pinClear]

@[simp] theorem pinFollow_course (k : Nat) (s : State) : (pinFollow k s).course = s.course := by simp [pinFollow]

end Sys2Proof.Machine
end

