-- ==== Sys2Proof/Laws/Course/Mailbox.lean ====
section
/-! SUPPORT. The operations of Machine/Mailbox.lean keep the run state. -/

namespace Sys2Proof.Machine

@[simp] theorem mbxEvent_course (k : Nat) (s : State) : (mbxEvent k s).course = s.course := by simp [mbxEvent]

@[simp] theorem mbxCnt_course (c : Nat) (k : Nat) (s : State) : (mbxCnt c k s).course = s.course := by simp [mbxCnt]

@[simp] theorem modChan_course (c : Nat) (f : MChan → MChan) (s : State) : (modChan c f s).course = s.course := by simp [modChan]

@[simp] theorem modDir_course (c : Nat) (back : Bool) (f : MDir → MDir) (s : State) : (modDir c back f s).course = s.course := by simp [modDir]

@[simp] theorem drawAfter_course (bound : Nat) (s : State) : (drawAfter bound s).2.course = s.course := rfl

@[simp] theorem pushWord_course (c : Nat) (back : Bool) (w : Word) (lag : Nat) (s : State) : (pushWord c back w lag s).course = s.course := by simp [pushWord]

@[simp] theorem h2cWrite_course (c : Nat) (w : Word) (s : State) : (h2cWrite c w s).course = s.course := by simp [h2cWrite]

@[simp] theorem mbxCarry_course (c : Nat) (w : Word) (s : State) : (mbxCarry c w s).course = s.course := by simp [mbxCarry]

@[simp] theorem mbxYokeUp_course (s : State) : (mbxYokeUp s).course = s.course := by simp [mbxYokeUp]

@[simp] theorem corePush_course (c : Nat) (back : Bool) (w : Word) (s : State) : (corePush c back w s).course = s.course := by simp [corePush]

@[simp] theorem popWord_course (c : Nat) (back : Bool) (s : State) : (popWord c back s).2.course = s.course := by
  simp only [popWord]
  repeat' split
  all_goals simp

@[simp] theorem c2hRead_course (c : Nat) (s : State) : (c2hRead c s).course = s.course := by
  have h := popWord_course c true s
  unfold c2hRead
  split
  · rfl
  · generalize popWord c true s = r at h ⊢
    rcases r with ⟨_ | w, t⟩ <;> simp_all

@[simp] theorem corePop_course (c : Nat) (back : Bool) (s : State) : (corePop c back s).course = s.course := by
  have h := popWord_course c back s
  unfold corePop
  split
  · rfl
  · generalize popWord c back s = r at h ⊢
    rcases r with ⟨_ | w, t⟩ <;> simp_all

@[simp] theorem ackWrite_course (c : Nat) (back : Bool) (v : Word) (s : State) : (ackWrite c back v s).course = s.course := by
  unfold ackWrite
  split <;> simp

@[simp] theorem c2hAck_course (c : Nat) (v : Word) (s : State) : (c2hAck c v s).course = s.course := by simp [c2hAck]

@[simp] theorem coreAck_course (c : Nat) (back : Bool) (v : Word) (s : State) : (coreAck c back v s).course = s.course := by simp [coreAck]

@[simp] theorem mbxTimeout_course (c : Nat) (back : Bool) (s : State) : (mbxTimeout c back s).course = s.course := by
  unfold mbxTimeout
  split <;> simp

@[simp] theorem lockRead_course (k : Nat) (reader : Nat) (s : State) : (lockRead k reader s).course = s.course := by
  unfold lockRead
  split <;> simp

@[simp] theorem lockRelease_course (k : Nat) (v : Word) (s : State) : (lockRelease k v s).course = s.course := by simp [lockRelease]

@[simp] theorem mbxStatClear_course (c : Nat) (v : Word) (s : State) : (mbxStatClear c v s).course = s.course := rfl

@[simp] theorem mbxStatWrite_course (c : Nat) (v : Word) (s : State) : (mbxStatWrite c v s).course = s.course := by simp [mbxStatWrite]

@[simp] theorem restartCore_course (k : Nat) (s : State) : (restartCore k s).course = s.course := by simp [restartCore]

@[simp] theorem mbxYokeLost_course (s : State) : (mbxYokeLost s).course = s.course := by simp [mbxYokeLost]

end Sys2Proof.Machine
end

