-- ==== Sys2Proof/Laws/Course/Faults.lean ====
section
/-! SUPPORT. The operations of Machine/Faults.lean keep the run state. -/

namespace Sys2Proof.Machine

@[simp] theorem fltCnt_course (k : Nat) (s : State) : (fltCnt k s).course = s.course := rfl

@[simp] theorem logFault_course (r : FaultRec) (s : State) : (logFault r s).course = s.course := by simp [logFault]

@[simp] theorem updFault_course (id : Nat) (f : FaultRec → FaultRec) (s : State) : (updFault id f s).course = s.course := rfl

@[simp] theorem clearFault_course (id : Nat) (s : State) : (clearFault id s).course = s.course := rfl

@[simp] theorem enterFault_course (r : FaultRec) (s : State) : (enterFault r s).course = s.course := by simp [enterFault]

@[simp] theorem tryRelease_course (s : State) : (tryRelease s).course = s.course := by simp [tryRelease]

@[simp] theorem driveLow_course (s : State) : (driveLow s).course = s.course := rfl

@[simp] theorem refuse_course (c : Ctx) (st : Status) (late : Bool) (s : State) : (refuse c st late s).course = s.course := by simp [refuse]

@[simp] theorem failPending_course (s : State) : (failPending s).course = s.course := by
  simp only [failPending]
  repeat' split
  all_goals simp

@[simp] theorem dropData_course (s : State) : (dropData s).course = s.course := by simp [dropData]

@[simp] theorem sendHello_course (query : Bool) (s : State) : (sendHello query s).course = s.course := by simp [sendHello]

@[simp] theorem closeWindow_course (id : Nat) (s : State) : (closeWindow id s).course = s.course := by
  unfold closeWindow
  split <;> simp

@[simp] theorem lseEvent_course (k : Nat) (s : State) : (lseEvent k s).course = s.course := by simp [lseEvent]

@[simp] theorem lseCnt_course (k : Nat) (n : Nat) (s : State) : (lseCnt k n s).course = s.course := rfl

@[simp] theorem removeEngine_course (dom : Nat) (inv : Bool) (s : State) : (removeEngine dom inv s).course = s.course := by
  simp only [removeEngine]
  repeat' split
  all_goals simp

@[simp] theorem rerunEngine_course (dom : Nat) (s : State) : (rerunEngine dom s).course = s.course := rfl

@[simp] theorem coldEngine_course (dom : Nat) (s : State) : (coldEngine dom s).course = s.course := by
  unfold coldEngine
  split <;> simp

@[simp] theorem unplace_course (s : State) (h : Nat × Nat) : (unplace s h).course = s.course := by
  unfold unplace
  repeat' split
  all_goals simp

@[simp] theorem rollback_course (s : State) : (rollback s).course = s.course := rfl

@[simp] theorem restartDomain_course (x : FaultIn) (dom : Nat) (s : State) : (restartDomain x dom s).2.course = s.course := by
  unfold restartDomain
  repeat' split
  all_goals simp

@[simp] theorem restartComplete_course (dom : Nat) (s : State) : (restartComplete dom s).course = s.course := by
  unfold restartComplete
  split <;> simp

@[simp] theorem engineTaskDone_course (w : Work) (s : State) : (engineTaskDone w s).course = s.course := by
  unfold engineTaskDone
  split <;> simp

@[simp] theorem discarded_course (s : State) : (discarded s).course = s.course := rfl

@[simp] theorem discardUnit_course (x : FaultIn) (s : State) : (discardUnit x s).course = s.course := by
  unfold discardUnit
  repeat' split
  all_goals simp

@[simp] theorem countReadback_course (s : State) : (countReadback s).course = s.course := rfl

@[simp] theorem faultEffect_course (x : FaultIn) (s : State) : (faultEffect x s).course = s.course := by
  simp only [faultEffect]
  repeat' split
  all_goals simp

@[simp] theorem conditionCleared_course (code : Nat) (dom : Nat) (s : State) : (conditionCleared code dom s).course = s.course := by simp [conditionCleared]

@[simp] theorem faultnRelease_course (s : State) : (faultnRelease s).course = s.course := by simp [faultnRelease]

@[simp] theorem firstClr_course (s : State) : (firstClr s).course = s.course := rfl

end Sys2Proof.Machine
end

