-- ==== Sys2Proof/Laws/Course/PairBase.lean ====
section
/-! SUPPORT. The operations of Machine/PairBase.lean keep the run state. -/

namespace Sys2Proof.Machine

@[simp] theorem mirror_course (c : MirrorCmd) (s : State) : (mirror c s).course = s.course := by simp [mirror]

@[simp] theorem pairCnt_course (k : Nat) (n : Nat) (s : State) : (pairCnt k n s).course = s.course := rfl

@[simp] theorem finalMeets_course (seq : Nat) (value : Nat) (mine : Bool) (s : State) : (finalMeets seq value mine s).course = s.course := by
  unfold finalMeets
  repeat' split
  all_goals simp

@[simp] theorem finalDigest_course (t : Tick) (s : State) : (finalDigest t s).course = s.course := by simp [finalDigest]

@[simp] theorem challengePeer_course (s : State) : (challengePeer s).course = s.course := by simp [challengePeer]

@[simp] theorem pairSticky_course (c : Nat) (s : State) : (pairSticky c s).course = s.course := by simp [pairSticky]

@[simp] theorem pairEvt_course (e : PairEv) (n : PairNote) (s : State) : (pairEvt e n s).course = s.course := by
  simp only [pairEvt]
  repeat' split
  all_goals simp

@[simp] theorem setPair_course (new : PairSt) (e : PairEv) (last : Nat) (s : State) : (setPair new e last s).course = s.course := by simp [setPair]

@[simp] theorem beginJoin_course (cold : Bool) (s : State) : (beginJoin cold s).course = s.course := by simp [beginJoin]

@[simp] theorem skipDigest_course (s : State) : (skipDigest s).course = s.course := rfl

@[simp] theorem joinLater_course (s : State) : (joinLater s).course = s.course := rfl

@[simp] theorem noteStill_course (e : PairEv) (s : State) : (noteStill e s).course = s.course := by simp [noteStill]

@[simp] theorem digestTimeout_course (s : State) : (digestTimeout s).course = s.course := rfl

@[simp] theorem emitMark_course (seq : Nat) (s : State) : (emitMark seq s).course = s.course := by simp [emitMark]

end Sys2Proof.Machine
end

