-- ==== Sys2Proof/Laws/Course/Output.lean ====
section
/-! SUPPORT. The operations of Machine/Output.lean keep the run state. -/

namespace Sys2Proof.Machine

@[simp] theorem keepFrames_course (seq : Nat) (l : List (Nat × TxFrame)) (s : State) : (keepFrames seq l s).course = s.course := rfl

@[simp] theorem emitPortFrames_course (t : Tick) (p : Nat) (s : State) : (emitPortFrames t p s).course = s.course := by simp [emitPortFrames]

@[simp] theorem shedPortFrames_course (t : Tick) (p : Nat) (s : State) : (shedPortFrames t p s).course = s.course := by simp [shedPortFrames]

@[simp] theorem unshed_course (p g : Nat) (s : State) : (unshed p g s).course = s.course := by simp [unshed]

@[simp] theorem sendMarks_course (n : Nat) (s : State) : (sendMarks n s).course = s.course := by
  induction n generalizing s with
  | zero => rfl
  | succ k ih =>
    simp only [sendMarks]
    repeat' split
    all_goals simp [ih]

@[simp] theorem marksDue_course (s : State) : (marksDue s).course = s.course := by
  simp only [marksDue]
  all_goals simp

@[simp] theorem transmitPort_course (p : Nat) (s : State) : (transmitPort p s).course = s.course := by simp [transmitPort]

@[simp] theorem releaseFrames_course (s : State) : (releaseFrames s).course = s.course := by simp [releaseFrames]

end Sys2Proof.Machine
end

