-- ==== Sys2Proof/Laws/Course/TickWork.lean ====
section
/-! SUPPORT. The operations of Machine/TickWork.lean keep the run state. -/

namespace Sys2Proof.Machine

@[simp] theorem modCur_course (f : Cur → Cur) (s : State) : (modCur f s).course = s.course := rfl

@[simp] theorem queueRec_course (r : EmitRec) (s : State) : (queueRec r s).course = s.course := rfl

@[simp] theorem dfcEvent_course (k : Nat) (s : State) : (dfcEvent k s).course = s.course := by simp [dfcEvent]

@[simp] theorem dfcCnt_course (k : Nat) (n : Nat) (s : State) : (dfcCnt k n s).course = s.course := rfl

@[simp] theorem swapDone_course (seq : Nat) (w : Swap) (s : State) : (swapDone seq w s).course = s.course := by
  unfold swapDone
  split <;> simp

@[simp] theorem chainWork_course (t : Tick) (s : State) (x : Nat × Chain) : (chainWork t s x).course = s.course := by
  simp only [chainWork]
  repeat' (split <;> try simp)

@[simp] theorem dfcGroup_course (t : Tick) (grp : Nat) (s : State) : (dfcGroup t grp s).course = s.course := by simp [dfcGroup]

@[simp] theorem bindTick_course (snap : Option (List Bool)) (s : State) : (bindTick snap s).2.course = s.course := by
  unfold bindTick
  split <;> simp

@[simp] theorem lseWriteBack_course (t : Tick) (v : Solve) (r : LseRes) (s : State) : (lseWriteBack t v r s).course = s.course := rfl

@[simp] theorem lseTally_course (t : Tick) (v : Solve) (r : LseRes) (s : State) : (lseTally t v r s).course = s.course := by simp [lseTally]

@[simp] theorem analyzeTick_course (t : Tick) (v : Solve) (s : State) : (analyzeTick t v s).2.course = s.course := by
  unfold analyzeTick
  split <;> simp

@[simp] theorem sepWork_course (t : Tick) (s : State) : (sepWork t s).1.course = s.course := by simp [sepWork]

@[simp] theorem writeNow_course (t : Tick) (l : List EmitRec) (s : State) : (writeNow t l s).course = s.course := by
  simp only [writeNow]
  repeat' (first | split | refine (foldl_course _ _ _ ?_).trans ?_ | intro _ _ | simp)

@[simp] theorem revise_course (t0 : Tick) (v : Solve) (s : State) : (revise t0 v s).course = s.course := by
  unfold revise
  split <;> simp

end Sys2Proof.Machine
end

