-- ==== Sys2Proof/Laws/Course/Scheduled.lean ====
section
/-! SUPPORT. The operations of Machine/Scheduled.lean keep the run state. -/

namespace Sys2Proof.Machine

@[simp] theorem stageLoad_course (chain : Nat) (filter : Nat) (n : Nat) (words : List Word) (w : Swap) (s : State) : (stageLoad chain filter n words w s).course = s.course := by
  unfold stageLoad
  repeat' split
  all_goals simp

@[simp] theorem beginLoad_course (c : Ctx) (late : Bool) (chain : Nat) (filter : Nat) (n : Nat) (words : List Word) (after : Int) (s : State) : (beginLoad c late chain filter n words after s).course = s.course := by
  unfold beginLoad
  split <;> simp

@[simp] theorem keyCount_course (op : Bool) (st : Status) (s : State) : (keyCount op st s).course = s.course := by
  unfold keyCount
  split <;> simp

@[simp] theorem endKey_course (c : Ctx) (late : Bool) (tick : Option Nat) (j : KeyJob) (s : State) : (endKey c late tick j s).course = s.course := by
  unfold endKey
  split <;> simp

@[simp] theorem startKey_course (c : Ctx) (late : Bool) (tick : Option Nat) (j : KeyJob) (s : State) : (startKey c late tick j s).course = s.course := by simp [startKey]

@[simp] theorem finishKey_course (c : Ctx) (late : Bool) (tick : Option Nat) (r : KeyOut) (s : State) : (finishKey c late tick r s).course = s.course := by
  unfold finishKey
  split <;> simp

@[simp] theorem rollOf_course (p : BitVec 384) (blob : Option (List Byte)) (s : State) : (rollOf p blob s).2.course = s.course := by simp [rollOf]

@[simp] theorem tooLate_course (c : Ctx) (lat : Int) (s : State) : (tooLate c lat s).course = s.course := by simp [tooLate]

@[simp] theorem judgedLate_course (lat : Int) (s : State) : (judgedLate lat s).course = s.course := by simp [judgedLate]

@[simp] theorem rejudge_course (s : State) (c : Sched) : (rejudge s c).course = s.course := by simp [rejudge]

@[simp] theorem rejudgeAll_course (s : State) : (rejudgeAll s).course = s.course := by simp [rejudgeAll]

end Sys2Proof.Machine
end

