-- ==== Sys2Proof/Laws/Course/Tick.lean ====
section
/-! SUPPORT. The operations of Machine/Tick.lean keep the run state. -/

namespace Sys2Proof.Machine

@[simp] theorem takeD1_course (s : State) : (takeD1 s).course = s.course := by
  unfold takeD1
  split <;> simp

@[simp] theorem takeD2_course (s : State) : (takeD2 s).course = s.course := by
  unfold takeD2
  split <;> simp

@[simp] theorem putRec_course (t : Tick) (s : State) (r : EmitRec) : (putRec t s r).course = s.course := by
  unfold putRec
  split <;> simp

@[simp] theorem putAligned_course (t : Tick) (s : State) (e : Nat × EpEntry) : (putAligned t s e).course = s.course := by
  unfold putAligned
  split <;> simp

@[simp] theorem writeRecs_course (s : State) : (writeRecs s).course = s.course := by
  unfold writeRecs
  split <;> simp

@[simp] theorem durations_course (c : Cur) (s : State) : (durations c s).2.course = s.course := rfl

@[simp] theorem dropCur_course (s : State) : (dropCur s).course = s.course := by
  unfold dropCur
  split <;> simp

@[simp] theorem makeFinal_course (cause : Nat) (s : State) (g : Nat) : (makeFinal cause s g).course = s.course := by
  simp only [makeFinal]
  repeat' split
  all_goals simp

@[simp] theorem finalizeDue_course (s : State) : (finalizeDue s).course = s.course := by simp [finalizeDue]

@[simp] theorem dropIllegal_course (s : State) : (dropIllegal s).course = s.course := by
  simp only [dropIllegal]
  repeat' split
  all_goals simp

@[simp] theorem startPhase_course (k : Nat) (s : State) : (startPhase k s).course = s.course := rfl

@[simp] theorem startSolve_course (c : Cur) (s : State) : (startSolve c s).course = s.course := by simp [startSolve]

@[simp] theorem readyDefer_course (k : Nat) (g : Nat) (seq : Nat) (s : State) : (readyDefer k g seq s).course = s.course := by simp [readyDefer]

@[simp] theorem deferUpdate_course (t : Tick) (k : Nat) (s : State) : (deferUpdate t k s).course = s.course := by
  simp only [deferUpdate]
  repeat' split
  all_goals simp

@[simp] theorem carryDue_course (g k : Nat) (s : State) : (carryDue g k s).course = s.course := by simp [carryDue]

@[simp] theorem startAnalyze_course (c : Cur) (s : State) : (startAnalyze c s).course = s.course := by simp [startAnalyze]

@[simp] theorem moveToSlack_course (c : Cur) (s : State) : (moveToSlack c s).course = s.course := by
  unfold moveToSlack
  dsimp only
  rw [modCur_course, foldl_course _ _ _ fun s t => by split <;> (try split) <;> simp]
  simp

@[simp] theorem startEmit_course (c : Cur) (s : State) : (startEmit c s).course = s.course := by simp [startEmit]

@[simp] theorem inCur_course (e : TEntry) (f : Cur → Tick → State → State) (s : State) (h : ∀ c t s, (f c t s).course = s.course) :
    (inCur e f s).course = s.course := by
  unfold inCur
  split
  · split
    · exact h _ _ _
    · rfl
  · rfl

@[simp] theorem feedPort_course (e : TEntry) (s : State) : (feedPort e s).course = s.course := by
  unfold feedPort
  split <;> simp

@[simp] theorem againResolve_course (e : TEntry) (t : Tick) (s : State) : (againResolve e t s).course = s.course := by simp [againResolve]

@[simp] theorem carryLeft_course (c : Cur) (s : State) : (carryLeft c s).course = s.course := by simp [carryLeft]

@[simp] theorem shedEntry_course (t : TEntry) (s : State) : (shedEntry t s).course = s.course := by
  unfold shedEntry
  split <;> simp

@[simp] theorem shedWhere_course (p : TEntry → Bool) (s : State) : (shedWhere p s).course = s.course := by simp [shedWhere]

@[simp] theorem shedWork_course (k : Nat) (c : Cur) (s : State) : (shedWork k c s).course = s.course := by
  unfold shedWork
  split <;> simp

@[simp] theorem holdLoads_course (before : List TEntry) (s : State) : (holdLoads before s).course = s.course :=
  foldl_course _ _ _ fun s t => foldl_course _ _ _ fun s x => by
    dsimp only
    split
    · split <;> simp
    · rfl

end Sys2Proof.Machine
end

