-- ==== Sys2Proof/Laws/Course/Commit.lean ====
section
/-! SUPPORT. The operations of Machine/Commit.lean keep the run state. -/

namespace Sys2Proof.Machine

@[simp] theorem newCkpt_course (s : State) : (newCkpt s).course = s.course := rfl

@[simp] theorem noteJump_course (was : Int) (s : State) : (noteJump was s).course = s.course := by simp [noteJump]

@[simp] theorem skipPassed_course (was : Int) (s : State) : (skipPassed was s).course = s.course := by simp [skipPassed]

@[simp] theorem checkpointDone_course (s : State) : (checkpointDone s).course = s.course := by simp [checkpointDone]

@[simp] theorem dropSwitch_course (seq : Nat) (s : State) : (dropSwitch seq s).course = s.course := by
  unfold dropSwitch
  split <;> simp

@[simp] theorem freeSilent_course (g : Nat) (s : State) : (freeSilent g s).course = s.course := by simp [freeSilent]

@[simp] theorem freezeTick_course (g : Nat) (cause : Nat) (mark : Option CommitMark) (skip : Bool) (s : State) : (freezeTick g cause mark skip s).course = s.course := by simp [freezeTick]

@[simp] theorem judgeSwitch_course (c : Ctx) (late : Bool) (seq : Nat) (s : State) : (judgeSwitch c late seq s).course = s.course := by simp [judgeSwitch]

@[simp] theorem sendSnapshot_course (g : Nat) (s : State) : (sendSnapshot g s).course = s.course := by simp [sendSnapshot]

@[simp] theorem pairCommit_course (g : Nat) (seq : Nat) (cause : Nat) (s : State) : (pairCommit g seq cause s).course = s.course := by
  unfold pairCommit
  repeat' split
  all_goals simp

@[simp] theorem passOpen_course (g : Nat) (s : State) : (passOpen g s).course = s.course := by
  simp only [passOpen]
  repeat' (first | split | refine (foldl_course _ _ _ ?_).trans ?_ | intro _ _ | simp)

@[simp] theorem placeAfter_course (g : Nat) (s : State) (e : Nat × EpVal) : (placeAfter g s e).course = s.course := by
  unfold placeAfter
  split <;> simp

@[simp] theorem runSched_course (g : Nat) (seq : Nat) (s : State) (c : Sched) : (runSched g seq s c).course = s.course := by
  unfold runSched
  split <;> simp

@[simp] theorem switchOver_course (seq : Nat) (c : Ctx) (late : Bool) (s : State) : (switchOver seq c late s).course = s.course := by simp [switchOver]

@[simp] theorem takeDue_course (g : Nat) (s : State) : (takeDue g s).2.course = s.course := rfl

end Sys2Proof.Machine
end

