-- ==== Sys2Proof/Laws/Course/Start.lean ====
section
/-! SUPPORT. The operations of Machine/Start.lean keep the run state. -/

namespace Sys2Proof.Machine

@[simp] theorem endLoad_course (c : Ctx) (st : Status) (i : Option Image) (s : State) : (endLoad c st i s).course = s.course := by simp [endLoad]

@[simp] theorem clearMisfit_course (s : State) : (clearMisfit s).course = s.course := rfl

@[simp] theorem keepImage_course (c : Ctx) (total : Nat) (i : Image) (s : State) : (keepImage c total i s).course = s.course := by
  simp only [keepImage]
  repeat' split
  all_goals simp

@[simp] theorem configLoad_course (c : Ctx) (p : BitVec 384) (list : Option (List (BitVec 128))) (img : Option Image) (s : State) : (configLoad c p list img s).course = s.course := by
  unfold configLoad
  repeat' split
  all_goals simp

@[simp] theorem loadIng_course (i : Image) (role : Nat) (s : State) : (loadIng i role s).course = s.course := rfl

@[simp] theorem loadAln_course (i : Image) (s : State) : (loadAln i s).course = s.course := rfl

@[simp] theorem openWindow_course (s : State) : (openWindow s).course = s.course := rfl

@[simp] theorem reopenWindow_course (s : State) : (reopenWindow s).course = s.course := rfl

@[simp] theorem loadTkx_course (i : Image) (mode : Nat) (s : State) : (loadTkx i mode s).course = s.course := rfl

@[simp] theorem loadDfc_course (i : Image) (s : State) : (loadDfc i s).course = s.course := by
  unfold loadDfc
  split <;> simp

@[simp] theorem swapsNext_course (s : State) : (swapsNext s).course = s.course := rfl

@[simp] theorem resetChains_course (s : State) : (resetChains s).course = s.course := rfl

@[simp] theorem zeroHold_course (s : State) : (zeroHold s).course = s.course := rfl

@[simp] theorem loadLse_course (i : Image) (s : State) : (loadLse i s).course = s.course := rfl

@[simp] theorem loadOsm_course (i : Image) (s : State) : (loadOsm i s).course = s.course := rfl

@[simp] theorem loadSep_course (i : Image) (s : State) : (loadSep i s).course = s.course := rfl

@[simp] theorem loadAla_course (i : Image) (s : State) : (loadAla i s).course = s.course := by simp [loadAla]

@[simp] theorem loadPorts_course (i : Image) (s : State) : (loadPorts i s).course = s.course := by simp [loadPorts]

@[simp] theorem loadSys_course (i : Image) (mode : Nat) (s : State) : (loadSys i mode s).course = s.course := rfl

@[simp] theorem loadAll_course (i : Image) (role : Nat) (s : State) : (loadAll i role s).course = s.course := by simp [loadAll]

@[simp] theorem configLock_course (s : State) : (configLock s).course = s.course := by simp [configLock]

end Sys2Proof.Machine
end

