-- ==== Sys2Proof/Laws/Course/PairCtl.lean ====
section
/-! SUPPORT. The operations of Machine/PairCtl.lean keep the run state. -/

namespace Sys2Proof.Machine

@[simp] theorem answerChallenge_course (c : BitVec 256) (s : State) : (answerChallenge c s).course = s.course := by simp [answerChallenge]

@[simp] theorem attestReceive_course (a : PeerAttest) (s : State) : (attestReceive a s).course = s.course := by
  unfold attestReceive
  repeat' split
  all_goals simp

@[simp] theorem ownSched_course (s : State) : (ownSched s).course = s.course := rfl

@[simp] theorem reissueGroups_course (s : State) : (reissueGroups s).course = s.course := by simp [reissueGroups]

@[simp] theorem becomeActive_course (s : State) : (becomeActive s).course = s.course := by simp [becomeActive]

@[simp] theorem emitMarkReceive_course (seq : Nat) (s : State) : (emitMarkReceive seq s).course = s.course := by simp [emitMarkReceive]

@[simp] theorem takeover_course (s : State) : (takeover s).course = s.course := by simp [takeover]

@[simp] theorem forceActive_course (v : Word) (s : State) : (forceActive v s).course = s.course := by simp [forceActive]

@[simp] theorem frameMarkReceive_course (g : Nat) (st : Nat) (s : State) : (frameMarkReceive g st s).course = s.course := by simp [frameMarkReceive]

@[simp] theorem injectForward_course (id : Nat) (bytes : List Byte) (s : State) : (injectForward id bytes s).course = s.course := by simp [injectForward]

@[simp] theorem joinRetry_course (s : State) : (joinRetry s).course = s.course := by
  unfold joinRetry
  split <;> simp

@[simp] theorem laneDown_course (lane : Nat) (s : State) : (laneDown lane s).course = s.course := by simp [laneDown]

@[simp] theorem laneUp_course (lane : Nat) (s : State) : (laneUp lane s).course = s.course := by simp [laneUp]

@[simp] theorem mirrorAck_course (s : State) : (mirrorAck s).course = s.course := by
  unfold mirrorAck
  split <;> simp

@[simp] theorem peerGone_course (s : State) : (peerGone s).course = s.course := by simp [peerGone]

@[simp] theorem peerFatal_course (s : State) : (peerFatal s).course = s.course := by simp [peerFatal]

@[simp] theorem loadEngines_course (e : Engines) (s : State) : (loadEngines e s).course = s.course := by simp [loadEngines]

@[simp] theorem syncFail_course (s : State) : (syncFail s).course = s.course := by
  unfold syncFail
  repeat' split
  all_goals simp

@[simp] theorem synced_course (s : State) : (synced s).course = s.course := by simp [synced]

@[simp] theorem heartbeatLost_course (s : State) : (heartbeatLost s).course = s.course := by simp [heartbeatLost]

@[simp] theorem hbMissed_course (lane : Nat) (s : State) : (hbMissed lane s).course = s.course := by simp [hbMissed]

@[simp] theorem hbReceive_course (lane : Nat) (peer : Int) (s : State) : (hbReceive lane peer s).course = s.course := rfl

@[simp] theorem hbSend_course (s : State) : (hbSend s).course = s.course := by simp [hbSend]

end Sys2Proof.Machine
end

