-- ==== Sys2Proof/Laws/Course/Logbook.lean ====
section
/-! SUPPORT. The operations of Machine/Logbook.lean keep the run state. -/

namespace Sys2Proof.Machine

@[simp] theorem handLogRecord_course (ring : Nat) (u : Unit512) (s : State) : (handLogRecord ring u s).course = s.course := by simp [handLogRecord]

@[simp] theorem logStore_course (e : LogEv) (s : State) : (logStore e s).course = s.course := by simp [logStore]

@[simp] theorem logDropped_course (s : State) : (logDropped s).course = s.course := by simp [logDropped]

@[simp] theorem logWriteNext_course (s : State) : (logWriteNext s).course = s.course := by
  unfold logWriteNext
  split <;> simp

@[simp] theorem logFlushN_course (x0 : Nat) (x1 : State) : (logFlushN x0 x1).course = x1.course := by
  induction x0 generalizing x1 with
  | zero => simp [logFlushN]
  | succ k ih =>
    simp [logFlushN, ih]

@[simp] theorem logClear_course (s : State) : (logClear s).2.course = s.course := by simp [logClear]

theorem logExportN_course (ring k seq : Nat) (a : Nat × Nat × State) : (logExportN ring k seq a).2.2.course = a.2.2.course := by
  induction k generalizing seq a with
  | zero => rfl
  | succ k ih =>
    obtain ⟨e, sk, s⟩ := a
    simp only [logExportN]
    split <;> simp [ih]

end Sys2Proof.Machine
end

