-- ==== Sys2Proof/Laws/Course/Commands.lean ====
section
/-! SUPPORT. The operations of Machine/Commands.lean keep the run state. -/

namespace Sys2Proof.Machine

@[simp] theorem noteWaits_course (s : State) : (noteWaits s).course = s.course := by simp [noteWaits]

@[simp] theorem takeHead_course (d : Desc) (op : Nat) (s : State) : (takeHead d op s).2.course = s.course := by simp [takeHead]

theorem withDesc_course (o : Opcode) (d : Desc) (fail : Ctx → Status → State → State) (run : Ctx → State → State) (s : State)
    (hf : ∀ c st t, (fail c st t).course = t.course) (hr : ∀ c t, judgeHead o d t = none → (run c t).course = t.course) :
    (withDesc o d fail run s).course = s.course := by
  unfold withDesc
  split
  · rfl
  · split
    · simp
    · have ht := takeHead_course d o.code s
      generalize takeHead d o.code s = r at ht ⊢
      obtain ⟨c, t⟩ := r
      simp only [noteWaits_course]
      rw [← ht]
      split
      · simp
      · simp
      · split
        · rw [hf]; simp
        · rename_i h
          rw [hr _ _ h]; simp

theorem plainDesc_course (o : Opcode) (d : Desc) (run : Ctx → State → State) (s : State)
    (hr : ∀ c t, judgeHead o d t = none → (run c t).course = t.course) : (plainDesc o d run s).course = s.course :=
  withDesc_course o d complete run s (fun c st t => complete_course c st t) hr

@[simp] theorem pendSched_course (c : Ctx) (atNs : Nat) (late : Bool) (cmd : SchedCmd) (s : State) : (pendSched c atNs late cmd s).course = s.course := by simp [pendSched]

theorem acceptSched_course (c : Ctx) (d : Desc) (fail : Ctx → Status → State → State) (cmd : SchedCmd) (s : State)
    (hf : ∀ c st t, (fail c st t).course = t.course) : (acceptSched c d fail cmd s).course = s.course := by
  unfold acceptSched
  dsimp only
  repeat' split
  all_goals simp [hf]

@[simp] theorem nopCmd_course (d : Desc) (s : State) : (nopCmd d s).course = s.course := by
  exact plainDesc_course _ _ _ _ (by simp)

@[simp] theorem configLoadCmd_course (d : Desc) (list : Option (List (BitVec 128))) (img : Option Image) (s : State) : (configLoadCmd d list img s).course = s.course := by
  exact plainDesc_course _ _ _ _ (by simp)

@[simp] theorem configLockCmd_course (d : Desc) (s : State) : (configLockCmd d s).course = s.course := by
  exact plainDesc_course _ _ _ _ (by simp)

@[simp] theorem fwLoadNow_course (c : Ctx) (p : BitVec 384) (list : Option (List (BitVec 128))) (img : Option (List Byte)) (s : State) : (fwLoadNow c p list img s).course = s.course := by
  unfold fwLoadNow
  dsimp only
  repeat' split
  all_goals simp

@[simp] theorem fwLoadCmd_course (d : Desc) (list : Option (List (BitVec 128))) (img : Option (List Byte)) (s : State) : (fwLoadCmd d list img s).course = s.course := by
  exact plainDesc_course _ _ _ _ (by simp)

@[simp] theorem coefLoadNow_course (c : Ctx) (d : Desc) (words : Option (List Word)) (s : State) : (coefLoadNow c d words s).course = s.course := by
  unfold coefLoadNow
  dsimp only
  repeat' split
  all_goals simp [acceptSched_course]

@[simp] theorem dfcCoefLoadCmd_course (d : Desc) (words : Option (List Word)) (s : State) : (dfcCoefLoadCmd d words s).course = s.course := by
  exact withDesc_course _ _ _ _ _ (by simp) (by simp)

@[simp] theorem logClearCmd_course (d : Desc) (s : State) : (logClearCmd d s).course = s.course := by
  exact plainDesc_course _ _ _ _ (by simp)

@[simp] theorem logExportNow_course (c : Ctx) (p : BitVec 384) (s : State) : (logExportNow c p s).course = s.course := by
  unfold logExportNow
  dsimp only
  split
  · simp
  · simp [logExportN_course]

@[simp] theorem logExportCmd_course (d : Desc) (s : State) : (logExportCmd d s).course = s.course := by
  exact plainDesc_course _ _ _ _ (by simp)

@[simp] theorem keyImportCmd_course (d : Desc) (blob : Option (List Byte)) (s : State) : (keyImportCmd d blob s).course = s.course := by
  exact plainDesc_course _ _ _ _ (by simp)

@[simp] theorem keyRevokeNow_course (c : Ctx) (p : BitVec 384) (s : State) : (keyRevokeNow c p s).course = s.course := by simp [keyRevokeNow]

@[simp] theorem keyRevokeCmd_course (d : Desc) (s : State) : (keyRevokeCmd d s).course = s.course := by
  exact plainDesc_course _ _ _ _ (by simp)

@[simp] theorem lifecycleCmd_course (d : Desc) (sig aux : Option (List Byte)) (s : State) : (lifecycleCmd d sig aux s).course = s.course := by
  exact plainDesc_course _ _ _ _ fun c t _ => by simp

@[simp] theorem attestCmd_course (d : Desc) (challenge : Option (List Byte)) (s : State) : (attestCmd d challenge s).course = s.course := by
  refine plainDesc_course _ _ _ _ fun c t _ => ?_
  dsimp only
  split <;> simp

@[simp] theorem switchNow_course (c : Ctx) (s : State) : (switchNow c s).course = s.course := by simp [switchNow]

@[simp] theorem pairSwitchoverCmd_course (d : Desc) (s : State) : (pairSwitchoverCmd d s).course = s.course := by
  exact plainDesc_course _ _ _ _ fun c t _ => by split <;> simp [acceptSched_course]

@[simp] theorem injectFail_course (c : Ctx) (st : Status) (s : State) : (injectFail c st s).course = s.course := by simp [injectFail]

@[simp] theorem injectNow_course (c : Ctx) (p : BitVec 384) (frame : Option (List Byte)) (s : State) : (injectNow c p frame s).course = s.course := by
  unfold injectNow
  split <;> simp

@[simp] theorem injectCmd_course (d : Desc) (frame : Option (List Byte)) (s : State) : (injectCmd d frame s).course = s.course := by
  unfold injectCmd
  split
  · rfl
  · exact withDesc_course _ _ _ _ _ (by simp) (by simp)

@[simp] theorem drainAll_course (s : State) : (drainAll s).course = s.course := by simp [drainAll]

@[simp] theorem loseStaged_course (n : Nat) (why : Loss) (hit : Rec → Bool) (s : State) : (loseStaged n why hit s).course = s.course := by simp [loseStaged]

@[simp] theorem recordDeadline_course (n : Nat) (s : State) : (recordDeadline n s).course = s.course := by simp [recordDeadline]

@[simp] theorem writeRingCfg_course (n : Nat) (v : Word) (s : State) : (writeRingCfg n v s).course = s.course := by simp [writeRingCfg]

@[simp] theorem doorbell_course (n : Nat) (idx : Nat) (s : State) : (doorbell n idx s).course = s.course := by simp [doorbell]

@[simp] theorem doorbellWrite_course (a : Access) (v : Dword) (s : State) : (doorbellWrite a v s).course = s.course := by simp [doorbellWrite]

@[simp] theorem irqCoalTimer_course (n : Nat) (s : State) : (irqCoalTimer n s).course = s.course := by
  simp only [irqCoalTimer]
  repeat' split
  all_goals simp

@[simp] theorem busResume_course (s : State) : (busResume s).course = s.course := by simp [busResume]

@[simp] theorem busMasterChange_course (b : Bool) (x : MsixCtl) (c : DevCtl) (s : State) : (busMasterChange b x c s).course = s.course := by simp [busMasterChange]

@[simp] theorem powerState_course (d3 : Bool) (s : State) : (powerState d3 s).course = s.course := by simp [powerState]

@[simp] theorem writeMsix_course (k : Nat) (v : Word) (s : State) : (writeMsix k v s).course = s.course := by simp [writeMsix]

@[simp] theorem msixUnmask_course (v : Nat) (s : State) : (msixUnmask v s).course = s.course := by simp [msixUnmask]

end Sys2Proof.Machine
end

