-- ==== Sys2Proof/Laws/Course/Boot.lean ====
section
/-! SUPPORT. The operations of Machine/Boot.lean keep the run state. -/

namespace Sys2Proof.Machine

@[simp] theorem drawRoot_course (s : State) : (drawRoot s).course = s.course := by simp [drawRoot]

@[simp] theorem finishCut_course (s : State) : (finishCut s).course = s.course := by simp [finishCut]

@[simp] theorem tornSlot_course (s : State) (k : Nat) : (tornSlot s k).course = s.course := by simp [tornSlot]

@[simp] theorem restartRtc_course (s : State) : (restartRtc s).course = s.course := by simp [restartRtc]

@[simp] theorem retentionLost_course (s : State) : (retentionLost s).course = s.course := by simp [retentionLost]

@[simp] theorem drawShare_course (s : State) : (drawShare s).course = s.course := by simp [drawShare]

@[simp] theorem bootKeys_course (s : State) : (bootKeys s).course = s.course := by simp [bootKeys]

@[simp] theorem scanLog_course (s : State) : (scanLog s).course = s.course := rfl

@[simp] theorem loadOffsets_course (s : State) : (loadOffsets s).course = s.course := rfl

@[simp] theorem bootRecord_course (src : Source) (prev : Nat) (bank : Nat) (svn : Nat) (s : State) : (bootRecord src prev bank svn s).course = s.course := by simp [bootRecord]

@[simp] theorem bootFails_course (b : BootIn) (code : Nat) (step : Nat) (s : State) : (bootFails b code step s).course = s.course := rfl

@[simp] theorem cutShort_course (c : PowerCut) (s : State) : (cutShort c s).course = s.course := by
  unfold cutShort
  split <;> simp

@[simp] theorem perst_course (width : LinkWidth) (speed : LinkSpeed) (s : State) : (perst width speed s).course = s.course := by simp [perst]

@[simp] theorem tempUpdate_course (vin : Nat) (temp : Int) (s : State) : (tempUpdate vin temp s).course = s.course := by simp [tempUpdate]

end Sys2Proof.Machine
end

