-- ==== Sys2Proof/Laws/Course/RegBase.lean ====
section
/-! SUPPORT. The operations of Machine/RegBase.lean keep the run state. -/

namespace Sys2Proof.Machine

@[simp] theorem noPut_course (k : Nat) (v : Word) (s : State) : (noPut k v s).course = s.course := rfl

end Sys2Proof.Machine
end

