-- ==== Sys2Proof/Laws/Course/RegHost.lean ====
section
/-! SUPPORT. The operations of Machine/RegHost.lean keep the run state. -/

namespace Sys2Proof.Machine

@[simp] theorem putBase_course (hi : Bool) (n : Nat) (v : Word) (s : State) : (putBase hi n v s).course = s.course := by simp [putBase]

@[simp] theorem putFaultn_course (v : Word) (s : State) : (putFaultn v s).course = s.course := by simp [putFaultn]

@[simp] theorem setFlt_course (f : Flt → Flt) (s : State) : (setFlt f s).course = s.course := rfl

@[simp] theorem putFltCtrl_course (v : Word) (s : State) : (putFltCtrl v s).course = s.course := by simp [putFltCtrl]

@[simp] theorem putGuarantee_course (v : Word) (s : State) : (putGuarantee v s).course = s.course := rfl

@[simp] theorem setPairR_course (f : Pair → Pair) (s : State) : (setPairR f s).course = s.course := rfl

@[simp] theorem putPairCfg_course (v : Word) (s : State) : (putPairCfg v s).course = s.course := rfl

@[simp] theorem setLog_course (f : Log → Log) (s : State) : (setLog f s).course = s.course := rfl

@[simp] theorem readLogQueue_course (s : State) : (readLogQueue s).course = s.course := rfl

@[simp] theorem setHif_course (f : Hif → Hif) (s : State) : (setHif f s).course = s.course := rfl

@[simp] theorem setKst_course (f : Kst → Kst) (s : State) : (setKst f s).course = s.course := rfl

@[simp] theorem setMbx_course (f : Mbx → Mbx) (s : State) : (setMbx f s).course = s.course := rfl

end Sys2Proof.Machine
end

