-- ==== Sys2Proof/Laws/Course/RegNet.lean ====
section
/-! SUPPORT. The operations of Machine/RegNet.lean keep the run state. -/

namespace Sys2Proof.Machine

@[simp] theorem setTbu_course (f : Tbu → Tbu) (s : State) : (setTbu f s).course = s.course := rfl

@[simp] theorem putPps_course (v : Word) (s : State) : (putPps v s).course = s.course := by
  simp only [putPps]
  repeat' split
  all_goals simp

@[simp] theorem putDcfg_course (x : DomId) (v : Word) (s : State) : (putDcfg x v s).course = s.course := by simp [putDcfg]

@[simp] theorem putTcCfg_course (v : Word) (s : State) : (putTcCfg v s).course = s.course := by simp [putTcCfg]

@[simp] theorem setNet_course (f : Net → Net) (s : State) : (setNet f s).course = s.course := rfl

@[simp] theorem putPcfg_course (p : Nat) (v : Word) (s : State) : (putPcfg p v s).course = s.course := by simp [putPcfg]

@[simp] theorem putMac_course (hi : Bool) (p : Nat) (v : Word) (s : State) : (putMac hi p v s).course = s.course := by simp [putMac]

@[simp] theorem putPreempt_course (p : Nat) (v : Word) (s : State) : (putPreempt p v s).course = s.course := by simp [putPreempt]

@[simp] theorem putLpi_course (p : Nat) (v : Word) (s : State) : (putLpi p v s).course = s.course := by simp [putLpi]

@[simp] theorem setIng_course (f : Ing → Ing) (s : State) : (setIng f s).course = s.course := rfl

@[simp] theorem putWm_course (v : Word) (s : State) : (putWm v s).course = s.course := by
  unfold putWm
  dsimp only
  split <;> simp [setIng]

@[simp] theorem netCntPut_course (p k : Nat) (v : Word) (s : State) : (netCntPut p k v s).course = s.course := by
  unfold netCntPut
  dsimp only
  split <;> simp

end Sys2Proof.Machine
end

