-- ==== Sys2Proof/Laws/Course/RegGrid.lean ====
section
/-! SUPPORT. The operations of Machine/RegGrid.lean keep the run state. -/

namespace Sys2Proof.Machine

@[simp] theorem setAla_course (f : Ala → Ala) (s : State) : (setAla f s).course = s.course := rfl

@[simp] theorem putPinCfg_course (p : Nat) (v : Word) (s : State) : (putPinCfg p v s).course = s.course := by
  simp [putPinCfg, setAla]

@[simp] theorem setTkx_course (f : Tkx → Tkx) (s : State) : (setTkx f s).course = s.course := rfl

@[simp] theorem putTrace_course (v : Word) (s : State) : (putTrace v s).course = s.course := rfl

@[simp] theorem setAln_course (f : Aln → Aln) (s : State) : (setAln f s).course = s.course := rfl

@[simp] theorem setDfc_course (f : Dfc → Dfc) (s : State) : (setDfc f s).course = s.course := rfl

@[simp] theorem setGe_course (f : Ge → Ge) (s : State) : (setGe f s).course = s.course := rfl

@[simp] theorem setLse_course (f : Lse → Lse) (s : State) : (setLse f s).course = s.course := rfl

@[simp] theorem setOsm_course (f : Osm → Osm) (s : State) : (setOsm f s).course = s.course := rfl

@[simp] theorem setSep_course (f : Sep → Sep) (s : State) : (setSep f s).course = s.course := rfl

end Sys2Proof.Machine
end

