-- ==== Sys2Proof/Laws/Course/Watch.lean ====
section
/-! SUPPORT. The operations of Machine/Watch.lean keep the run state. -/

namespace Sys2Proof.Machine

@[simp] theorem replayBudget_course (s : State) : (replayBudget s).course = s.course := by
  unfold replayBudget
  split <;> simp

end Sys2Proof.Machine
end

