-- ==== Sys2Proof/Laws/Course/RunTick.lean ====
section
/-! SUPPORT. The operations of Machine/RunTick.lean keep the run state. -/

namespace Sys2Proof.Machine

@[simp] theorem tickBoundary_course (s : State) : (tickBoundary s).course = s.course := by simp [tickBoundary]

end Sys2Proof.Machine
end

