-- ==== Sys2Proof/Laws/Calm/Faults.lean ====
section
/-! SUPPORT. The operations of Machine/Faults.lean keep SAFE. -/

namespace Sys2Proof.Machine

@[simp] theorem enterSafe_safe (s : State) (hs : s.course = ⟨.safe⟩) : (enterSafe s).course = ⟨.safe⟩ := by
  have hr := run_safe hs
  simp [enterSafe, hs, hr]

@[simp] theorem endFatal_safe (id : Nat) (s : State) (hs : s.course = ⟨.safe⟩) : (endFatal id s).course = ⟨.safe⟩ := by
  have hr := run_safe hs
  simp only [endFatal, hr]
  repeat' split
  all_goals simp [hs, hr]

@[simp] theorem mergeFault_safe (w : Win) (conseq : Bool) (dom : Nat) (cls : Nat) (s : State) (hs : s.course = ⟨.safe⟩) : (mergeFault w conseq dom cls s).course = ⟨.safe⟩ := by simp [mergeFault, hs]

@[simp] theorem react_safe (x : FaultIn) (r : FaultRec) (s : State) (hs : s.course = ⟨.safe⟩) : (react x r s).course = ⟨.safe⟩ := by simp [react, hs]

@[simp] theorem raiseFault_safe (x : FaultIn) (s : State) (hs : s.course = ⟨.safe⟩) : (raiseFault x s).course = ⟨.safe⟩ := by
  have hr := run_safe hs
  simp only [raiseFault, hr]
  repeat' split
  all_goals simp [hs, hr]

@[simp] theorem fltInject_safe (v : Word) (s : State) (hs : s.course = ⟨.safe⟩) : (fltInject v s).course = ⟨.safe⟩ := by simp [fltInject, hs]

end Sys2Proof.Machine
end

