-- ==== Sys2Proof/Laws/Calm/PairBase.lean ====
section
/-! SUPPORT. The operations of Machine/PairBase.lean keep SAFE. -/

namespace Sys2Proof.Machine

@[simp] theorem diverged_safe (s : State) (hs : s.course = ⟨.safe⟩) : (diverged s).course = ⟨.safe⟩ := by simp [diverged, hs]

@[simp] theorem meetDigests_safe (o : OwnDigest) (value : Nat) (skip : Bool) (suspect : Bool) (s : State) (hs : s.course = ⟨.safe⟩) : (meetDigests o value skip suspect s).course = ⟨.safe⟩ := by simp [meetDigests, hs]

@[simp] theorem tickDigest_safe (seq : Nat) (value : Nat) (skip : Bool) (suspect : Bool) (s : State) (hs : s.course = ⟨.safe⟩) : (tickDigest seq value skip suspect s).course = ⟨.safe⟩ := by
  have hr := run_safe hs
  simp only [tickDigest, hr]
  repeat' split
  all_goals simp [hs, hr]

@[simp] theorem identMeets_safe (set : Nat) (idSeq : Nat) (value : Nat) (mine : Bool) (s : State) (hs : s.course = ⟨.safe⟩) : (identMeets set idSeq value mine s).course = ⟨.safe⟩ := by
  have hr := run_safe hs
  simp only [identMeets, hr]
  repeat' split
  all_goals simp [hs, hr]

@[simp] theorem identDigest_safe (set : Nat) (us : List Unit512) (s : State) (hs : s.course = ⟨.safe⟩) : (identDigest set us s).course = ⟨.safe⟩ := by simp [identDigest, hs]

@[simp] theorem digestReceive_safe (m : DigestMsg) (s : State) (hs : s.course = ⟨.safe⟩) : (digestReceive m s).course = ⟨.safe⟩ := by
  unfold digestReceive
  repeat' split
  all_goals simp [hs]

end Sys2Proof.Machine
end

