-- ==== Sys2Proof/Laws/Calm/TickWork.lean ====
section
/-! SUPPORT. The operations of Machine/TickWork.lean keep SAFE. -/

namespace Sys2Proof.Machine

@[simp] theorem lseInvariant_safe (s : State) (hs : s.course = ⟨.safe⟩) : (lseInvariant s).course = ⟨.safe⟩ := by simp [lseInvariant, hs]

@[simp] theorem osmDigests_safe (k : Nat) (l : List (Nat × List Unit512)) (s : State) (h : s.course = ⟨.safe⟩) :
    (osmDigests k l s).course = ⟨.safe⟩ :=
  foldl_safe _ _ (fun _ _ => identDigest_safe _ _ _) h

@[simp] theorem osmWork_safe (t : Tick) (k : Nat) (s : State) (hs : s.course = ⟨.safe⟩) : (osmWork t k s).1.course = ⟨.safe⟩ := by
  unfold osmWork
  split <;> simp [hs]

@[simp] theorem osmDeferWork_safe (k : Nat) (s : State) (hs : s.course = ⟨.safe⟩) : (osmDeferWork k s).course = ⟨.safe⟩ := by
  have hr := run_safe hs
  simp only [osmDeferWork, hr]
  repeat' split
  all_goals simp [hs, hr]

end Sys2Proof.Machine
end

