-- ==== Sys2Proof/Laws/Calm/Tick.lean ====
section
/-! SUPPORT. The operations of Machine/Tick.lean keep SAFE. -/

namespace Sys2Proof.Machine

@[simp] theorem writeHeader_safe (done : Nat) (s : State) (hs : s.course = ⟨.safe⟩) : (writeHeader done s).course = ⟨.safe⟩ := by
  simp only [writeHeader]
  repeat' split
  all_goals simp [hs]

@[simp] theorem finishEmit_safe (s : State) (hs : s.course = ⟨.safe⟩) : (finishEmit s).course = ⟨.safe⟩ := by
  simp only [finishEmit]
  repeat' split
  all_goals simp [hs]

@[simp] theorem endPhase_safe (c : Cur) (s : State) (hs : s.course = ⟨.safe⟩) : (endPhase c s).course = ⟨.safe⟩ := by
  unfold endPhase
  split <;> simp [hs]

@[simp] theorem settleStep_safe (s : State) (hs : s.course = ⟨.safe⟩) : (settleStep s).course = ⟨.safe⟩ := by
  unfold settleStep
  split <;> simp [hs]

@[simp] theorem settleN_safe (x0 : Nat) (x1 : State) (hs : x1.course = ⟨.safe⟩) : (settleN x0 x1).course = ⟨.safe⟩ := by
  induction x0 generalizing x1 with
  | zero => exact hs
  | succ k ih => exact ih _ (settleStep_safe _ hs)

theorem inCur_safe (e : TEntry) (f : Cur → Tick → State → State) (s : State) (h : ∀ c t s, s.course = ⟨.safe⟩ → (f c t s).course = ⟨.safe⟩)
    (hs : s.course = ⟨.safe⟩) : (inCur e f s).course = ⟨.safe⟩ := by
  unfold inCur
  split
  · split
    · exact h _ _ _ hs
    · exact hs
  · exact hs

@[simp] theorem effect_safe (e : TEntry) (s : State) (hs : s.course = ⟨.safe⟩) : (effect e s).course = ⟨.safe⟩ := by
  unfold effect
  split
  all_goals (try exact inCur_safe _ _ _ (fun c t s h => by (try split) <;> simp [h]) hs)
  all_goals (repeat' split)
  all_goals simp [hs]

@[simp] theorem releaseN_safe (n : Nat) (s : State) (hs : s.course = ⟨.safe⟩) : (releaseN n s).course = ⟨.safe⟩ := by
  induction n generalizing s with
  | zero => exact hs
  | succ k ih =>
    simp only [releaseN]
    split
    · exact hs
    · apply ih
      split <;> simp [hs]

@[simp] theorem releaseAll_safe (s : State) (hs : s.course = ⟨.safe⟩) : (releaseAll s).course = ⟨.safe⟩ := by simp [releaseAll, hs]

@[simp] theorem maintWhenIdle_safe (s : State) (hs : s.course = ⟨.safe⟩) : (maintWhenIdle s).course = ⟨.safe⟩ := by
  have hr := run_safe hs
  simp [maintWhenIdle, hs, hr]

@[simp] theorem settle_safe (s : State) (hs : s.course = ⟨.safe⟩) : (settle s).course = ⟨.safe⟩ := by
  rw [settle, marksDue_course]
  exact maintWhenIdle_safe _ (settleN_safe _ _ (releaseAll_safe _ hs))

@[simp] theorem completeTask_safe (e : TEntry) (s : State) (hs : s.course = ⟨.safe⟩) : (completeTask e s).course = ⟨.safe⟩ := by
  unfold completeTask
  dsimp only
  split <;> simp [hs]

@[simp] theorem completeOnce_safe (e : TEntry) (s : State) (hs : s.course = ⟨.safe⟩) : (completeOnce e s).course = ⟨.safe⟩ := by
  unfold completeOnce
  dsimp only
  cases e.flow <;> simp [hs]

@[simp] theorem completeCur_safe (w : Work) (s : State) (hs : s.course = ⟨.safe⟩) : (completeCur w s).course = ⟨.safe⟩ := by
  unfold completeCur
  split <;> simp [hs]

@[simp] theorem analyzeComplete_safe (s : State) (hs : s.course = ⟨.safe⟩) : (analyzeComplete s).course = ⟨.safe⟩ := by
  simp [analyzeComplete, hs]

@[simp] theorem overrun_safe (s : State) (h : s.course = ⟨.safe⟩) : (overrun s).course = ⟨.safe⟩ := by
  simp only [overrun]
  split
  · exact h
  · split
    · simp [h]
    · split
      · rw [modTick_course, modCur_course]
        split <;> simp [h]
      · rw [dropCur_course]
        apply writeHeader_safe
        rw [ite_course, writeRecs_course, ite_self]
        apply raiseFault_safe
        rw [logEv_course, tkxEvent_course, traceTick_course, course_mk, course_eta, modTick_course, modCur_course]
        split <;> simp [h]

@[simp] theorem dfcComplete_safe (grp : Nat) (s : State) (hs : s.course = ⟨.safe⟩) : (dfcComplete grp s).course = ⟨.safe⟩ := by
  simp [dfcComplete, hs]

@[simp] theorem emitPortComplete_safe (p : Nat) (e : TEntry) (s : State) (hs : s.course = ⟨.safe⟩) :
    (emitPortComplete p e s).course = ⟨.safe⟩ := by
  unfold emitPortComplete
  repeat' split
  all_goals simp [hs]

@[simp] theorem emitComplete_safe (part : Option Nat) (s : State) (hs : s.course = ⟨.safe⟩) : (emitComplete part s).course = ⟨.safe⟩ := by
  unfold emitComplete
  repeat' split
  all_goals simp [hs]

@[simp] theorem projection_safe (s : State) (hs : s.course = ⟨.safe⟩) : (projection s).course = ⟨.safe⟩ := by
  unfold projection
  repeat' split
  all_goals simp [hs]

@[simp] theorem solveComplete_safe (bad : Bool) (s : State) (hs : s.course = ⟨.safe⟩) : (solveComplete bad s).course = ⟨.safe⟩ := by
  unfold solveComplete
  repeat' split
  all_goals simp [hs]

@[simp] theorem osmDeferComplete_safe (k : Nat) (s : State) (hs : s.course = ⟨.safe⟩) : (osmDeferComplete k s).course = ⟨.safe⟩ := by
  unfold osmDeferComplete
  split <;> simp [hs]

@[simp] theorem geAggTask_safe (s : State) (hs : s.course = ⟨.safe⟩) : (geAggTask s).course = ⟨.safe⟩ := by
  unfold geAggTask
  repeat' split
  all_goals simp [hs]

@[simp] theorem locComplete_safe (s : State) (hs : s.course = ⟨.safe⟩) : (locComplete s).course = ⟨.safe⟩ := by simp [locComplete, hs]

@[simp] theorem osmComplete_safe (k : Nat) (s : State) (hs : s.course = ⟨.safe⟩) : (osmComplete k s).course = ⟨.safe⟩ := by
  simp [osmComplete, hs]

@[simp] theorem resolveAComplete_safe (g : Nat) (bad : Bool) (s : State) (hs : s.course = ⟨.safe⟩) : (resolveAComplete g bad s).course = ⟨.safe⟩ := by
  unfold resolveAComplete
  repeat' split
  all_goals simp [hs]

@[simp] theorem resolveBComplete_safe (g : Nat) (s : State) (hs : s.course = ⟨.safe⟩) : (resolveBComplete g s).course = ⟨.safe⟩ := by
  unfold resolveBComplete
  split <;> simp [hs]

@[simp] theorem sepComplete_safe (s : State) (hs : s.course = ⟨.safe⟩) : (sepComplete s).course = ⟨.safe⟩ := by
  unfold sepComplete
  repeat' split
  all_goals simp [hs]

@[simp] theorem reap_safe (s : State) (hs : s.course = ⟨.safe⟩) : (reap s).course = ⟨.safe⟩ := by
  unfold reap
  dsimp only
  split
  · exact hs
  · exact settle_safe _ (foldl_safe _ _ (fun _ _ h => by simp [h]) hs)

@[simp] theorem endCycle_safe (s : State) (hs : s.course = ⟨.safe⟩) : (endCycle s).course = ⟨.safe⟩ := by simp [endCycle, hs]

@[simp] theorem elapse_safe (dt : Nat) (s : State) (hs : s.course = ⟨.safe⟩) : (elapse dt s).course = ⟨.safe⟩ := by
  unfold elapse
  rw [passTime_course]
  split <;> simp [hs]

end Sys2Proof.Machine
end

