-- ==== Sys2Proof/Laws/Calm/Commit.lean ====
section
/-! SUPPORT. The operations of Machine/Commit.lean keep SAFE. -/

namespace Sys2Proof.Machine

@[simp] theorem writeSkip_safe (w : SkipGroup) (s : State) (x : Nat × Nat) (hs : s.course = ⟨.safe⟩) : (writeSkip w s x).course = ⟨.safe⟩ := by simp [writeSkip, hs]

@[simp] theorem commitGroup_safe (w : SkipGroup) (a b : Nat) (s : State) (h : s.course = ⟨.safe⟩) : (commitGroup w a b s).course = ⟨.safe⟩ := by
  have ho := overrun_safe s h
  simp [commitGroup, run_safe ho, ho]

@[simp] theorem commitSkips_safe (x0 : Nat) (x1 : State) (hs : x1.course = ⟨.safe⟩) : (commitSkips x0 x1).course = ⟨.safe⟩ := by
  induction x0 generalizing x1 with
  | zero => exact hs
  | succ k ih =>
    unfold commitSkips
    split
    · exact hs
    · split
      · exact hs
      · refine ih _ ?_
        split
        · exact hs
        · exact commitGroup_safe _ _ _ _ hs

@[simp] theorem runSkips_safe (s : State) (hs : s.course = ⟨.safe⟩) : (runSkips s).course = ⟨.safe⟩ := by simp [runSkips, hs]

@[simp] theorem timeStepped_safe (was : Int) (s : State) (hs : s.course = ⟨.safe⟩) : (timeStepped was s).course = ⟨.safe⟩ := by simp [timeStepped, hs]

@[simp] theorem checkpointDeadline_safe (s : State) (hs : s.course = ⟨.safe⟩) : (checkpointDeadline s).course = ⟨.safe⟩ := by simp [checkpointDeadline, hs]

@[simp] theorem commitTick_safe (cause : Nat) (mark : Option CommitMark) (missing : Bool) (s : State) (h : s.course = ⟨.safe⟩) :
    (commitTick cause mark missing s).course = ⟨.safe⟩ := by
  have ho := overrun_safe s h
  unfold commitTick
  dsimp only
  rw [if_pos (by rw [run_safe ho]; decide)]
  exact ho

@[simp] theorem commitNext_safe (cause : Nat) (mark : Option CommitMark) (missing : Bool) (s : State) (hs : s.course = ⟨.safe⟩) : (commitNext cause mark missing s).course = ⟨.safe⟩ := by simp [commitNext, hs]

@[simp] theorem tickCommit_safe (s : State) (hs : s.course = ⟨.safe⟩) : (tickCommit s).course = ⟨.safe⟩ := by simp [tickCommit, hs]

end Sys2Proof.Machine
end

