-- ==== Sys2Proof/Laws/Calm/Start.lean ====
section
/-! SUPPORT. The operations of Machine/Start.lean keep SAFE. -/

namespace Sys2Proof.Machine

@[simp] theorem finishStart_safe (c : Ctx) (role : Nat) (s : State) (hs : s.course = ⟨.safe⟩) : (finishStart c role s).course = ⟨.safe⟩ := by
  have hr := run_safe hs
  simp [finishStart, hs, hr]

@[simp] theorem stepBy_safe (amt : Int) (s : State) (hs : s.course = ⟨.safe⟩) : (stepBy amt s).course = ⟨.safe⟩ := by simp [stepBy, hs]

@[simp] theorem startCmd_safe (c : Ctx) (s : State) (hs : s.course = ⟨.safe⟩) : (startCmd c s).course = ⟨.safe⟩ := by
  unfold startCmd
  split <;> simp [hs]

@[simp] theorem stepCmd_safe (c : Ctx) (p : BitVec 384) (s : State) (hs : s.course = ⟨.safe⟩) : (stepCmd c p s).course = ⟨.safe⟩ := by
  have hr := run_safe hs
  simp only [stepCmd, hr]
  repeat' split
  all_goals simp [hs, hr]

end Sys2Proof.Machine
end

