-- ==== Sys2Proof/Laws/Calm/PairCtl.lean ====
section
/-! SUPPORT. The operations of Machine/PairCtl.lean keep SAFE. -/

namespace Sys2Proof.Machine

@[simp] theorem answerStart_safe (c : Ctx) (h : PairHello) (s : State) (hs : s.course = ⟨.safe⟩) : (answerStart c h s).course = ⟨.safe⟩ := by
  unfold answerStart
  split <;> simp [hs]

@[simp] theorem applyMirror_safe (s : State) (c : MirrorCmd) (hs : s.course = ⟨.safe⟩) : (applyMirror s c).course = ⟨.safe⟩ := by
  have hr := run_safe hs
  unfold applyMirror
  repeat' split
  all_goals simp_all

@[simp] theorem osmUpdates_safe (t : Tick) (g : Nat) (s : State) (h : s.course = ⟨.safe⟩) : (osmUpdates t g s).course = ⟨.safe⟩ :=
  foldl_safe _ _ (fun b k => osmWork_safe t k b) h

@[simp] theorem silentWork_safe (t : Tick) (g : Nat) (s : State) (h : s.course = ⟨.safe⟩) : (silentWork t g s).course = ⟨.safe⟩ := by
  simp only [silentWork]
  repeat' split
  all_goals
    simp only [releaseTick_course, modTick_course, decideD2_course, locationTick_course]
    exact osmUpdates_safe _ _ _ (by simp [h])

@[simp] theorem silentTick_safe (s : State) (g : Nat) (h : s.course = ⟨.safe⟩) : (silentTick s g).course = ⟨.safe⟩ := by
  simp only [silentTick]
  repeat' split
  all_goals simp [h]

@[simp] theorem catchUp_safe (g : Nat) (s : State) (h : s.course = ⟨.safe⟩) : (catchUp g s).course = ⟨.safe⟩ := by
  simp only [catchUp]
  exact foldl_safe _ _ (fun _ _ => silentTick_safe _ _) (by simp [h])

@[simp] theorem useMark_safe (m : CommitMark) (s : State) (hs : s.course = ⟨.safe⟩) : (useMark m s).course = ⟨.safe⟩ := by simp [useMark, hs]

@[simp] theorem drainMirrorN_safe (x0 : Nat) (x1 : State) (hs : x1.course = ⟨.safe⟩) : (drainMirrorN x0 x1).course = ⟨.safe⟩ := by
  induction x0 generalizing x1 with
  | zero => exact hs
  | succ k ih =>
    unfold drainMirrorN
    split
    · exact hs
    · exact ih _ (applyMirror_safe _ _ hs)

@[simp] theorem drainMirrored_safe (s : State) (hs : s.course = ⟨.safe⟩) : (drainMirrored s).course = ⟨.safe⟩ := by simp [drainMirrored, hs]

@[simp] theorem drainMarksN_safe (x0 : Nat) (x1 : State) (hs : x1.course = ⟨.safe⟩) : (drainMarksN x0 x1).course = ⟨.safe⟩ := by
  induction x0 generalizing x1 with
  | zero => exact hs
  | succ k ih =>
    have h := drainMirrored_safe x1 hs
    unfold drainMarksN
    dsimp only
    split
    · exact h
    · split
      · exact h
      · exact ih _ (useMark_safe _ _ h)

@[simp] theorem drainMarks_safe (s : State) (hs : s.course = ⟨.safe⟩) : (drainMarks s).course = ⟨.safe⟩ := by simp [drainMarks, hs]

@[simp] theorem commitMarkReceive_safe (m : CommitMark) (s : State) (hs : s.course = ⟨.safe⟩) : (commitMarkReceive m s).course = ⟨.safe⟩ := by simp [commitMarkReceive, hs]

@[simp] theorem dualActive_safe (h : PairHello) (s : State) (hs : s.course = ⟨.safe⟩) : (dualActive h s).course = ⟨.safe⟩ := by simp [dualActive, hs]

@[simp] theorem markMissing_safe (s : State) (hs : s.course = ⟨.safe⟩) : (markMissing s).course = ⟨.safe⟩ := by simp [markMissing, hs]

@[simp] theorem mirrorReceive_safe (c : MirrorCmd) (s : State) (hs : s.course = ⟨.safe⟩) : (mirrorReceive c s).course = ⟨.safe⟩ := by simp [mirrorReceive, hs]

@[simp] theorem mirrorFail_safe (s : State) (hs : s.course = ⟨.safe⟩) : (mirrorFail s).course = ⟨.safe⟩ := by
  unfold mirrorFail
  split <;> simp [hs]

@[simp] theorem queryTimeout_safe (s : State) (hs : s.course = ⟨.safe⟩) : (queryTimeout s).course = ⟨.safe⟩ := by
  unfold queryTimeout
  split <;> simp [hs]

@[simp] theorem judgePeer_safe (was : Nat) (h : PairHello) (s : State) (hs : s.course = ⟨.safe⟩) : (judgePeer was h s).course = ⟨.safe⟩ := by simp [judgePeer, hs]

@[simp] theorem stateExchange_safe (h : PairHello) (s : State) (hs : s.course = ⟨.safe⟩) : (stateExchange h s).course = ⟨.safe⟩ := by
  have hr := run_safe hs
  simp only [stateExchange, hr]
  repeat' split
  all_goals simp [hs, hr]

@[simp] theorem snapshotReceive_safe (x : Snapshot) (s : State) (hs : s.course = ⟨.safe⟩) : (snapshotReceive x s).course = ⟨.safe⟩ := by
  unfold snapshotReceive
  repeat' split
  all_goals simp [hs]

@[simp] theorem yokeCrc_safe (s : State) (hs : s.course = ⟨.safe⟩) : (yokeCrc s).course = ⟨.safe⟩ := by simp [yokeCrc, hs]

@[simp] theorem yokeComesUp_safe (h : PairHello) (s : State) (hs : s.course = ⟨.safe⟩) : (yokeComesUp h s).course = ⟨.safe⟩ := by simp [yokeComesUp, hs]

end Sys2Proof.Machine
end

