-- ==== Sys2Proof/Laws/Calm/Commands.lean ====
section
/-! SUPPORT. The operations of Machine/Commands.lean keep SAFE. -/

namespace Sys2Proof.Machine

@[simp] theorem maintEnterNow_safe (c : Ctx) (s : State) (hs : s.course = ⟨.safe⟩) : (maintEnterNow c s).course = ⟨.safe⟩ := by simp [maintEnterNow, hs]

theorem plainDesc_safe (o : Opcode) (d : Desc) (run : Ctx → State → State) (s : State) (ho : o.states.contains .safe = false)
    (h : s.course = ⟨.safe⟩) : (plainDesc o d run s).course = ⟨.safe⟩ := by
  unfold plainDesc withDesc
  split
  · exact h
  · split
    · simp [h]
    · have ht := takeHead_course d o.code s
      generalize takeHead d o.code s = r at ht ⊢
      obtain ⟨c, t⟩ := r
      simp only [noteWaits_course]
      split
      · simp [ht, h]
      · simp [ht, h]
      · split
        · simp [ht, h]
        · rename_i hj
          have := judgeHead_states hj
          rw [run_safe (by simpa [ht] using h), ho] at this
          cases this

@[simp] theorem maintEnterCmd_safe (d : Desc) (s : State) (h : s.course = ⟨.safe⟩) : (maintEnterCmd d s).course = ⟨.safe⟩ := plainDesc_safe _ _ _ _ rfl h

@[simp] theorem maintExitCmd_safe (d : Desc) (s : State) (h : s.course = ⟨.safe⟩) : (maintExitCmd d s).course = ⟨.safe⟩ := plainDesc_safe _ _ _ _ rfl h

@[simp] theorem startDesc_safe (d : Desc) (s : State) (h : s.course = ⟨.safe⟩) : (startDesc d s).course = ⟨.safe⟩ := plainDesc_safe _ _ _ _ rfl h

@[simp] theorem stepDesc_safe (d : Desc) (s : State) (h : s.course = ⟨.safe⟩) : (stepDesc d s).course = ⟨.safe⟩ := plainDesc_safe _ _ _ _ rfl h

@[simp] theorem keyGenerateCmd_safe (d : Desc) (b : Bool) (s : State) (h : s.course = ⟨.safe⟩) : (keyGenerateCmd d b s).course = ⟨.safe⟩ :=
  plainDesc_safe _ _ _ _ rfl h

@[simp] theorem keyRollCmd_safe (d : Desc) (blob : Option (List Byte)) (b : Bool) (s : State) (h : s.course = ⟨.safe⟩) :
    (keyRollCmd d blob b s).course = ⟨.safe⟩ := plainDesc_safe _ _ _ _ rfl h

@[simp] theorem unconfigureCmd_safe (d : Desc) (s : State) (h : s.course = ⟨.safe⟩) : (unconfigureCmd d s).course = ⟨.safe⟩ := plainDesc_safe _ _ _ _ rfl h

end Sys2Proof.Machine
end

