-- ==== Sys2Proof/Laws/Calm/Registers.lean ====
section
/-! SUPPORT. The operations of Machine/Registers.lean keep SAFE. -/

namespace Sys2Proof.Machine

@[simp] theorem takeLatches_safe (a : Nat) (s : State) (hs : s.course = ⟨.safe⟩) : (takeLatches a s).course = ⟨.safe⟩ := by simp [takeLatches, hs]

/-- A register whose accesses keep SAFE. -/
def Reg.Calm (r : Reg) : Prop :=
  (∀ k v s, s.course = ⟨.safe⟩ → (r.put k v s).course = ⟨.safe⟩) ∧ ∀ f, r.act = some f → ∀ k s, s.course = ⟨.safe⟩ → (f k s).course = ⟨.safe⟩

@[simp] theorem every_calm (r : Reg) (a n : Nat) : (r.every a n).Calm ↔ r.Calm := Iff.rfl

@[simp] theorem roReg_calm (b n : Nat) (g : State → Nat → Word) : (roReg b n g).Calm := by simp [Reg.Calm, roReg]

@[simp] theorem rwReg_calm (b n : Nat) (g : State → Nat → Word) (p : Nat → Word → State → State) :
    (rwReg b n g p).Calm ↔ ∀ k v s, s.course = ⟨.safe⟩ → (p k v s).course = ⟨.safe⟩ := by simp [Reg.Calm, rwReg]

@[simp] theorem rwlReg_calm (b n : Nat) (g : State → Nat → Word) (p : Nat → Word → State → State) :
    (rwlReg b n g p).Calm ↔ ∀ k v s, s.course = ⟨.safe⟩ → (p k v s).course = ⟨.safe⟩ := by simp [Reg.Calm, rwlReg]

@[simp] theorem w1cReg_calm (b : Nat) (g : State → Word) (p : Word → State → State) :
    (w1cReg b g p).Calm ↔ Nat → ∀ (v : Word) (s : State), s.course = ⟨.safe⟩ → (p (g s &&& ~~~v) s).course = ⟨.safe⟩ := by
  simp [Reg.Calm, w1cReg]

@[simp] theorem rcReg_calm (b n : Nat) (g : State → Nat → Word) (p : Nat → Word → State → State) :
    (rcReg b n g p).Calm ↔ ∀ k v s, s.course = ⟨.safe⟩ → (p k v s).course = ⟨.safe⟩ := by simp [Reg.Calm, rcReg]

@[simp] theorem rcMaxReg_calm (b n : Nat) (g : State → Nat → Word) (p : Nat → Word → State → State) :
    (rcMaxReg b n g p).Calm ↔ ∀ k v s, s.course = ⟨.safe⟩ → (p k v s).course = ⟨.safe⟩ := by simp [Reg.Calm, rcMaxReg, rcReg]

@[simp] theorem woReg_calm (b n : Nat) (p : Nat → Word → State → State) : (woReg b n p).Calm ↔ ∀ k v s, s.course = ⟨.safe⟩ → (p k v s).course = ⟨.safe⟩ := by
  simp [Reg.Calm, woReg]

@[simp] theorem mixReg_calm (b n : Nat) (g : State → Nat → Word) (p : Nat → Word → State → State) :
    (mixReg b n g p).Calm ↔ ∀ k v s, s.course = ⟨.safe⟩ → (p k v s).course = ⟨.safe⟩ := by simp [Reg.Calm, mixReg]

@[simp] theorem actReg_calm (b n : Nat) (g : State → Nat → Word) (a : Nat → State → State) (p : Nat → Word → State → State) :
    (actReg b n g a p).Calm ↔ (∀ k v s, s.course = ⟨.safe⟩ → (p k v s).course = ⟨.safe⟩) ∧ ∀ k s, s.course = ⟨.safe⟩ → (a k s).course = ⟨.safe⟩ := by
  constructor
  · exact fun h => ⟨h.1, h.2 a rfl⟩
  · exact fun h => ⟨h.1, fun f e => by cases e; exact h.2⟩

theorem sysRegs_calm : ∀ r ∈ sysRegs, r.Calm := by
  simp [sysRegs]

theorem hifRegs_calm : ∀ r ∈ hifRegs, r.Calm := by
  simp [hifRegs, setHif]

theorem fltRegs_calm : ∀ r ∈ fltRegs, r.Calm := by
  simp only [fltRegs, List.forall_mem_append, List.forall_mem_map]
  simp +contextual

theorem logRegs_calm : ∀ r ∈ logRegs, r.Calm := by
  simp [logRegs]

theorem kstRegs_calm : ∀ r ∈ kstRegs, r.Calm := by
  simp [kstRegs, setKst]

theorem mbxRegs_calm : ∀ r ∈ mbxRegs, r.Calm := by
  simp [mbxRegs, setMbx]

theorem pairRegs_calm : ∀ r ∈ pairRegs, r.Calm := by
  simp [pairRegs]

theorem domRegs_calm (o : Nat) (x : DomId) : ∀ r ∈ domRegs o x, r.Calm := by
  simp [domRegs]

theorem tbuRegs_calm : ∀ r ∈ tbuRegs, r.Calm := by
  intro r h
  simp only [tbuRegs, List.mem_append] at h
  rcases h with ((h | h) | h) | h
  · revert r
    simp [setTbu]
  · exact domRegs_calm _ _ r h
  · exact domRegs_calm _ _ r h
  · revert r
    simp [setTbu]

theorem netRegs_calm : ∀ r ∈ netRegs, r.Calm := by
  simp only [netRegs, List.forall_mem_append, List.forall_mem_map]
  simp [setNet]

theorem ingRegs_calm : ∀ r ∈ ingRegs, r.Calm := by
  simp [ingRegs, setIng]

theorem alnRegs_calm : ∀ r ∈ alnRegs, r.Calm := by
  simp [alnRegs]

theorem dfcRegs_calm : ∀ r ∈ dfcRegs, r.Calm := by
  simp [dfcRegs]

theorem lseRegs_calm : ∀ r ∈ lseRegs, r.Calm := by
  simp [lseRegs]

theorem osmRegs_calm : ∀ r ∈ osmRegs, r.Calm := by
  simp [osmRegs]

theorem sepRegs_calm : ∀ r ∈ sepRegs, r.Calm := by
  simp [sepRegs, setAla]

theorem tkxRegs_calm : ∀ r ∈ tkxRegs, r.Calm := by
  simp [tkxRegs]

theorem blockRegs_calm (b : Nat) : ∀ r ∈ blockRegs b, r.Calm := by
  unfold blockRegs
  split
  · exact sysRegs_calm
  · exact hifRegs_calm
  · exact tbuRegs_calm
  · exact netRegs_calm
  · exact ingRegs_calm
  · exact alnRegs_calm
  · exact dfcRegs_calm
  · exact lseRegs_calm
  · exact osmRegs_calm
  · exact sepRegs_calm
  · exact tkxRegs_calm
  · exact fltRegs_calm
  · exact logRegs_calm
  · exact kstRegs_calm
  · exact mbxRegs_calm
  · exact pairRegs_calm
  · simp

theorem regAt_calm {a : Nat} {x : Reg × Nat} (h : regAt a = some x) : x.1.Calm := by
  unfold regAt at h
  split at h
  · cases h
  · obtain ⟨r, hr, hx⟩ := List.exists_of_findSome?_eq_some h
    obtain ⟨k, -, rfl⟩ := Option.map_eq_some_iff.mp hx
    exact blockRegs_calm _ r hr

theorem readClear_safe {r : Reg} (h : r.Calm) (k : Nat) (s : State) (hs : s.course = ⟨.safe⟩) : (readClear r k s).course = ⟨.safe⟩ := by
  unfold readClear
  rw [onPrior_course]
  exact h.1 _ _ _ hs

theorem writeW1c_safe {r : Reg} (h : r.Calm) (k : Nat) (v : Word) (s : State) (hs : s.course = ⟨.safe⟩) :
    (writeW1c r k v s).course = ⟨.safe⟩ := by
  unfold writeW1c
  rw [onPrior_course]
  exact h.1 _ _ _ hs

@[simp] theorem readOpen_safe (a : Nat) (s : State) (hs : s.course = ⟨.safe⟩) : (readOpen a s).course = ⟨.safe⟩ := by
  have hq : ∀ x, regAt a = some x → x.1.Calm := fun x h => regAt_calm h
  unfold readOpen
  generalize regAt a = q at hq ⊢
  cases q with
  | none => exact hs
  | some x =>
    obtain ⟨r, k⟩ := x
    have h := hq _ rfl
    dsimp only
    split
    · simp [hs]
    · split
      · rename_i f hf
        exact h.2 f hf k s hs
      · split
        · exact readClear_safe h _ _ (by simp [hs])
        · simp [hs]

@[simp] theorem barRead_safe (a : Nat) (s : State) (hs : s.course = ⟨.safe⟩) : (barRead a s).course = ⟨.safe⟩ := by simp [barRead, hs]

@[simp] theorem writeOpen_safe (a : Nat) (v : Word) (s : State) (hs : s.course = ⟨.safe⟩) : (writeOpen a v s).course = ⟨.safe⟩ := by
  have hq : ∀ x, regAt a = some x → x.1.Calm := fun x h => regAt_calm h
  unfold writeOpen
  generalize regAt a = q at hq ⊢
  cases q with
  | none => exact hs
  | some x =>
    have h := hq _ rfl
    dsimp only
    repeat' split
    all_goals first | exact hs | exact h.1 _ _ _ hs

@[simp] theorem barWrite_safe (a : Nat) (v : Word) (s : State) (hs : s.course = ⟨.safe⟩) : (barWrite a v s).course = ⟨.safe⟩ := by simp [barWrite, hs]

@[simp] theorem hostWrite_safe (a : Access) (v : Dword) (s : State) (hs : s.course = ⟨.safe⟩) : (hostWrite a v s).course = ⟨.safe⟩ := by
  simp [hostWrite, hs]

@[simp] theorem hostRead_safe (bar2 : Bool) (a : Access) (s : State) (hs : s.course = ⟨.safe⟩) : (hostRead bar2 a s).course = ⟨.safe⟩ := by
  unfold hostRead
  repeat' split
  all_goals simp [hs]

end Sys2Proof.Machine
end

