-- ==== Sys2Proof/Laws/Calm/Watch.lean ====
section
/-! SUPPORT. The operations of Machine/Watch.lean keep SAFE. -/

namespace Sys2Proof.Machine

@[simp] theorem clockWindow_safe (s : State) (hs : s.course = ⟨.safe⟩) : (clockWindow s).course = ⟨.safe⟩ := by simp [clockWindow, hs]

@[simp] theorem commitWatch_safe (s : State) (hs : s.course = ⟨.safe⟩) : (commitWatch s).course = ⟨.safe⟩ := by simp [commitWatch, hs]

@[simp] theorem readback_safe (k : Nat) (level : Bool) (s : State) (hs : s.course = ⟨.safe⟩) : (readback k level s).course = ⟨.safe⟩ := by
  unfold readback
  split <;> simp [hs]

@[simp] theorem fwWatch_safe (core : Nat) (s : State) (hs : s.course = ⟨.safe⟩) : (fwWatch core s).course = ⟨.safe⟩ := by simp [fwWatch, hs]

@[simp] theorem toggleLost_safe (who : Nat) (s : State) (hs : s.course = ⟨.safe⟩) : (toggleLost who s).course = ⟨.safe⟩ := by simp [toggleLost, hs]

theorem eccServed_safe (r : Option (Nat × Pkt) × State) (h : r.2.course = ⟨.safe⟩) : (eccServed r).course = ⟨.safe⟩ := by
  rcases r with ⟨_ | ⟨n, p⟩, t⟩
  · exact h
  · rw [eccServed]
    exact raiseFault_safe _ _ h

@[simp] theorem packetPlace_safe (ecc : Bool) (s : State) (h : s.course = ⟨.safe⟩) : (packetPlace ecc s).course = ⟨.safe⟩ := by
  unfold packetPlace
  split
  · split
    · exact h
    · split
      · rw [noteQuorum_course, replayStep_course, h]
      · exact h
  · split
    · rw [noteQuorum_course, replayStep_course, h]
    · split
      · exact eccServed_safe _ (by rw [serveFifo_course, advanceFront_course, h])
      · rw [placeNext_course, h]

@[simp] theorem phaseWatch_safe (s : State) (hs : s.course = ⟨.safe⟩) : (phaseWatch s).course = ⟨.safe⟩ := by
  unfold phaseWatch
  split <;> simp [hs]

@[simp] theorem scrubPass_safe (l : List FaultIn) (s : State) (h : s.course = ⟨.safe⟩) : (scrubPass l s).course = ⟨.safe⟩ :=
  foldl_safe _ _ (fun b x => raiseFault_safe x b) h

@[simp] theorem selfTest_safe (comparators : Bool) (heartbeats : Bool) (s : State) (hs : s.course = ⟨.safe⟩) : (selfTest comparators heartbeats s).course = ⟨.safe⟩ := by simp [selfTest, hs]

end Sys2Proof.Machine
end

