-- ==== Sys2Proof/Laws/Fixed/Boot.lean ====
section
/-! SUPPORT. The operations of Machine/Boot.lean keep power, READY, INIT, array sizes and life-cycle records. -/

namespace Sys2Proof.Machine

@[simp] theorem drawRoot_fixed (s : State) : (drawRoot s).fixed = s.fixed := by simp [drawRoot]

@[simp] theorem finishCut_fixed (s : State) : (finishCut s).fixed = s.fixed := by simp [finishCut]

@[simp] theorem tornSlot_fixed (s : State) (k : Nat) : (tornSlot s k).fixed = s.fixed := by simp [tornSlot]

@[simp] theorem restartRtc_fixed (s : State) : (restartRtc s).fixed = s.fixed := by simp [restartRtc]

@[simp] theorem retentionLost_fixed (s : State) : (retentionLost s).fixed = s.fixed := by simp [retentionLost]

@[simp] theorem drawShare_fixed (s : State) : (drawShare s).fixed = s.fixed := by simp [drawShare]

@[simp] theorem bootKeys_fixed (s : State) : (bootKeys s).fixed = s.fixed := by simp [bootKeys]

@[simp] theorem scanLog_fixed (s : State) : (scanLog s).fixed = s.fixed := rfl

@[simp] theorem loadOffsets_fixed (s : State) : (loadOffsets s).fixed = s.fixed := rfl

@[simp] theorem bootRecord_fixed (src : Source) (prev : Nat) (bank : Nat) (svn : Nat) (s : State) : (bootRecord src prev bank svn s).fixed = s.fixed := by simp [bootRecord]

@[simp] theorem tempUpdate_fixed (vin : Nat) (temp : Int) (s : State) : (tempUpdate vin temp s).fixed = s.fixed := by simp [tempUpdate]

end Sys2Proof.Machine
end

