-- ==== Sys2Proof/Laws/Fixed/RegBase.lean ====
section
/-! SUPPORT. The operations of Machine/RegBase.lean keep power, READY, INIT, array sizes and life-cycle records. -/

namespace Sys2Proof.Machine

@[simp] theorem noPut_fixed (k : Nat) (v : Word) (s : State) : (noPut k v s).fixed = s.fixed := rfl

/-- A register whose accesses keep what is fixed. -/
def Reg.Quiet (r : Reg) : Prop :=
  (∀ k v s, (r.put k v s).fixed = s.fixed) ∧ ∀ f, r.act = some f → ∀ k s, (f k s).fixed = s.fixed

@[simp] theorem every_quiet (r : Reg) (a n : Nat) : (r.every a n).Quiet ↔ r.Quiet := Iff.rfl

@[simp] theorem roReg_quiet (b n : Nat) (g : State → Nat → Word) : (roReg b n g).Quiet := by simp [Reg.Quiet, roReg]

@[simp] theorem rwReg_quiet (b n : Nat) (g : State → Nat → Word) (p : Nat → Word → State → State) :
    (rwReg b n g p).Quiet ↔ ∀ k v s, (p k v s).fixed = s.fixed := by simp [Reg.Quiet, rwReg]

@[simp] theorem rwlReg_quiet (b n : Nat) (g : State → Nat → Word) (p : Nat → Word → State → State) :
    (rwlReg b n g p).Quiet ↔ ∀ k v s, (p k v s).fixed = s.fixed := by simp [Reg.Quiet, rwlReg]

@[simp] theorem w1cReg_quiet (b : Nat) (g : State → Word) (p : Word → State → State) :
    (w1cReg b g p).Quiet ↔ Nat → ∀ (v : Word) (s : State), (p (g s &&& ~~~v) s).fixed = s.fixed := by
  simp [Reg.Quiet, w1cReg]

@[simp] theorem rcReg_quiet (b n : Nat) (g : State → Nat → Word) (p : Nat → Word → State → State) :
    (rcReg b n g p).Quiet ↔ ∀ k v s, (p k v s).fixed = s.fixed := by simp [Reg.Quiet, rcReg]

@[simp] theorem rcMaxReg_quiet (b n : Nat) (g : State → Nat → Word) (p : Nat → Word → State → State) :
    (rcMaxReg b n g p).Quiet ↔ ∀ k v s, (p k v s).fixed = s.fixed := by simp [Reg.Quiet, rcMaxReg, rcReg]

@[simp] theorem woReg_quiet (b n : Nat) (p : Nat → Word → State → State) : (woReg b n p).Quiet ↔ ∀ k v s, (p k v s).fixed = s.fixed := by
  simp [Reg.Quiet, woReg]

@[simp] theorem mixReg_quiet (b n : Nat) (g : State → Nat → Word) (p : Nat → Word → State → State) :
    (mixReg b n g p).Quiet ↔ ∀ k v s, (p k v s).fixed = s.fixed := by simp [Reg.Quiet, mixReg]

@[simp] theorem actReg_quiet (b n : Nat) (g : State → Nat → Word) (a : Nat → State → State) (p : Nat → Word → State → State) :
    (actReg b n g a p).Quiet ↔ (∀ k v s, (p k v s).fixed = s.fixed) ∧ ∀ k s, (a k s).fixed = s.fixed := by
  constructor
  · exact fun h => ⟨h.1, h.2 a rfl⟩
  · exact fun h => ⟨h.1, fun f e => by cases e; exact h.2⟩

end Sys2Proof.Machine
end

