-- ==== Sys2Proof/Laws/Fixed/RegHost.lean ====
section
/-! SUPPORT. The operations of Machine/RegHost.lean keep power, READY, INIT, array sizes and life-cycle records. -/

namespace Sys2Proof.Machine

@[simp] theorem putBase_fixed (hi : Bool) (n : Nat) (v : Word) (s : State) : (putBase hi n v s).fixed = s.fixed := by simp [putBase]

@[simp] theorem putFaultn_fixed (v : Word) (s : State) : (putFaultn v s).fixed = s.fixed := by simp [putFaultn]

@[simp] theorem setFlt_fixed (f : Flt → Flt) (s : State) : (setFlt f s).fixed = s.fixed := rfl

@[simp] theorem putFltCtrl_fixed (v : Word) (s : State) : (putFltCtrl v s).fixed = s.fixed := by simp [putFltCtrl]

@[simp] theorem putGuarantee_fixed (v : Word) (s : State) : (putGuarantee v s).fixed = s.fixed := rfl

@[simp] theorem setPairR_fixed (f : Pair → Pair) (s : State) : (setPairR f s).fixed = s.fixed := rfl

@[simp] theorem putPairCfg_fixed (v : Word) (s : State) : (putPairCfg v s).fixed = s.fixed := rfl

@[simp] theorem setLog_fixed (f : Log → Log) (s : State) : (setLog f s).fixed = s.fixed := rfl

@[simp] theorem readLogQueue_fixed (s : State) : (readLogQueue s).fixed = s.fixed := rfl

theorem sysRegs_quiet : ∀ r ∈ sysRegs, r.Quiet := by
  simp [sysRegs]

theorem hifRegs_quiet : ∀ r ∈ hifRegs, r.Quiet := by
  simp [hifRegs, setHif]

theorem fltRegs_quiet : ∀ r ∈ fltRegs, r.Quiet := by
  simp only [fltRegs, List.forall_mem_append, List.forall_mem_map, List.forall_mem_flatMap]
  simp 

theorem logRegs_quiet : ∀ r ∈ logRegs, r.Quiet := by
  simp [logRegs]

theorem kstRegs_quiet : ∀ r ∈ kstRegs, r.Quiet := by
  simp [kstRegs, setKst]

theorem mbxRegs_quiet : ∀ r ∈ mbxRegs, r.Quiet := by
  simp [mbxRegs, setMbx]

theorem pairRegs_quiet : ∀ r ∈ pairRegs, r.Quiet := by
  simp [pairRegs]

end Sys2Proof.Machine
end

