-- ==== Sys2Proof/Laws/Fixed/RegNet.lean ====
section
/-! SUPPORT. The operations of Machine/RegNet.lean keep power, READY, INIT, array sizes and life-cycle records. -/

namespace Sys2Proof.Machine

@[simp] theorem setTbu_fixed (f : Tbu → Tbu) (s : State) : (setTbu f s).fixed = State.fixed { s with tbu := f s.tbu } := rfl

@[simp] theorem putPps_fixed (v : Word) (s : State) : (putPps v s).fixed = s.fixed := by
  simp only [putPps]
  repeat' split
  all_goals simp

@[simp] theorem putDcfg_fixed (x : DomId) (v : Word) (s : State) : (putDcfg x v s).fixed = s.fixed := by simp [putDcfg]

@[simp] theorem putTcCfg_fixed (v : Word) (s : State) : (putTcCfg v s).fixed = s.fixed := by simp [putTcCfg]

@[simp] theorem putPcfg_fixed (p : Nat) (v : Word) (s : State) : (putPcfg p v s).fixed = s.fixed := by simp [putPcfg]

@[simp] theorem putMac_fixed (hi : Bool) (p : Nat) (v : Word) (s : State) : (putMac hi p v s).fixed = s.fixed := by simp [putMac]

@[simp] theorem putPreempt_fixed (p : Nat) (v : Word) (s : State) : (putPreempt p v s).fixed = s.fixed := by simp [putPreempt]

@[simp] theorem putLpi_fixed (p : Nat) (v : Word) (s : State) : (putLpi p v s).fixed = s.fixed := by simp [putLpi]

@[simp] theorem putWm_fixed (v : Word) (s : State) : (putWm v s).fixed = s.fixed := by
  unfold putWm
  dsimp only
  split <;> simp [setIng]

theorem domRegs_quiet (o : Nat) (x : DomId) : ∀ r ∈ domRegs o x, r.Quiet := by
  simp [domRegs]

theorem tbuRegs_quiet : ∀ r ∈ tbuRegs, r.Quiet := by
  intro r h
  simp only [tbuRegs, List.mem_append] at h
  rcases h with ((h | h) | h) | h
  · revert r
    simp [setTbu]
  · exact domRegs_quiet _ _ r h
  · exact domRegs_quiet _ _ r h
  · revert r
    simp [setTbu]

@[simp] theorem netCntPut_fixed (p k : Nat) (v : Word) (s : State) : (netCntPut p k v s).fixed = s.fixed := by
  unfold netCntPut
  dsimp only
  split <;> simp

theorem netRegs_quiet : ∀ r ∈ netRegs, r.Quiet := by
  simp only [netRegs, List.forall_mem_append, List.forall_mem_map]
  simp [setNet]

theorem ingRegs_quiet : ∀ r ∈ ingRegs, r.Quiet := by
  simp [ingRegs, setIng]

end Sys2Proof.Machine
end

