-- ==== Sys2Proof/Laws/Fixed/RegGrid.lean ====
section
/-! SUPPORT. The operations of Machine/RegGrid.lean keep power, READY, INIT, array sizes and life-cycle records. -/

namespace Sys2Proof.Machine

@[simp] theorem putPinCfg_fixed (p : Nat) (v : Word) (s : State) : (putPinCfg p v s).fixed = s.fixed := by
  simp [putPinCfg, setAla]

@[simp] theorem setTkx_fixed (f : Tkx → Tkx) (s : State) : (setTkx f s).fixed = s.fixed := rfl

@[simp] theorem putTrace_fixed (v : Word) (s : State) : (putTrace v s).fixed = s.fixed := rfl

@[simp] theorem setAln_fixed (f : Aln → Aln) (s : State) : (setAln f s).fixed = s.fixed := rfl

@[simp] theorem setDfc_fixed (f : Dfc → Dfc) (s : State) : (setDfc f s).fixed = s.fixed := rfl

@[simp] theorem setGe_fixed (f : Ge → Ge) (s : State) : (setGe f s).fixed = s.fixed := rfl

@[simp] theorem setLse_fixed (f : Lse → Lse) (s : State) : (setLse f s).fixed = s.fixed := rfl

@[simp] theorem setOsm_fixed (f : Osm → Osm) (s : State) : (setOsm f s).fixed = s.fixed := rfl

@[simp] theorem setSep_fixed (f : Sep → Sep) (s : State) : (setSep f s).fixed = s.fixed := rfl

theorem alnRegs_quiet : ∀ r ∈ alnRegs, r.Quiet := by
  simp [alnRegs]

theorem dfcRegs_quiet : ∀ r ∈ dfcRegs, r.Quiet := by
  simp [dfcRegs]

theorem lseRegs_quiet : ∀ r ∈ lseRegs, r.Quiet := by
  simp [lseRegs]

theorem osmRegs_quiet : ∀ r ∈ osmRegs, r.Quiet := by
  simp [osmRegs]

theorem sepRegs_quiet : ∀ r ∈ sepRegs, r.Quiet := by
  simp [sepRegs, setAla]

theorem tkxRegs_quiet : ∀ r ∈ tkxRegs, r.Quiet := by
  simp [tkxRegs]

end Sys2Proof.Machine
end

