-- ==== Sys2Proof/Laws/Fixed/Registers.lean ====
section
/-! SUPPORT. The operations of Machine/Registers.lean keep power, READY, INIT, array sizes and life-cycle records. -/

namespace Sys2Proof.Machine

@[simp] theorem takeLatches_fixed (a : Nat) (s : State) : (takeLatches a s).fixed = s.fixed := rfl

theorem blockRegs_quiet (b : Nat) : ∀ r ∈ blockRegs b, r.Quiet := by
  unfold blockRegs
  split
  · exact sysRegs_quiet
  · exact hifRegs_quiet
  · exact tbuRegs_quiet
  · exact netRegs_quiet
  · exact ingRegs_quiet
  · exact alnRegs_quiet
  · exact dfcRegs_quiet
  · exact lseRegs_quiet
  · exact osmRegs_quiet
  · exact sepRegs_quiet
  · exact tkxRegs_quiet
  · exact fltRegs_quiet
  · exact logRegs_quiet
  · exact kstRegs_quiet
  · exact mbxRegs_quiet
  · exact pairRegs_quiet
  · simp

theorem regAt_quiet {a : Nat} {x : Reg × Nat} (h : regAt a = some x) : x.1.Quiet := by
  unfold regAt at h
  split at h
  · cases h
  · obtain ⟨r, hr, hx⟩ := List.exists_of_findSome?_eq_some h
    obtain ⟨k, -, rfl⟩ := Option.map_eq_some_iff.mp hx
    exact blockRegs_quiet _ r hr

theorem readClear_fixed {r : Reg} (h : r.Quiet) (k : Nat) (s : State) : (readClear r k s).fixed = s.fixed := by
  unfold readClear
  rw [onPrior_fixed, h.1]
  rfl

theorem writeW1c_fixed {r : Reg} (h : r.Quiet) (k : Nat) (v : Word) (s : State) : (writeW1c r k v s).fixed = s.fixed := by
  unfold writeW1c
  rw [onPrior_fixed, h.1]

@[simp] theorem readOpen_fixed (a : Nat) (s : State) : (readOpen a s).fixed = s.fixed := by
  have hq : ∀ x, regAt a = some x → x.1.Quiet := fun x h => regAt_quiet h
  unfold readOpen
  generalize regAt a = q at hq ⊢
  cases q with
  | none => rfl
  | some x =>
    obtain ⟨r, k⟩ := x
    have h := hq _ rfl
    dsimp only
    split
    · simp
    · split
      · rename_i f hf
        exact h.2 f hf k s
      · split
        · rw [readClear_fixed h, takeLatches_fixed]
        · simp

@[simp] theorem barRead_fixed (a : Nat) (s : State) : (barRead a s).fixed = s.fixed := by simp [barRead]

@[simp] theorem writeOpen_fixed (a : Nat) (v : Word) (s : State) : (writeOpen a v s).fixed = s.fixed := by
  have hq : ∀ x, regAt a = some x → x.1.Quiet := fun x h => regAt_quiet h
  unfold writeOpen
  generalize regAt a = q at hq ⊢
  cases q with
  | none => rfl
  | some x =>
    have h := hq _ rfl
    dsimp only
    repeat' split
    all_goals first | rfl | exact h.1 ..

@[simp] theorem barWrite_fixed (a : Nat) (v : Word) (s : State) : (barWrite a v s).fixed = s.fixed := by simp [barWrite]

@[simp] theorem hostWrite_fixed (a : Access) (v : Dword) (s : State) : (hostWrite a v s).fixed = s.fixed := by simp [hostWrite]

@[simp] theorem hostRead_fixed (bar2 : Bool) (a : Access) (s : State) : (hostRead bar2 a s).fixed = s.fixed := by
  unfold hostRead
  repeat' split
  all_goals simp

end Sys2Proof.Machine
end

