-- ==== Sys2Proof/Laws/Fixed/Watch.lean ====
section
/-! SUPPORT. The operations of Machine/Watch.lean keep power, READY, INIT, array sizes and life-cycle records. -/

namespace Sys2Proof.Machine

@[simp] theorem clockWindow_fixed (s : State) : (clockWindow s).fixed = s.fixed := by simp [clockWindow]

@[simp] theorem commitWatch_fixed (s : State) : (commitWatch s).fixed = s.fixed := by simp [commitWatch]

@[simp] theorem readback_fixed (k : Nat) (level : Bool) (s : State) : (readback k level s).fixed = s.fixed := by
  unfold readback
  split <;> simp

@[simp] theorem fwWatch_fixed (core : Nat) (s : State) : (fwWatch core s).fixed = s.fixed := by simp [fwWatch]

@[simp] theorem toggleLost_fixed (who : Nat) (s : State) : (toggleLost who s).fixed = s.fixed := by simp [toggleLost]

theorem eccServed_fixed (r : Option (Nat × Pkt) × State) : (eccServed r).fixed = r.2.fixed := by
  rcases r with ⟨_ | ⟨n, p⟩, t⟩
  · rfl
  · rw [eccServed, raiseFault_fixed, fixed_mk, fixed_eta]

@[simp] theorem packetPlace_fixed (ecc : Bool) (s : State) : (packetPlace ecc s).fixed = s.fixed := by
  unfold packetPlace
  split
  · split
    · rfl
    · split
      · rw [noteQuorum_fixed, replayStep_fixed]
      · rfl
  · split
    · rw [noteQuorum_fixed, replayStep_fixed]
    · split
      · rw [eccServed_fixed, serveFifo_fixed, advanceFront_fixed]
      · rw [placeNext_fixed]

@[simp] theorem phaseWatch_fixed (s : State) : (phaseWatch s).fixed = s.fixed := by
  unfold phaseWatch
  split <;> simp

@[simp] theorem replayBudget_fixed (s : State) : (replayBudget s).fixed = s.fixed := by
  unfold replayBudget
  split <;> simp

@[simp] theorem scrubPass_fixed (l : List FaultIn) (s : State) : (scrubPass l s).fixed = s.fixed := by simp [scrubPass]

@[simp] theorem selfTest_fixed (comparators : Bool) (heartbeats : Bool) (s : State) : (selfTest comparators heartbeats s).fixed = s.fixed := by simp [selfTest]

end Sys2Proof.Machine
end

