-- ==== Sys2Proof/Laws/Fixed/RunTick.lean ====
section
/-! SUPPORT. The operations of Machine/RunTick.lean keep power, READY, INIT, array sizes and life-cycle records. -/

namespace Sys2Proof.Machine

@[simp] theorem tickBoundary_fixed (s : State) : (tickBoundary s).fixed = s.fixed := by simp [tickBoundary]

end Sys2Proof.Machine
end

