-- ==== Sys2Proof/Laws/Host.lean ====
section
/-! SUPPORT. What completions, events and messages leave alone: everything but the host interface and the output. -/

namespace Sys2Proof.Machine

/-- A state without its host interface and output. -/
def State.rest (s : State) : State := { s with hif := Hif.reset, out := [] }

theorem rest_ext {s t : State} (h : t.rest = s.rest) : t = { s with hif := t.hif, out := t.out } := by
  obtain ⟨⟩ := s
  obtain ⟨⟩ := t
  simp only [State.rest, State.mk.injEq] at h ⊢
  simp [h]

@[simp] theorem rest_ite (c : Prop) [Decidable c] (s t : State) : (if c then s else t).rest = if c then s.rest else t.rest := apply_ite ..

@[simp] theorem rest_hif (s : State) (h : Hif) : State.rest { s with hif := h } = s.rest := rfl

@[simp] theorem hifCnt_rest (k n : Nat) (s : State) : (hifCnt k n s).rest = s.rest := rfl

@[simp] theorem modRing_rest (n : Nat) (f : Ring → Ring) (s : State) : (modRing n f s).rest = s.rest := rfl

@[simp] theorem sendMsix_rest (v : Nat) (s : State) : (sendMsix v s).rest = s.rest := rfl

@[simp] theorem raiseVec_rest (v : Nat) (s : State) : (raiseVec v s).rest = s.rest := by
  unfold raiseVec
  repeat' split
  all_goals simp

@[simp] theorem hifEvent_rest (k : Nat) (s : State) : (hifEvent k s).rest = s.rest := by
  unfold hifEvent raiseBlock
  dsimp only
  split <;> simp

@[simp] theorem ringIrq_rest (n : Nat) (s : State) : (ringIrq n s).rest = s.rest := by
  unfold ringIrq
  dsimp only
  split <;> simp

@[simp] theorem ringSignal_rest (n : Nat) (u : Bool) (s : State) : (ringSignal n u s).rest = s.rest := by
  unfold ringSignal
  dsimp only
  split <;> simp

@[simp] theorem writeCompl_rest (n : Nat) (b : Compl256) (irq : Bool) (s : State) : (writeCompl n b irq s).rest = s.rest := by simp [writeCompl]

@[simp] theorem drainHeldN_rest (n k : Nat) (s : State) : (drainHeldN n k s).rest = s.rest := by
  induction k generalizing s with
  | zero => rfl
  | succ k ih =>
    unfold drainHeldN
    dsimp only
    split
    · split <;> simp [ih]
    · rfl

@[simp] theorem drainHeld_rest (n : Nat) (s : State) : (drainHeld n s).rest = s.rest := by simp [drainHeld]

@[simp] theorem completeWith_rest (c : Ctx) (st : Status) (late : Bool) (tick : Option Nat) (r : Nat) (s : State) :
    (completeWith c st late tick r s).rest = s.rest := by
  unfold completeWith
  dsimp only
  repeat' split
  all_goals simp

@[simp] theorem complete_rest (c : Ctx) (st : Status) (s : State) : (complete c st s).rest = s.rest := by simp [complete]

@[simp] theorem noteWaits_rest (s : State) : (noteWaits s).rest = s.rest := by
  unfold noteWaits
  split <;> simp

@[simp] theorem takeHead_rest (d : Desc) (op : Nat) (s : State) : (takeHead d op s).2.rest = s.rest := rfl

/-! Lists by index -/

theorem modAt_get {α : Type} (l : List α) (k j : Nat) (f : α → α) : (modAt l k f)[j]? = if k = j then (l[j]?).map f else l[j]? := by
  induction l generalizing k j with
  | nil => simp [modAt]
  | cons a r ih => cases k <;> cases j <;> simp [modAt, ih]

theorem ringOf_modRing (n m : Nat) (f : Ring → Ring) (s : State) :
    ringOf (modRing n f s) m = if n = m ∧ m < s.hif.rings.length then f (ringOf s m) else ringOf s m := by
  simp only [ringOf, modRing, nth, modAt_get]
  by_cases h : n = m
  · subst h
    by_cases hm : n < s.hif.rings.length
    · simp [hm]
    · simp [hm]
  · simp [h]

end Sys2Proof.Machine
end

