-- ==== Sys2Proof/Laws/Run.lean ====
section
/-! SUPPORT. Commands: the forms in which an operation runs keep what the operation keeps. -/

namespace Sys2Proof.Machine

/-- An operation keeps SAFE. -/
def KeepsSafe (op : State → State) : Prop := ∀ s, s.course = ⟨.safe⟩ → (op s).course = ⟨.safe⟩

/-- An operation keeps what only time, power, resets, the bus and the life cycle change. -/
def KeepsFixed (op : State → State) : Prop := ∀ s, (op s).fixed = s.fixed

theorem keepsSafe_of_course {op : State → State} (h : ∀ s, (op s).course = s.course) : KeepsSafe op := fun s hs => (h s).trans hs

section
variable {op : State → State}

theorem live_keepsSafe (h : KeepsSafe op) : KeepsSafe (live op) := fun s hs => by
  unfold live
  split
  · exact h s hs
  · exact hs

theorem onBar_keepsSafe (h : KeepsSafe op) : KeepsSafe (onBar op) := fun s hs => by
  unfold onBar
  split
  · exact h s hs
  · exact hs

theorem onRead_keepsSafe (h : KeepsSafe op) : KeepsSafe (onRead op) := fun s hs => by
  unfold onRead
  split
  · exact h s hs
  · exact hs

theorem onPort_keepsSafe (p : Nat) (h : KeepsSafe op) : KeepsSafe (onPort p op) := live_keepsSafe fun s hs => by
  split
  · exact h s hs
  · exact hs

theorem onYoke_keepsSafe (h : KeepsSafe op) : KeepsSafe (onYoke op) := live_keepsSafe fun s hs => by
  split
  · exact h s hs
  · exact hs

theorem onRing_keepsSafe (r : Nat) (h : KeepsSafe op) : KeepsSafe (onRing r op) := fun s hs => by
  unfold onRing
  split
  · exact h s hs
  · exact hs

theorem onTick_keepsSafe (h : KeepsSafe op) : KeepsSafe (onTick op) := live_keepsSafe fun s hs => by
  simp [h s hs]

theorem onRecovery_keepsSafe (h : KeepsSafe op) : KeepsSafe (onRecovery op) := live_keepsSafe fun s hs => by
  have := settle_safe _ (drainMarks_safe _ (settle_safe _ (h s hs)))
  simp [this]

theorem withStep_keepsSafe (h : KeepsSafe op) : KeepsSafe (withStep op) := fun s hs => by
  unfold withStep
  dsimp only
  split
  · exact h s hs
  · exact timeStepped_safe _ _ (h s hs)

theorem live_keepsFixed (h : KeepsFixed op) : KeepsFixed (live op) := fun s => by
  unfold live
  split
  · exact h s
  · rfl

theorem onBar_keepsFixed (h : KeepsFixed op) : KeepsFixed (onBar op) := fun s => by
  unfold onBar
  split
  · exact h s
  · rfl

theorem onRead_keepsFixed (h : KeepsFixed op) : KeepsFixed (onRead op) := fun s => by
  unfold onRead
  split
  · exact h s
  · rfl

theorem onPort_keepsFixed (p : Nat) (h : KeepsFixed op) : KeepsFixed (onPort p op) := live_keepsFixed fun s => by
  split
  · exact h s
  · rfl

theorem onYoke_keepsFixed (h : KeepsFixed op) : KeepsFixed (onYoke op) := live_keepsFixed fun s => by
  split
  · exact h s
  · rfl

theorem onRing_keepsFixed (r : Nat) (h : KeepsFixed op) : KeepsFixed (onRing r op) := fun s => by
  unfold onRing
  split
  · exact h s
  · rfl

theorem onTick_keepsFixed (h : KeepsFixed op) : KeepsFixed (onTick op) := live_keepsFixed fun s => by simp [h s]

theorem onRecovery_keepsFixed (h : KeepsFixed op) : KeepsFixed (onRecovery op) := live_keepsFixed fun s => by simp [h s]

theorem withStep_keepsFixed (h : KeepsFixed op) : KeepsFixed (withStep op) := fun s => by
  unfold withStep
  dsimp only
  split
  · exact h s
  · simp [h s]

end

/-- A command whose operation keeps SAFE leaves SAFE as it is. -/
theorem run_keepsSafe {op : State → State} (h : KeepsSafe op) (dt : Nat) {s : State} (hs : s.sys.runState = .safe) :
    ∃ t, run dt op s = .next t ∧ t.sys.runState = .safe :=
  ⟨_, rfl, run_safe (h _ (elapse_safe _ _ ((course_safe s).mpr hs)))⟩

end Sys2Proof.Machine
end

