-- ==== Sys2Proof/Laws/State.lean ====
section
/-! SUPPORT. What each update of the state does to each of its fields. -/

namespace Sys2Proof.Machine

variable (s : State)

/-! passTime -/

@[simp] theorem passTime_sys (dt : Nat) : (passTime dt s).sys = { s.sys with aon := s.sys.aon + dt } := rfl
@[simp] theorem passTime_hif (dt : Nat) : (passTime dt s).hif = s.hif := rfl
@[simp] theorem passTime_tbu (dt : Nat) : (passTime dt s).tbu = { s.tbu with free := if s.tbu.running then s.tbu.free + dt * 256 else s.tbu.free } := rfl
@[simp] theorem passTime_log (dt : Nat) : (passTime dt s).log = s.log := rfl
@[simp] theorem passTime_flt (dt : Nat) : (passTime dt s).flt = s.flt := rfl
@[simp] theorem passTime_swm (dt : Nat) : (passTime dt s).swm = s.swm := rfl
@[simp] theorem passTime_tkx (dt : Nat) : (passTime dt s).tkx = s.tkx := rfl
@[simp] theorem passTime_net (dt : Nat) : (passTime dt s).net = s.net := rfl
@[simp] theorem passTime_ing (dt : Nat) : (passTime dt s).ing = s.ing := rfl
@[simp] theorem passTime_aln (dt : Nat) : (passTime dt s).aln = s.aln := rfl
@[simp] theorem passTime_dfc (dt : Nat) : (passTime dt s).dfc = s.dfc := rfl
@[simp] theorem passTime_lse (dt : Nat) : (passTime dt s).lse = s.lse := rfl
@[simp] theorem passTime_osm (dt : Nat) : (passTime dt s).osm = s.osm := rfl
@[simp] theorem passTime_sep (dt : Nat) : (passTime dt s).sep = s.sep := rfl
@[simp] theorem passTime_ge (dt : Nat) : (passTime dt s).ge = s.ge := rfl
@[simp] theorem passTime_ala (dt : Nat) : (passTime dt s).ala = s.ala := rfl
@[simp] theorem passTime_pair (dt : Nat) : (passTime dt s).pair = s.pair := rfl
@[simp] theorem passTime_kst (dt : Nat) : (passTime dt s).kst = s.kst := rfl
@[simp] theorem passTime_mbx (dt : Nat) : (passTime dt s).mbx = s.mbx := rfl
@[simp] theorem passTime_image (dt : Nat) : (passTime dt s).image = s.image := rfl
@[simp] theorem passTime_pending (dt : Nat) : (passTime dt s).pending = s.pending := rfl
@[simp] theorem passTime_out (dt : Nat) : (passTime dt s).out = s.out := rfl
@[simp] theorem passTime_freeCtr (dt : Nat) : (passTime dt s).freeCtr = s.freeCtr := rfl
@[simp] theorem passTime_latches (dt : Nat) : (passTime dt s).latches = s.latches := rfl
@[simp] theorem passTime_readData (dt : Nat) : (passTime dt s).readData = s.readData := rfl
@[simp] theorem passTime_readHigh (dt : Nat) : (passTime dt s).readHigh = s.readHigh := rfl
@[simp] theorem passTime_prior (dt : Nat) : (passTime dt s).prior = if dt = 0 then s.prior else s.blocks := rfl

/-! drawFree -/

@[simp] theorem drawFree_sys : ((drawFree s).2).sys = s.sys := rfl
@[simp] theorem drawFree_hif : ((drawFree s).2).hif = s.hif := rfl
@[simp] theorem drawFree_tbu : ((drawFree s).2).tbu = s.tbu := rfl
@[simp] theorem drawFree_log : ((drawFree s).2).log = s.log := rfl
@[simp] theorem drawFree_flt : ((drawFree s).2).flt = s.flt := rfl
@[simp] theorem drawFree_swm : ((drawFree s).2).swm = s.swm := rfl
@[simp] theorem drawFree_tkx : ((drawFree s).2).tkx = s.tkx := rfl
@[simp] theorem drawFree_net : ((drawFree s).2).net = s.net := rfl
@[simp] theorem drawFree_ing : ((drawFree s).2).ing = s.ing := rfl
@[simp] theorem drawFree_aln : ((drawFree s).2).aln = s.aln := rfl
@[simp] theorem drawFree_dfc : ((drawFree s).2).dfc = s.dfc := rfl
@[simp] theorem drawFree_lse : ((drawFree s).2).lse = s.lse := rfl
@[simp] theorem drawFree_osm : ((drawFree s).2).osm = s.osm := rfl
@[simp] theorem drawFree_sep : ((drawFree s).2).sep = s.sep := rfl
@[simp] theorem drawFree_ge : ((drawFree s).2).ge = s.ge := rfl
@[simp] theorem drawFree_ala : ((drawFree s).2).ala = s.ala := rfl
@[simp] theorem drawFree_pair : ((drawFree s).2).pair = s.pair := rfl
@[simp] theorem drawFree_kst : ((drawFree s).2).kst = s.kst := rfl
@[simp] theorem drawFree_mbx : ((drawFree s).2).mbx = s.mbx := rfl
@[simp] theorem drawFree_image : ((drawFree s).2).image = s.image := rfl
@[simp] theorem drawFree_pending : ((drawFree s).2).pending = s.pending := rfl
@[simp] theorem drawFree_out : ((drawFree s).2).out = s.out := rfl
@[simp] theorem drawFree_freeCtr : ((drawFree s).2).freeCtr = s.freeCtr + 1 := rfl
@[simp] theorem drawFree_latches : ((drawFree s).2).latches = s.latches := rfl
@[simp] theorem drawFree_readData : ((drawFree s).2).readData = s.readData := rfl
@[simp] theorem drawFree_readHigh : ((drawFree s).2).readHigh = s.readHigh := rfl
@[simp] theorem drawFree_prior : ((drawFree s).2).prior = s.prior := rfl

/-! emitOut -/

@[simp] theorem emitOut_sys (o : Out) : (emitOut o s).sys = s.sys := rfl
@[simp] theorem emitOut_hif (o : Out) : (emitOut o s).hif = s.hif := rfl
@[simp] theorem emitOut_tbu (o : Out) : (emitOut o s).tbu = s.tbu := rfl
@[simp] theorem emitOut_log (o : Out) : (emitOut o s).log = s.log := rfl
@[simp] theorem emitOut_flt (o : Out) : (emitOut o s).flt = s.flt := rfl
@[simp] theorem emitOut_swm (o : Out) : (emitOut o s).swm = s.swm := rfl
@[simp] theorem emitOut_tkx (o : Out) : (emitOut o s).tkx = s.tkx := rfl
@[simp] theorem emitOut_net (o : Out) : (emitOut o s).net = s.net := rfl
@[simp] theorem emitOut_ing (o : Out) : (emitOut o s).ing = s.ing := rfl
@[simp] theorem emitOut_aln (o : Out) : (emitOut o s).aln = s.aln := rfl
@[simp] theorem emitOut_dfc (o : Out) : (emitOut o s).dfc = s.dfc := rfl
@[simp] theorem emitOut_lse (o : Out) : (emitOut o s).lse = s.lse := rfl
@[simp] theorem emitOut_osm (o : Out) : (emitOut o s).osm = s.osm := rfl
@[simp] theorem emitOut_sep (o : Out) : (emitOut o s).sep = s.sep := rfl
@[simp] theorem emitOut_ge (o : Out) : (emitOut o s).ge = s.ge := rfl
@[simp] theorem emitOut_ala (o : Out) : (emitOut o s).ala = s.ala := rfl
@[simp] theorem emitOut_pair (o : Out) : (emitOut o s).pair = s.pair := rfl
@[simp] theorem emitOut_kst (o : Out) : (emitOut o s).kst = s.kst := rfl
@[simp] theorem emitOut_mbx (o : Out) : (emitOut o s).mbx = s.mbx := rfl
@[simp] theorem emitOut_image (o : Out) : (emitOut o s).image = s.image := rfl
@[simp] theorem emitOut_pending (o : Out) : (emitOut o s).pending = s.pending := rfl
@[simp] theorem emitOut_out (o : Out) : (emitOut o s).out = s.out ++ [o] := rfl
@[simp] theorem emitOut_freeCtr (o : Out) : (emitOut o s).freeCtr = s.freeCtr := rfl
@[simp] theorem emitOut_latches (o : Out) : (emitOut o s).latches = s.latches := rfl
@[simp] theorem emitOut_readData (o : Out) : (emitOut o s).readData = s.readData := rfl
@[simp] theorem emitOut_readHigh (o : Out) : (emitOut o s).readHigh = s.readHigh := rfl
@[simp] theorem emitOut_prior (o : Out) : (emitOut o s).prior = s.prior := rfl

/-! hifCnt -/

@[simp] theorem hifCnt_sys (k n : Nat) : (hifCnt k n s).sys = s.sys := rfl
@[simp] theorem hifCnt_hif (k n : Nat) : (hifCnt k n s).hif = { s.hif with cnt := modAt s.hif.cnt k (satAdd · n) } := rfl
@[simp] theorem hifCnt_tbu (k n : Nat) : (hifCnt k n s).tbu = s.tbu := rfl
@[simp] theorem hifCnt_log (k n : Nat) : (hifCnt k n s).log = s.log := rfl
@[simp] theorem hifCnt_flt (k n : Nat) : (hifCnt k n s).flt = s.flt := rfl
@[simp] theorem hifCnt_swm (k n : Nat) : (hifCnt k n s).swm = s.swm := rfl
@[simp] theorem hifCnt_tkx (k n : Nat) : (hifCnt k n s).tkx = s.tkx := rfl
@[simp] theorem hifCnt_net (k n : Nat) : (hifCnt k n s).net = s.net := rfl
@[simp] theorem hifCnt_ing (k n : Nat) : (hifCnt k n s).ing = s.ing := rfl
@[simp] theorem hifCnt_aln (k n : Nat) : (hifCnt k n s).aln = s.aln := rfl
@[simp] theorem hifCnt_dfc (k n : Nat) : (hifCnt k n s).dfc = s.dfc := rfl
@[simp] theorem hifCnt_lse (k n : Nat) : (hifCnt k n s).lse = s.lse := rfl
@[simp] theorem hifCnt_osm (k n : Nat) : (hifCnt k n s).osm = s.osm := rfl
@[simp] theorem hifCnt_sep (k n : Nat) : (hifCnt k n s).sep = s.sep := rfl
@[simp] theorem hifCnt_ge (k n : Nat) : (hifCnt k n s).ge = s.ge := rfl
@[simp] theorem hifCnt_ala (k n : Nat) : (hifCnt k n s).ala = s.ala := rfl
@[simp] theorem hifCnt_pair (k n : Nat) : (hifCnt k n s).pair = s.pair := rfl
@[simp] theorem hifCnt_kst (k n : Nat) : (hifCnt k n s).kst = s.kst := rfl
@[simp] theorem hifCnt_mbx (k n : Nat) : (hifCnt k n s).mbx = s.mbx := rfl
@[simp] theorem hifCnt_image (k n : Nat) : (hifCnt k n s).image = s.image := rfl
@[simp] theorem hifCnt_pending (k n : Nat) : (hifCnt k n s).pending = s.pending := rfl
@[simp] theorem hifCnt_out (k n : Nat) : (hifCnt k n s).out = s.out := rfl
@[simp] theorem hifCnt_freeCtr (k n : Nat) : (hifCnt k n s).freeCtr = s.freeCtr := rfl
@[simp] theorem hifCnt_latches (k n : Nat) : (hifCnt k n s).latches = s.latches := rfl
@[simp] theorem hifCnt_readData (k n : Nat) : (hifCnt k n s).readData = s.readData := rfl
@[simp] theorem hifCnt_readHigh (k n : Nat) : (hifCnt k n s).readHigh = s.readHigh := rfl
@[simp] theorem hifCnt_prior (k n : Nat) : (hifCnt k n s).prior = s.prior := rfl

/-! modRing -/

@[simp] theorem modRing_sys (n : Nat) (f : Ring → Ring) : (modRing n f s).sys = s.sys := rfl
@[simp] theorem modRing_hif (n : Nat) (f : Ring → Ring) : (modRing n f s).hif = { s.hif with rings := modAt s.hif.rings n f } := rfl
@[simp] theorem modRing_tbu (n : Nat) (f : Ring → Ring) : (modRing n f s).tbu = s.tbu := rfl
@[simp] theorem modRing_log (n : Nat) (f : Ring → Ring) : (modRing n f s).log = s.log := rfl
@[simp] theorem modRing_flt (n : Nat) (f : Ring → Ring) : (modRing n f s).flt = s.flt := rfl
@[simp] theorem modRing_swm (n : Nat) (f : Ring → Ring) : (modRing n f s).swm = s.swm := rfl
@[simp] theorem modRing_tkx (n : Nat) (f : Ring → Ring) : (modRing n f s).tkx = s.tkx := rfl
@[simp] theorem modRing_net (n : Nat) (f : Ring → Ring) : (modRing n f s).net = s.net := rfl
@[simp] theorem modRing_ing (n : Nat) (f : Ring → Ring) : (modRing n f s).ing = s.ing := rfl
@[simp] theorem modRing_aln (n : Nat) (f : Ring → Ring) : (modRing n f s).aln = s.aln := rfl
@[simp] theorem modRing_dfc (n : Nat) (f : Ring → Ring) : (modRing n f s).dfc = s.dfc := rfl
@[simp] theorem modRing_lse (n : Nat) (f : Ring → Ring) : (modRing n f s).lse = s.lse := rfl
@[simp] theorem modRing_osm (n : Nat) (f : Ring → Ring) : (modRing n f s).osm = s.osm := rfl
@[simp] theorem modRing_sep (n : Nat) (f : Ring → Ring) : (modRing n f s).sep = s.sep := rfl
@[simp] theorem modRing_ge (n : Nat) (f : Ring → Ring) : (modRing n f s).ge = s.ge := rfl
@[simp] theorem modRing_ala (n : Nat) (f : Ring → Ring) : (modRing n f s).ala = s.ala := rfl
@[simp] theorem modRing_pair (n : Nat) (f : Ring → Ring) : (modRing n f s).pair = s.pair := rfl
@[simp] theorem modRing_kst (n : Nat) (f : Ring → Ring) : (modRing n f s).kst = s.kst := rfl
@[simp] theorem modRing_mbx (n : Nat) (f : Ring → Ring) : (modRing n f s).mbx = s.mbx := rfl
@[simp] theorem modRing_image (n : Nat) (f : Ring → Ring) : (modRing n f s).image = s.image := rfl
@[simp] theorem modRing_pending (n : Nat) (f : Ring → Ring) : (modRing n f s).pending = s.pending := rfl
@[simp] theorem modRing_out (n : Nat) (f : Ring → Ring) : (modRing n f s).out = s.out := rfl
@[simp] theorem modRing_freeCtr (n : Nat) (f : Ring → Ring) : (modRing n f s).freeCtr = s.freeCtr := rfl
@[simp] theorem modRing_latches (n : Nat) (f : Ring → Ring) : (modRing n f s).latches = s.latches := rfl
@[simp] theorem modRing_readData (n : Nat) (f : Ring → Ring) : (modRing n f s).readData = s.readData := rfl
@[simp] theorem modRing_readHigh (n : Nat) (f : Ring → Ring) : (modRing n f s).readHigh = s.readHigh := rfl
@[simp] theorem modRing_prior (n : Nat) (f : Ring → Ring) : (modRing n f s).prior = s.prior := rfl

/-! logCnt -/

@[simp] theorem logCnt_sys (k n : Nat) : (logCnt k n s).sys = s.sys := rfl
@[simp] theorem logCnt_hif (k n : Nat) : (logCnt k n s).hif = s.hif := rfl
@[simp] theorem logCnt_tbu (k n : Nat) : (logCnt k n s).tbu = s.tbu := rfl
@[simp] theorem logCnt_log (k n : Nat) : (logCnt k n s).log = { s.log with cnt := modAt s.log.cnt k (satAdd · n) } := rfl
@[simp] theorem logCnt_flt (k n : Nat) : (logCnt k n s).flt = s.flt := rfl
@[simp] theorem logCnt_swm (k n : Nat) : (logCnt k n s).swm = s.swm := rfl
@[simp] theorem logCnt_tkx (k n : Nat) : (logCnt k n s).tkx = s.tkx := rfl
@[simp] theorem logCnt_net (k n : Nat) : (logCnt k n s).net = s.net := rfl
@[simp] theorem logCnt_ing (k n : Nat) : (logCnt k n s).ing = s.ing := rfl
@[simp] theorem logCnt_aln (k n : Nat) : (logCnt k n s).aln = s.aln := rfl
@[simp] theorem logCnt_dfc (k n : Nat) : (logCnt k n s).dfc = s.dfc := rfl
@[simp] theorem logCnt_lse (k n : Nat) : (logCnt k n s).lse = s.lse := rfl
@[simp] theorem logCnt_osm (k n : Nat) : (logCnt k n s).osm = s.osm := rfl
@[simp] theorem logCnt_sep (k n : Nat) : (logCnt k n s).sep = s.sep := rfl
@[simp] theorem logCnt_ge (k n : Nat) : (logCnt k n s).ge = s.ge := rfl
@[simp] theorem logCnt_ala (k n : Nat) : (logCnt k n s).ala = s.ala := rfl
@[simp] theorem logCnt_pair (k n : Nat) : (logCnt k n s).pair = s.pair := rfl
@[simp] theorem logCnt_kst (k n : Nat) : (logCnt k n s).kst = s.kst := rfl
@[simp] theorem logCnt_mbx (k n : Nat) : (logCnt k n s).mbx = s.mbx := rfl
@[simp] theorem logCnt_image (k n : Nat) : (logCnt k n s).image = s.image := rfl
@[simp] theorem logCnt_pending (k n : Nat) : (logCnt k n s).pending = s.pending := rfl
@[simp] theorem logCnt_out (k n : Nat) : (logCnt k n s).out = s.out := rfl
@[simp] theorem logCnt_freeCtr (k n : Nat) : (logCnt k n s).freeCtr = s.freeCtr := rfl
@[simp] theorem logCnt_latches (k n : Nat) : (logCnt k n s).latches = s.latches := rfl
@[simp] theorem logCnt_readData (k n : Nat) : (logCnt k n s).readData = s.readData := rfl
@[simp] theorem logCnt_readHigh (k n : Nat) : (logCnt k n s).readHigh = s.readHigh := rfl
@[simp] theorem logCnt_prior (k n : Nat) : (logCnt k n s).prior = s.prior := rfl

/-! modPort -/

@[simp] theorem modPort_sys (p : Nat) (f : Port → Port) : (modPort p f s).sys = s.sys := rfl
@[simp] theorem modPort_hif (p : Nat) (f : Port → Port) : (modPort p f s).hif = s.hif := rfl
@[simp] theorem modPort_tbu (p : Nat) (f : Port → Port) : (modPort p f s).tbu = s.tbu := rfl
@[simp] theorem modPort_log (p : Nat) (f : Port → Port) : (modPort p f s).log = s.log := rfl
@[simp] theorem modPort_flt (p : Nat) (f : Port → Port) : (modPort p f s).flt = s.flt := rfl
@[simp] theorem modPort_swm (p : Nat) (f : Port → Port) : (modPort p f s).swm = s.swm := rfl
@[simp] theorem modPort_tkx (p : Nat) (f : Port → Port) : (modPort p f s).tkx = s.tkx := rfl
@[simp] theorem modPort_net (p : Nat) (f : Port → Port) : (modPort p f s).net = { s.net with ports := modAt s.net.ports p f } := rfl
@[simp] theorem modPort_ing (p : Nat) (f : Port → Port) : (modPort p f s).ing = s.ing := rfl
@[simp] theorem modPort_aln (p : Nat) (f : Port → Port) : (modPort p f s).aln = s.aln := rfl
@[simp] theorem modPort_dfc (p : Nat) (f : Port → Port) : (modPort p f s).dfc = s.dfc := rfl
@[simp] theorem modPort_lse (p : Nat) (f : Port → Port) : (modPort p f s).lse = s.lse := rfl
@[simp] theorem modPort_osm (p : Nat) (f : Port → Port) : (modPort p f s).osm = s.osm := rfl
@[simp] theorem modPort_sep (p : Nat) (f : Port → Port) : (modPort p f s).sep = s.sep := rfl
@[simp] theorem modPort_ge (p : Nat) (f : Port → Port) : (modPort p f s).ge = s.ge := rfl
@[simp] theorem modPort_ala (p : Nat) (f : Port → Port) : (modPort p f s).ala = s.ala := rfl
@[simp] theorem modPort_pair (p : Nat) (f : Port → Port) : (modPort p f s).pair = s.pair := rfl
@[simp] theorem modPort_kst (p : Nat) (f : Port → Port) : (modPort p f s).kst = s.kst := rfl
@[simp] theorem modPort_mbx (p : Nat) (f : Port → Port) : (modPort p f s).mbx = s.mbx := rfl
@[simp] theorem modPort_image (p : Nat) (f : Port → Port) : (modPort p f s).image = s.image := rfl
@[simp] theorem modPort_pending (p : Nat) (f : Port → Port) : (modPort p f s).pending = s.pending := rfl
@[simp] theorem modPort_out (p : Nat) (f : Port → Port) : (modPort p f s).out = s.out := rfl
@[simp] theorem modPort_freeCtr (p : Nat) (f : Port → Port) : (modPort p f s).freeCtr = s.freeCtr := rfl
@[simp] theorem modPort_latches (p : Nat) (f : Port → Port) : (modPort p f s).latches = s.latches := rfl
@[simp] theorem modPort_readData (p : Nat) (f : Port → Port) : (modPort p f s).readData = s.readData := rfl
@[simp] theorem modPort_readHigh (p : Nat) (f : Port → Port) : (modPort p f s).readHigh = s.readHigh := rfl
@[simp] theorem modPort_prior (p : Nat) (f : Port → Port) : (modPort p f s).prior = s.prior := rfl

/-! modChan -/

@[simp] theorem modChan_sys (c : Nat) (f : MChan → MChan) : (modChan c f s).sys = s.sys := rfl
@[simp] theorem modChan_hif (c : Nat) (f : MChan → MChan) : (modChan c f s).hif = s.hif := rfl
@[simp] theorem modChan_tbu (c : Nat) (f : MChan → MChan) : (modChan c f s).tbu = s.tbu := rfl
@[simp] theorem modChan_log (c : Nat) (f : MChan → MChan) : (modChan c f s).log = s.log := rfl
@[simp] theorem modChan_flt (c : Nat) (f : MChan → MChan) : (modChan c f s).flt = s.flt := rfl
@[simp] theorem modChan_swm (c : Nat) (f : MChan → MChan) : (modChan c f s).swm = s.swm := rfl
@[simp] theorem modChan_tkx (c : Nat) (f : MChan → MChan) : (modChan c f s).tkx = s.tkx := rfl
@[simp] theorem modChan_net (c : Nat) (f : MChan → MChan) : (modChan c f s).net = s.net := rfl
@[simp] theorem modChan_ing (c : Nat) (f : MChan → MChan) : (modChan c f s).ing = s.ing := rfl
@[simp] theorem modChan_aln (c : Nat) (f : MChan → MChan) : (modChan c f s).aln = s.aln := rfl
@[simp] theorem modChan_dfc (c : Nat) (f : MChan → MChan) : (modChan c f s).dfc = s.dfc := rfl
@[simp] theorem modChan_lse (c : Nat) (f : MChan → MChan) : (modChan c f s).lse = s.lse := rfl
@[simp] theorem modChan_osm (c : Nat) (f : MChan → MChan) : (modChan c f s).osm = s.osm := rfl
@[simp] theorem modChan_sep (c : Nat) (f : MChan → MChan) : (modChan c f s).sep = s.sep := rfl
@[simp] theorem modChan_ge (c : Nat) (f : MChan → MChan) : (modChan c f s).ge = s.ge := rfl
@[simp] theorem modChan_ala (c : Nat) (f : MChan → MChan) : (modChan c f s).ala = s.ala := rfl
@[simp] theorem modChan_pair (c : Nat) (f : MChan → MChan) : (modChan c f s).pair = s.pair := rfl
@[simp] theorem modChan_kst (c : Nat) (f : MChan → MChan) : (modChan c f s).kst = s.kst := rfl
@[simp] theorem modChan_mbx (c : Nat) (f : MChan → MChan) : (modChan c f s).mbx = { s.mbx with chans := modAt s.mbx.chans c f } := rfl
@[simp] theorem modChan_image (c : Nat) (f : MChan → MChan) : (modChan c f s).image = s.image := rfl
@[simp] theorem modChan_pending (c : Nat) (f : MChan → MChan) : (modChan c f s).pending = s.pending := rfl
@[simp] theorem modChan_out (c : Nat) (f : MChan → MChan) : (modChan c f s).out = s.out := rfl
@[simp] theorem modChan_freeCtr (c : Nat) (f : MChan → MChan) : (modChan c f s).freeCtr = s.freeCtr := rfl
@[simp] theorem modChan_latches (c : Nat) (f : MChan → MChan) : (modChan c f s).latches = s.latches := rfl
@[simp] theorem modChan_readData (c : Nat) (f : MChan → MChan) : (modChan c f s).readData = s.readData := rfl
@[simp] theorem modChan_readHigh (c : Nat) (f : MChan → MChan) : (modChan c f s).readHigh = s.readHigh := rfl
@[simp] theorem modChan_prior (c : Nat) (f : MChan → MChan) : (modChan c f s).prior = s.prior := rfl

/-! setEntries -/

@[simp] theorem setEntries_sys (l : List TEntry) : (setEntries l s).sys = s.sys := rfl
@[simp] theorem setEntries_hif (l : List TEntry) : (setEntries l s).hif = s.hif := rfl
@[simp] theorem setEntries_tbu (l : List TEntry) : (setEntries l s).tbu = s.tbu := rfl
@[simp] theorem setEntries_log (l : List TEntry) : (setEntries l s).log = s.log := rfl
@[simp] theorem setEntries_flt (l : List TEntry) : (setEntries l s).flt = s.flt := rfl
@[simp] theorem setEntries_swm (l : List TEntry) : (setEntries l s).swm = s.swm := rfl
@[simp] theorem setEntries_tkx (l : List TEntry) : (setEntries l s).tkx = { s.tkx with entries := l } := rfl
@[simp] theorem setEntries_net (l : List TEntry) : (setEntries l s).net = s.net := rfl
@[simp] theorem setEntries_ing (l : List TEntry) : (setEntries l s).ing = s.ing := rfl
@[simp] theorem setEntries_aln (l : List TEntry) : (setEntries l s).aln = s.aln := rfl
@[simp] theorem setEntries_dfc (l : List TEntry) : (setEntries l s).dfc = s.dfc := rfl
@[simp] theorem setEntries_lse (l : List TEntry) : (setEntries l s).lse = s.lse := rfl
@[simp] theorem setEntries_osm (l : List TEntry) : (setEntries l s).osm = s.osm := rfl
@[simp] theorem setEntries_sep (l : List TEntry) : (setEntries l s).sep = s.sep := rfl
@[simp] theorem setEntries_ge (l : List TEntry) : (setEntries l s).ge = s.ge := rfl
@[simp] theorem setEntries_ala (l : List TEntry) : (setEntries l s).ala = s.ala := rfl
@[simp] theorem setEntries_pair (l : List TEntry) : (setEntries l s).pair = s.pair := rfl
@[simp] theorem setEntries_kst (l : List TEntry) : (setEntries l s).kst = s.kst := rfl
@[simp] theorem setEntries_mbx (l : List TEntry) : (setEntries l s).mbx = s.mbx := rfl
@[simp] theorem setEntries_image (l : List TEntry) : (setEntries l s).image = s.image := rfl
@[simp] theorem setEntries_pending (l : List TEntry) : (setEntries l s).pending = s.pending := rfl
@[simp] theorem setEntries_out (l : List TEntry) : (setEntries l s).out = s.out := rfl
@[simp] theorem setEntries_freeCtr (l : List TEntry) : (setEntries l s).freeCtr = s.freeCtr := rfl
@[simp] theorem setEntries_latches (l : List TEntry) : (setEntries l s).latches = s.latches := rfl
@[simp] theorem setEntries_readData (l : List TEntry) : (setEntries l s).readData = s.readData := rfl
@[simp] theorem setEntries_readHigh (l : List TEntry) : (setEntries l s).readHigh = s.readHigh := rfl
@[simp] theorem setEntries_prior (l : List TEntry) : (setEntries l s).prior = s.prior := rfl

/-! modCur -/

@[simp] theorem modCur_sys (f : Cur → Cur) : (modCur f s).sys = s.sys := rfl
@[simp] theorem modCur_hif (f : Cur → Cur) : (modCur f s).hif = s.hif := rfl
@[simp] theorem modCur_tbu (f : Cur → Cur) : (modCur f s).tbu = s.tbu := rfl
@[simp] theorem modCur_log (f : Cur → Cur) : (modCur f s).log = s.log := rfl
@[simp] theorem modCur_flt (f : Cur → Cur) : (modCur f s).flt = s.flt := rfl
@[simp] theorem modCur_swm (f : Cur → Cur) : (modCur f s).swm = s.swm := rfl
@[simp] theorem modCur_tkx (f : Cur → Cur) : (modCur f s).tkx = { s.tkx with cur := s.tkx.cur.map f } := rfl
@[simp] theorem modCur_net (f : Cur → Cur) : (modCur f s).net = s.net := rfl
@[simp] theorem modCur_ing (f : Cur → Cur) : (modCur f s).ing = s.ing := rfl
@[simp] theorem modCur_aln (f : Cur → Cur) : (modCur f s).aln = s.aln := rfl
@[simp] theorem modCur_dfc (f : Cur → Cur) : (modCur f s).dfc = s.dfc := rfl
@[simp] theorem modCur_lse (f : Cur → Cur) : (modCur f s).lse = s.lse := rfl
@[simp] theorem modCur_osm (f : Cur → Cur) : (modCur f s).osm = s.osm := rfl
@[simp] theorem modCur_sep (f : Cur → Cur) : (modCur f s).sep = s.sep := rfl
@[simp] theorem modCur_ge (f : Cur → Cur) : (modCur f s).ge = s.ge := rfl
@[simp] theorem modCur_ala (f : Cur → Cur) : (modCur f s).ala = s.ala := rfl
@[simp] theorem modCur_pair (f : Cur → Cur) : (modCur f s).pair = s.pair := rfl
@[simp] theorem modCur_kst (f : Cur → Cur) : (modCur f s).kst = s.kst := rfl
@[simp] theorem modCur_mbx (f : Cur → Cur) : (modCur f s).mbx = s.mbx := rfl
@[simp] theorem modCur_image (f : Cur → Cur) : (modCur f s).image = s.image := rfl
@[simp] theorem modCur_pending (f : Cur → Cur) : (modCur f s).pending = s.pending := rfl
@[simp] theorem modCur_out (f : Cur → Cur) : (modCur f s).out = s.out := rfl
@[simp] theorem modCur_freeCtr (f : Cur → Cur) : (modCur f s).freeCtr = s.freeCtr := rfl
@[simp] theorem modCur_latches (f : Cur → Cur) : (modCur f s).latches = s.latches := rfl
@[simp] theorem modCur_readData (f : Cur → Cur) : (modCur f s).readData = s.readData := rfl
@[simp] theorem modCur_readHigh (f : Cur → Cur) : (modCur f s).readHigh = s.readHigh := rfl
@[simp] theorem modCur_prior (f : Cur → Cur) : (modCur f s).prior = s.prior := rfl

/-! modTick -/

@[simp] theorem modTick_sys (g : Nat) (f : Tick → Tick) : (modTick g f s).sys = s.sys := rfl
@[simp] theorem modTick_hif (g : Nat) (f : Tick → Tick) : (modTick g f s).hif = s.hif := rfl
@[simp] theorem modTick_tbu (g : Nat) (f : Tick → Tick) : (modTick g f s).tbu = s.tbu := rfl
@[simp] theorem modTick_log (g : Nat) (f : Tick → Tick) : (modTick g f s).log = s.log := rfl
@[simp] theorem modTick_flt (g : Nat) (f : Tick → Tick) : (modTick g f s).flt = s.flt := rfl
@[simp] theorem modTick_swm (g : Nat) (f : Tick → Tick) : (modTick g f s).swm = s.swm := rfl
@[simp] theorem modTick_tkx (g : Nat) (f : Tick → Tick) : (modTick g f s).tkx = s.tkx := rfl
@[simp] theorem modTick_net (g : Nat) (f : Tick → Tick) : (modTick g f s).net = s.net := rfl
@[simp] theorem modTick_ing (g : Nat) (f : Tick → Tick) : (modTick g f s).ing = s.ing := rfl
@[simp] theorem modTick_aln (g : Nat) (f : Tick → Tick) : (modTick g f s).aln = { s.aln with ticks := s.aln.ticks.map fun t => if t.g = g then f t else t } := rfl
@[simp] theorem modTick_dfc (g : Nat) (f : Tick → Tick) : (modTick g f s).dfc = s.dfc := rfl
@[simp] theorem modTick_lse (g : Nat) (f : Tick → Tick) : (modTick g f s).lse = s.lse := rfl
@[simp] theorem modTick_osm (g : Nat) (f : Tick → Tick) : (modTick g f s).osm = s.osm := rfl
@[simp] theorem modTick_sep (g : Nat) (f : Tick → Tick) : (modTick g f s).sep = s.sep := rfl
@[simp] theorem modTick_ge (g : Nat) (f : Tick → Tick) : (modTick g f s).ge = s.ge := rfl
@[simp] theorem modTick_ala (g : Nat) (f : Tick → Tick) : (modTick g f s).ala = s.ala := rfl
@[simp] theorem modTick_pair (g : Nat) (f : Tick → Tick) : (modTick g f s).pair = s.pair := rfl
@[simp] theorem modTick_kst (g : Nat) (f : Tick → Tick) : (modTick g f s).kst = s.kst := rfl
@[simp] theorem modTick_mbx (g : Nat) (f : Tick → Tick) : (modTick g f s).mbx = s.mbx := rfl
@[simp] theorem modTick_image (g : Nat) (f : Tick → Tick) : (modTick g f s).image = s.image := rfl
@[simp] theorem modTick_pending (g : Nat) (f : Tick → Tick) : (modTick g f s).pending = s.pending := rfl
@[simp] theorem modTick_out (g : Nat) (f : Tick → Tick) : (modTick g f s).out = s.out := rfl
@[simp] theorem modTick_freeCtr (g : Nat) (f : Tick → Tick) : (modTick g f s).freeCtr = s.freeCtr := rfl
@[simp] theorem modTick_latches (g : Nat) (f : Tick → Tick) : (modTick g f s).latches = s.latches := rfl
@[simp] theorem modTick_readData (g : Nat) (f : Tick → Tick) : (modTick g f s).readData = s.readData := rfl
@[simp] theorem modTick_readHigh (g : Nat) (f : Tick → Tick) : (modTick g f s).readHigh = s.readHigh := rfl
@[simp] theorem modTick_prior (g : Nat) (f : Tick → Tick) : (modTick g f s).prior = s.prior := rfl

/-! setSlot -/

@[simp] theorem setSlot_sys (k : Nat) (x : Slot) : (setSlot k x s).sys = s.sys := by unfold setSlot; split <;> rfl
@[simp] theorem setSlot_hif (k : Nat) (x : Slot) : (setSlot k x s).hif = s.hif := by unfold setSlot; split <;> rfl
@[simp] theorem setSlot_tbu (k : Nat) (x : Slot) : (setSlot k x s).tbu = s.tbu := by unfold setSlot; split <;> rfl
@[simp] theorem setSlot_log (k : Nat) (x : Slot) : (setSlot k x s).log = s.log := by unfold setSlot; split <;> rfl
@[simp] theorem setSlot_flt (k : Nat) (x : Slot) : (setSlot k x s).flt = s.flt := by unfold setSlot; split <;> rfl
@[simp] theorem setSlot_swm (k : Nat) (x : Slot) : (setSlot k x s).swm = s.swm := by unfold setSlot; split <;> rfl
@[simp] theorem setSlot_tkx (k : Nat) (x : Slot) : (setSlot k x s).tkx = s.tkx := by unfold setSlot; split <;> rfl
@[simp] theorem setSlot_net (k : Nat) (x : Slot) : (setSlot k x s).net = s.net := by unfold setSlot; split <;> rfl
@[simp] theorem setSlot_ing (k : Nat) (x : Slot) :
    (setSlot k x s).ing = if x.gen = (slotOfKey s k).gen then s.ing else (restartWindows k s).ing := by unfold setSlot; split <;> rfl
@[simp] theorem setSlot_aln (k : Nat) (x : Slot) : (setSlot k x s).aln = s.aln := by unfold setSlot; split <;> rfl
@[simp] theorem setSlot_dfc (k : Nat) (x : Slot) : (setSlot k x s).dfc = s.dfc := by unfold setSlot; split <;> rfl
@[simp] theorem setSlot_lse (k : Nat) (x : Slot) : (setSlot k x s).lse = s.lse := by unfold setSlot; split <;> rfl
@[simp] theorem setSlot_osm (k : Nat) (x : Slot) : (setSlot k x s).osm = s.osm := by unfold setSlot; split <;> rfl
@[simp] theorem setSlot_sep (k : Nat) (x : Slot) : (setSlot k x s).sep = s.sep := by unfold setSlot; split <;> rfl
@[simp] theorem setSlot_ge (k : Nat) (x : Slot) : (setSlot k x s).ge = s.ge := by unfold setSlot; split <;> rfl
@[simp] theorem setSlot_ala (k : Nat) (x : Slot) : (setSlot k x s).ala = s.ala := by unfold setSlot; split <;> rfl
@[simp] theorem setSlot_pair (k : Nat) (x : Slot) : (setSlot k x s).pair = s.pair := by unfold setSlot; split <;> rfl
@[simp] theorem setSlot_kst (k : Nat) (x : Slot) : (setSlot k x s).kst = { s.kst with slots := setAt s.kst.slots k x } := by unfold setSlot; split <;> rfl
@[simp] theorem setSlot_mbx (k : Nat) (x : Slot) : (setSlot k x s).mbx = s.mbx := by unfold setSlot; split <;> rfl
@[simp] theorem setSlot_image (k : Nat) (x : Slot) : (setSlot k x s).image = s.image := by unfold setSlot; split <;> rfl
@[simp] theorem setSlot_pending (k : Nat) (x : Slot) : (setSlot k x s).pending = s.pending := by unfold setSlot; split <;> rfl
@[simp] theorem setSlot_out (k : Nat) (x : Slot) : (setSlot k x s).out = s.out := by unfold setSlot; split <;> rfl
@[simp] theorem setSlot_freeCtr (k : Nat) (x : Slot) : (setSlot k x s).freeCtr = s.freeCtr := by unfold setSlot; split <;> rfl
@[simp] theorem setSlot_latches (k : Nat) (x : Slot) : (setSlot k x s).latches = s.latches := by unfold setSlot; split <;> rfl
@[simp] theorem setSlot_readData (k : Nat) (x : Slot) : (setSlot k x s).readData = s.readData := by unfold setSlot; split <;> rfl
@[simp] theorem setSlot_readHigh (k : Nat) (x : Slot) : (setSlot k x s).readHigh = s.readHigh := by unfold setSlot; split <;> rfl
@[simp] theorem setSlot_prior (k : Nat) (x : Slot) : (setSlot k x s).prior = s.prior := by unfold setSlot; split <;> rfl

/-! kstCnt -/

@[simp] theorem kstCnt_sys (k n : Nat) : (kstCnt k n s).sys = s.sys := rfl
@[simp] theorem kstCnt_hif (k n : Nat) : (kstCnt k n s).hif = s.hif := rfl
@[simp] theorem kstCnt_tbu (k n : Nat) : (kstCnt k n s).tbu = s.tbu := rfl
@[simp] theorem kstCnt_log (k n : Nat) : (kstCnt k n s).log = s.log := rfl
@[simp] theorem kstCnt_flt (k n : Nat) : (kstCnt k n s).flt = s.flt := rfl
@[simp] theorem kstCnt_swm (k n : Nat) : (kstCnt k n s).swm = s.swm := rfl
@[simp] theorem kstCnt_tkx (k n : Nat) : (kstCnt k n s).tkx = s.tkx := rfl
@[simp] theorem kstCnt_net (k n : Nat) : (kstCnt k n s).net = s.net := rfl
@[simp] theorem kstCnt_ing (k n : Nat) : (kstCnt k n s).ing = s.ing := rfl
@[simp] theorem kstCnt_aln (k n : Nat) : (kstCnt k n s).aln = s.aln := rfl
@[simp] theorem kstCnt_dfc (k n : Nat) : (kstCnt k n s).dfc = s.dfc := rfl
@[simp] theorem kstCnt_lse (k n : Nat) : (kstCnt k n s).lse = s.lse := rfl
@[simp] theorem kstCnt_osm (k n : Nat) : (kstCnt k n s).osm = s.osm := rfl
@[simp] theorem kstCnt_sep (k n : Nat) : (kstCnt k n s).sep = s.sep := rfl
@[simp] theorem kstCnt_ge (k n : Nat) : (kstCnt k n s).ge = s.ge := rfl
@[simp] theorem kstCnt_ala (k n : Nat) : (kstCnt k n s).ala = s.ala := rfl
@[simp] theorem kstCnt_pair (k n : Nat) : (kstCnt k n s).pair = s.pair := rfl
@[simp] theorem kstCnt_kst (k n : Nat) : (kstCnt k n s).kst = { s.kst with cnt := modAt s.kst.cnt k (satAdd · n) } := rfl
@[simp] theorem kstCnt_mbx (k n : Nat) : (kstCnt k n s).mbx = s.mbx := rfl
@[simp] theorem kstCnt_image (k n : Nat) : (kstCnt k n s).image = s.image := rfl
@[simp] theorem kstCnt_pending (k n : Nat) : (kstCnt k n s).pending = s.pending := rfl
@[simp] theorem kstCnt_out (k n : Nat) : (kstCnt k n s).out = s.out := rfl
@[simp] theorem kstCnt_freeCtr (k n : Nat) : (kstCnt k n s).freeCtr = s.freeCtr := rfl
@[simp] theorem kstCnt_latches (k n : Nat) : (kstCnt k n s).latches = s.latches := rfl
@[simp] theorem kstCnt_readData (k n : Nat) : (kstCnt k n s).readData = s.readData := rfl
@[simp] theorem kstCnt_readHigh (k n : Nat) : (kstCnt k n s).readHigh = s.readHigh := rfl
@[simp] theorem kstCnt_prior (k n : Nat) : (kstCnt k n s).prior = s.prior := rfl

/-! pairCnt -/

@[simp] theorem pairCnt_sys (k n : Nat) : (pairCnt k n s).sys = s.sys := rfl
@[simp] theorem pairCnt_hif (k n : Nat) : (pairCnt k n s).hif = s.hif := rfl
@[simp] theorem pairCnt_tbu (k n : Nat) : (pairCnt k n s).tbu = s.tbu := rfl
@[simp] theorem pairCnt_log (k n : Nat) : (pairCnt k n s).log = s.log := rfl
@[simp] theorem pairCnt_flt (k n : Nat) : (pairCnt k n s).flt = s.flt := rfl
@[simp] theorem pairCnt_swm (k n : Nat) : (pairCnt k n s).swm = s.swm := rfl
@[simp] theorem pairCnt_tkx (k n : Nat) : (pairCnt k n s).tkx = s.tkx := rfl
@[simp] theorem pairCnt_net (k n : Nat) : (pairCnt k n s).net = s.net := rfl
@[simp] theorem pairCnt_ing (k n : Nat) : (pairCnt k n s).ing = s.ing := rfl
@[simp] theorem pairCnt_aln (k n : Nat) : (pairCnt k n s).aln = s.aln := rfl
@[simp] theorem pairCnt_dfc (k n : Nat) : (pairCnt k n s).dfc = s.dfc := rfl
@[simp] theorem pairCnt_lse (k n : Nat) : (pairCnt k n s).lse = s.lse := rfl
@[simp] theorem pairCnt_osm (k n : Nat) : (pairCnt k n s).osm = s.osm := rfl
@[simp] theorem pairCnt_sep (k n : Nat) : (pairCnt k n s).sep = s.sep := rfl
@[simp] theorem pairCnt_ge (k n : Nat) : (pairCnt k n s).ge = s.ge := rfl
@[simp] theorem pairCnt_ala (k n : Nat) : (pairCnt k n s).ala = s.ala := rfl
@[simp] theorem pairCnt_pair (k n : Nat) : (pairCnt k n s).pair = { s.pair with cnt := modAt s.pair.cnt k (satAdd · n) } := rfl
@[simp] theorem pairCnt_kst (k n : Nat) : (pairCnt k n s).kst = s.kst := rfl
@[simp] theorem pairCnt_mbx (k n : Nat) : (pairCnt k n s).mbx = s.mbx := rfl
@[simp] theorem pairCnt_image (k n : Nat) : (pairCnt k n s).image = s.image := rfl
@[simp] theorem pairCnt_pending (k n : Nat) : (pairCnt k n s).pending = s.pending := rfl
@[simp] theorem pairCnt_out (k n : Nat) : (pairCnt k n s).out = s.out := rfl
@[simp] theorem pairCnt_freeCtr (k n : Nat) : (pairCnt k n s).freeCtr = s.freeCtr := rfl
@[simp] theorem pairCnt_latches (k n : Nat) : (pairCnt k n s).latches = s.latches := rfl
@[simp] theorem pairCnt_readData (k n : Nat) : (pairCnt k n s).readData = s.readData := rfl
@[simp] theorem pairCnt_readHigh (k n : Nat) : (pairCnt k n s).readHigh = s.readHigh := rfl
@[simp] theorem pairCnt_prior (k n : Nat) : (pairCnt k n s).prior = s.prior := rfl

end Sys2Proof.Machine
end

