-- ==== Sys2Proof/Tests/Base.lean ====
section
/-! SUPPORT. States and operands that the tests start from. -/

namespace Sys2Proof.Tests

open Sys2Proof.Machine

/-- Ring 0 CMD and ring 2 INJECT with one descriptor each, ring 1 COMPL, ring 3 STREAM, of 16 entries each. -/
def rings4 : List Ring :=
  [{ Ring.reset with cfg := 0x84040000#32, tail := 1 }, { Ring.reset with cfg := 0xA4000000#32 },
   { Ring.reset with cfg := 0xE4040000#32, tail := 1 }, { Ring.reset with cfg := 0xC4000000#32 }] ++ List.replicate 60 Ring.reset

/-- 1 s in 2^-16 ns. -/
def sec : Nat := 65536000000000

/-- A module with power and READY in a run state, its rings open and the bus on. -/
def inState (r : RunState) : State :=
  { State.reset with
    sys := { Sys.reset with powered := true, ready := true, runState := r, rate := 50, dp := 1000 }
    hif := { Hif.reset with rings := rings4, bme := true, msixEn := true }
    log := { Log.reset with active := true, seqNext := 1, oldest := 1 }
    tbu := { Tbu.reset with running := true, free := 2 * sec }
    flt := { Flt.reset with low := false } }

def cfgS : State := inState .config
/-- RUN at 50 ticks a second, disciplined time 2 s: tick 100, next to commit, is at the present, and the front is 101. -/
def runS : State := { inState .run with aln := { Aln.reset with placing := true, next := 100, front := 101, horizon := 64 } }
def maintS : State := inState .maintenance
def safeS : State := { inState .safe with flt := { Flt.reset with fatal := true } }

/-- RUN with tick 99 in progress. -/
def curS : State :=
  { runS with tkx := { Tkx.reset with lastSeq := some 0, nextSeq := 1, phase := 1, cur := some (newCur 99 0 false runS) } }

/-- A descriptor at the head of ring 0 with these parameters. -/
def descP (p : Nat) : Desc :=
  { read := .good, ring := 0, tag := 0x2A#32, irq := false, sched := false, schedSec := 0, schedNs := 0, params := BitVec.ofNat 384 p }
def desc0 : Desc := descP 0

/-- A minimal image: F = 50, no endpoints, no tasks. -/
def img : Image :=
  { magic := [], format := 1, length := 256, seq := 7#32, signer := 9#32, target := 0, table := [], bodyHash := 0, sigR := 1, sigS := 1,
    digest := 3#64, hash := 0#256, hier := { rate := 50, systems := [(0, 50000)], zones := [] }
    tick := { budgets := { commit := 150, solve := 900, analyze := 500, emit := 300, sep := 100 }, tasks := [] }
    fast := { entries := [], chans := [], placed := true }, slow := []
    align := { waitMin := none, waitMax := none, quorum := [], horizon := 0, resolve := false, outRing := [] }
    dfc := none, lse := none, osm := none, sep := none, ala := none, output := none, pair := none }

/-- CONFIG with that image and the time set. -/
def imgS : State := { cfgS with image := some img, tbu := { cfgS.tbu with timeSet := true } }

/-- A chain with nothing staged. -/
def chain0 : Chain :=
  { entry := 0#512, bankA := [], bankB := [], nA := 1, nB := 1, actB := false, swap := none, line := [], lastTrue := 0, warm := 0,
    upper := Comp.reset, lower := Comp.reset, lastG := 0, lastY := 0, flags := 0 }

/-- A key slot that is VALID. -/
def validSlot : Slot := { Slot.reset with st := .valid, gen := 1, hi := 1, usage := 1, val := [1#8] }

/-- Slot 1 VALID, slot 2 its child, slot 3 VALID of type 4, in DEVELOPMENT. -/
def keyS : State :=
  { cfgS with kst := { Kst.reset with
      lc := [(0, []), (1, [])], rootOk := true, root := some 5#256
      slots := [Slot.reset, validSlot, { validSlot with parent := 1, parGen := 1, level := 1 }, { validSlot with typ := 4 }] ++
        List.replicate 60 Slot.reset } }

/-- The active module of a pair whose peer is STANDBY, and a standby. -/
def pairOf (st : PairSt) (s : State) : State :=
  { s with pair := { Pair.reset with st := st, role := 1, peerSt := 3, peerRole := 2, lane0 := true, cfg := 0x311#32 } }
def activeS : State := pairOf .active runS
def standbyS : State := pairOf .standby runS
def syncingS : State := pairOf .syncing runS

end Sys2Proof.Tests
end

