-- ==== Sys2Proof/Tests/WitnessHost.lean ====
section
/-! SUPPORT. States and operands that meet the hypotheses of the statements about doorbells, registers, mailboxes and locks. -/

namespace Sys2Proof.Tests

set_option Elab.async false

open Sys2Proof.Machine

theorem witness_DoorbellMovesIndex :
    barOpen State.reset = false ∧ barOpen cfgS = true ∧ (⟨0xFC00, 32⟩ : Access).aligned = true ∧ (⟨0xFC00, 64⟩ : Access).aligned = true ∧
      0xFC00 % 0x400 = 0 ∧ 0xFC00 / 0x400 = 63 ∧ (⟨0xFC00, 16⟩ : Access).aligned = false ∧ 0xFC04 % 0x400 ≠ 0 ∧ (ringOf cfgS 63).enabled = false ∧ (ringOf cfgS 0).enabled = true ∧ (ringOf cfgS 0).host = true ∧
      (15#64).toNat % 65536 < (ringOf cfgS 0).size ∧ (ringOf cfgS 0).size ≤ (0x10010#64).toNat % 65536 ∧ (ringOf cfgS 3).enabled = true ∧ (ringOf cfgS 3).host = false ∧
      ((0#64).toNat % 65536 + (ringOf cfgS 3).size - (ringOf cfgS 3).head) % (ringOf cfgS 3).size ≤ (ringOf cfgS 3).used ∧
      (ringOf cfgS 3).used < ((1#64).toNat % 65536 + (ringOf cfgS 3).size - (ringOf cfgS 3).head) % (ringOf cfgS 3).size := by decide +kernel

def lockedS : State := { cfgS with sys := { cfgS.sys with locked := true } }

theorem witness_RingEnableDisable :
    63 < cfgS.hif.rings.length ∧ barOpen cfgS = true ∧ hifWritable lockedS = false ∧ hifWritable cfgS = true ∧ (ringOf cfgS 63).enabled = false ∧
      (ringOf cfgS 63).held = [] ∧ (ringOf cfgS 63).staged = [] ∧ (ringOf cfgS 3).enabled = true ∧ (ringOf cfgS 3).type = .stream := by decide +kernel

/-- Ring 3 with its vector enabled, coalescing after 1 µs, one entry not signalled since 2 s - 1 µs. -/
def coalS : State := modRing 3 (fun r => { r with cfg := 0xC4000800#32, coal := 0x00010001#32, coalAt := some (2 * sec - 1000 * 65536) }) cfgS
def unmaskedS : State := { coalS with hif := { coalS.hif with msix := List.replicate 256 0#32 } }

theorem witness_DeadlineAndIrqTimers :
    coalS.sys.ready = true ∧ (ringOf coalS 3).coalAt = some (2 * sec - 1000 * 65536) ∧ fld (ringOf coalS 3).coal.toNat 31 16 = 1 ∧
      2 * sec - 1000 * 65536 + 1 * 1000 * fr ≤ (elapse 0 coalS).tbu.free ∧ (ringOf coalS 3).irqEn = true ∧ coalS.hif.msixEn = true ∧
      vecMasked coalS (ringOf coalS 3).vector = true ∧ unmaskedS.hif.msixMask = false ∧ vecMasked unmaskedS (ringOf unmaskedS 3).vector = false ∧
      busOn unmaskedS = true := by decide +kernel
theorem witness_BusConfiguration :
    cfgS.sys.powered = true ∧ cfgS.hif.d3hot = false ∧ cfgS.hif.bme = true ∧ cfgS.hif.msix.length = 256 ∧ barOpen cfgS = true ∧
      ({ cfgS with hif := { cfgS.hif with pba := 0x8000000000000000#64 } } : State).hif.pba.getLsbD 63 = true ∧ cfgS.hif.pba.getLsbD 0 = false ∧
      cfgS.hif.msixEn = true ∧ cfgS.hif.msixMask = false ∧ busOn cfgS = true := by decide +kernel

def accAt (a : Nat) : Option Acc := (regAt a).map fun r => r.1.acc
def plainAt (a : Nat) : Bool := match regAt a with
  | some (r, _) => r.act.isNone
  | none => false

/-- Accesses of 32 and 64 bits, aligned and not, and of 16 bits. SYS_ID reads only; SYS_GUARANTEE is RWL, SYS_RESET write-only, HIF_EVENT write-1-to-clear, HIF_EVENT_EN read/write, HIF_CNT read-clear;
0x10064 is the high word of a value latched by its low word; 0x8 and 0x1 are no register. -/
theorem witness_RegisterAccess :
    barOpen cfgS = true ∧ (⟨0x10080, 32⟩ : Access).aligned = true ∧ (⟨0x10060, 64⟩ : Access).aligned = true ∧ (⟨0x10064, 64⟩ : Access).aligned = false ∧
      (⟨0x10080, 16⟩ : Access).aligned = false ∧ accAt 0x8 = none ∧ accAt 0x1 = none ∧ accAt 0x0 = some .ro ∧ accAt 0x10 = some .rwl ∧ rwlOpen 0 cfgS = true ∧
      rwlOpen 0 lockedS = false ∧ accAt 0x20 = some .wo ∧ accAt 0x10010 = some .w1c ∧ accAt 0x10014 = some .rw ∧ accAt 0x10080 = some .rc ∧
      isLatched 0x10080 = false ∧ plainAt 0x10080 = true ∧ isLatched 0x10064 = true ∧ plainAt 0x10060 = true ∧ isLatched 0x10060 = false := by
  decide +kernel
theorem witness_ClosedBeforeReady : State.reset.sys.ready = false := by decide

/-- Mailbox 0 full towards the core, one word towards the host that is seen. -/
def mbxS : State :=
  modChan 0 (fun m => { m with fwd := { m.fwd with q := List.replicate 8 ⟨1#32, 0⟩ }, back := { m.back with q := [⟨0xABCD#32, 2 * sec⟩] } }) cfgS

theorem witness_MailboxWords :
    mbxS.mbx.chans.length = 14 ∧ barOpen mbxS = true ∧ mbxS.sys.ready = true ∧ (chanOf mbxS 0).fwd.space (2 * sec) = 0 ∧
      (chanOf mbxS 3).fwd.space (2 * sec) ≠ 0 ∧ (chanOf mbxS 0).back.q = [⟨0xABCD#32, 2 * sec⟩] ∧ (chanOf mbxS 3).back.q = [] ∧
      ((chanOf mbxS 13).dir true).space (2 * sec) ≠ 0 ∧ ((chanOf mbxS 0).dir true).q = [⟨0xABCD#32, 2 * sec⟩] := by decide +kernel

/-- Mailbox 13 with a timer whose 10 ms end now. -/
def ackS : State := modChan 13 (fun m => { m with fwd := { m.fwd with timer := some ⟨5, 2 * sec - 10 * 1000000 * 65536⟩ } }) cfgS

theorem witness_MailboxAcks :
    ackS.mbx.chans.length = 14 ∧ barOpen ackS = true ∧ ((chanOf ackS 13).dir false).timer = some ⟨5, 2 * sec - 10 * 1000000 * 65536⟩ ∧
      2 * sec - 10 * 1000000 * 65536 - 1 + ackMs ackS * 1000000 * fr < (elapse 0 ackS).tbu.free ∧
      (elapse 0 ackS).tbu.free ≤ 2 * sec - 10 * 1000000 * 65536 + ackMs ackS * 1000000 * fr ∧ ((chanOf ackS 3).dir true).timer = none := by
  decide +kernel
theorem witness_MailboxLocks :
    cfgS.sys.ready = true ∧ cfgS.mbx.locks.length = 16 ∧ barOpen cfgS = true ∧ nth cfgS.mbx.locks 15 none = none ∧
      nth ({ cfgS with mbx := { cfgS.mbx with locks := setAt cfgS.mbx.locks 15 (some 4) } } : State).mbx.locks 15 none = some 4 := by decide +kernel


end Sys2Proof.Tests
end

