-- ==== Sys2Proof/Tests/WitnessNet.lean ====
section
/-! SUPPORT. States and operands that meet the hypotheses of the statements about the ports and the Sextant. -/

namespace Sys2Proof.Tests

set_option Elab.async false

open Sys2Proof.Machine

/-- A frame of n bytes with a good FCS and an EtherType of no protocol, and one whose FCS is bad. -/
def goodFrame (n : Nat) : List Byte :=
  let b : List Byte := List.replicate 12 0#8 ++ [0x88#8, 0xB8#8] ++ List.replicate (n - 18) 0#8
  b ++ toLE 4 (crc32 b).toNat
def badFrame : List Byte := (goodFrame 64).take 63 ++ [(goodFrame 64).getD 63 0#8 + 1#8]

/-- CONFIG with port 0 up at 10 Gb/s. -/
def netS : State := modPort 0 (fun q => { q with cfg := 0x00020203#32, linkUp := true, speed := 3 }) cfgS

theorem witness_FrameReceived :
    netS.sys.ready = true ∧ netS.net.ports.length = 4 ∧ bridged netS 0 = false ∧ (portOf netS 1).linkUp = false ∧ (portOf netS 0).linkUp = true ∧
      (goodFrame 64).length = 64 ∧ (portOf netS 0).max = 1522 ∧ (goodFrame 1522).length = 1522 ∧ paired netS 0 = false ∧
      (crc32 (badFrame.take 60)).toNat ≠ leNat (badFrame.drop 60) ∧ (portOf netS 0).deliverBad = false ∧
      (crc32 ((goodFrame 64).take 60)).toNat = leNat ((goodFrame 64).drop 60) ∧ beAt (goodFrame 64) 12 2 ∉ [0x88A8, 0x8100, 0x8808, 0x88F7] ∧
      judgeIp (beAt (goodFrame 64) 12 2) (((goodFrame 64).take 60).drop 14) = .ok ∧ (portOf netS 0).rx.length < 64 := by decide +kernel

def frame0 : TxFrame := TxFrame.plain (List.replicate 60 0#8)
def txS : State := modPort 0 (fun q => { q with express := [frame0] }) netS
def preS : State := modPort 0 (fun q => { q with pre := [frame0] }) netS
/-- A shift of port 0 to another rate waits for the line. -/
def shiftS : State := modPort 0 (fun q => { q with dsPend := some true }) netS
def suspS : State := modPort 0 (fun q => { q with suspended := some ⟨frame0, false, 0, 60, true⟩ }) netS

theorem witness_FrameTransmitted :
    (portOf netS 3).linkUp = false ∧ (portOf txS 0).linkUp = true ∧ pausedNow (elapse 0 txS) 0 = false ∧ (portOf txS 0).wakeAt ≤ (elapse 0 txS).tbu.free ∧
      (portOf txS 0).line = none ∧ (portOf txS 0).dsPend = none ∧ (portOf shiftS 0).dsPend = some true ∧ (portOf shiftS 0).suspended = none ∧ frame0.mark = .none ∧ (portOf txS 0).express = frame0 :: [] ∧ (portOf preS 0).express = [] ∧
      (portOf preS 0).suspended = none ∧ (portOf preS 0).pre = frame0 :: [] ∧ (portOf suspS 0).express = [] ∧
      (portOf suspS 0).suspended = some ⟨frame0, false, 0, 60, true⟩ := by decide +kernel
/-- Port 1 down in mode 3 with auto-negotiation. -/
def downS : State := modPort 1 (fun q => { q with cfg := 0x203#32 }) netS
theorem witness_LinkChanges :
    netS.sys.laneBad.testBit 1 = false ∧ (portOf downS 1).linkUp = false ∧ (portOf downS 1).mode = 3 ∧ (portOf downS 1).anEn = true ∧ clause73 3 = true ∧
      ({ netS with sys := { netS.sys with laneBad := 8 } } : State).sys.laneBad.testBit 3 = true ∧ (portOf netS 0).linkUp = true ∧
      (portOf netS 3).mode = 0 ∧ (portOf (modPort 0 (fun q => { q with pause := some (0, 5) }) netS) 0).pause = some (0, 5) := by decide +kernel

def verS (n : Nat) : State := modPort 0 (fun q => { q with verify := .verifying, verifyAt := 2 * sec, attempts := n }) netS
def lpiS : State := modPort 0 (fun q => { q with lpi := 0x641#32, eee := true, idleAt := 2 * sec - 100 * 1000 * 65536 }) netS
def dsS : State := modPort 0 (fun q => { q with cfg := 0x00020206#32, speed := 6, ds := 0x01461401#32, dsAt := sec }) netS

theorem witness_PortTimers :
    (portOf (verS 2) 0).verify = .verifying ∧ (portOf (verS 2) 0).verifyAt ≤ (elapse 0 (verS 2)).tbu.free ∧ (portOf (verS 2) 0).attempts < 3 ∧
      3 ≤ (portOf (verS 3) 0).attempts ∧ (portOf lpiS 0).linkUp = true ∧ bitOf (portOf lpiS 0).lpi 0 = true ∧ (portOf lpiS 0).eee = true ∧
      (portOf lpiS 0).lpiTx = false ∧ (portOf lpiS 0).line = none ∧ (portOf lpiS 0).suspended = none ∧ (portOf lpiS 0).express = [] ∧
      (portOf lpiS 0).pre = [] ∧ (portOf lpiS 0).todo = [] ∧ 10000 ≤ mbpsOf (portOf lpiS 0).speed ∧
      (portOf lpiS 0).idleAt + fld (portOf lpiS 0).lpi.toNat 15 4 * 1000 * fr ≤ (elapse 0 lpiS).tbu.free ∧
      (portOf dsS 0).dsAt + secFr ≤ (elapse 0 dsS).tbu.free ∧ (portOf dsS 0).dsEn = true ∧ (portOf dsS 0).anEn = true ∧ (portOf dsS 0).mode = 6 ∧
      (portOf dsS 0).dsPend = none ∧ (portOf dsS 0).dsActive = false ∧ sending (portOf dsS 0) (2 * sec) = false ∧
      (portOf dsS 0).dsTx = (portOf dsS 0).dsRx ∧ (portOf dsS 0).dsRx * 800 < fld (portOf dsS 0).ds.toNat 15 8 * 10000000000 ∧ fld (portOf dsS 0).ds.toNat 31 24 ≤ (portOf dsS 0).dsLow + 1 ∧
      (portOf netS 0).dsEn = false ∧ barOpen dsS = true ∧ bitOf (0x01141401#32 : Word) 0 = true ∧ fld (0x01141401#32 : Word).toNat 23 16 ≤ fld (0x01141401#32 : Word).toNat 15 8 ∧
      bitOf (0x01141400#32 : Word) 0 = false ∧
      fld (0x01151401#32 : Word).toNat 15 8 < fld (0x01151401#32 : Word).toNat 23 16 := by decide +kernel

/-! Time -/

def ann0 : Announce :=
  { source := ⟨1#64, 1#16⟩, logInt := 0, utcOffset := 37, leap61 := false, leap59 := false, utcValid := true, prio1 := 128, clsAcc := 0, prio2 := 128,
    gm := 1#64, steps := 0 }
def gm0 : Foreign := { port := 0, ann := ann0, times := [0, 0] }
/-- Domain A on port 0, number 0, with a grandmaster. -/
def domS (st : DomState) : State :=
  { cfgS with tbu := { cfgS.tbu with domA := { Dom.reset with dcfg := 0x11000#32, st := st, gm := some gm0, lastSync := some 0, firstAcq := true } } }
def sync0 (two : Bool) (l : Int) : SyncIn :=
  { port := 0, num := 0, source := ⟨1#64, 1#16⟩, seq := 5, twoStep := two, t1 := ⟨2, 0⟩, corr := 0, logInt := l }
def pend0 : SyncPend := { port := 0, source := ⟨1#64, 1#16⟩, seq := 5, corr := 0, t2 := 0, freeAt := 0, logInt := 0 }
def pendS : State := { domS .locked with tbu := { (domS .locked).tbu with domA := { (domS .locked).tbu.domA with twoStep := some pend0 } } }
def fup0 : FollowUpIn := { port := 0, num := 0, source := ⟨1#64, 1#16⟩, seq := 5, t1 := ⟨2, 0⟩, corr := 0 }

theorem witness_SyncSteersWithoutStep :
    accepts .a 0 0 (domS .locked) = true ∧ accepts .b 0 0 (domS .locked) = false ∧ fromParent (getDom .a (domS .locked)) (sync0 false 1).source 0 = true ∧
      (-4 : Int) ≤ (sync0 false (-4)).logInt ∧ (sync0 false 1).logInt ≤ 1 ∧ (getDom .a (domS .locked)).st = .locked ∧
      (sync0 false 1).twoStep = false ∧ (sync0 true 1).twoStep = true ∧
      isPathStep (getDom .a (domS .locked)) (meanLink (domS .locked) 0 + (sync0 false 1).corr) 1000 = false ∧
      isPathStep { getDom .a (domS .locked) with dRef := [0] } 65536000 1000 = false ∧ isPathStep { getDom .a (domS .locked) with dRef := [0] } 65536001 1000 = true ∧
      (getDom .a pendS).twoStep = some pend0 ∧ (getDom .b pendS).twoStep = none ∧ accepts .a fup0.port fup0.num pendS = true ∧ pend0.port = fup0.port ∧
      pend0.source = fup0.source ∧ pend0.seq = fup0.seq ∧ (getDom .a pendS).st = .locked := by decide +kernel

def freeDomS : State :=
  { domS .freerun with tbu := { (domS .freerun).tbu with domA := { (domS .freerun).tbu.domA with gm := none, foreign := [{ gm0 with times := [sec] }] } } }

/-- Domain A in DEAD_RECKONING after a dwell, on the rate of its frequency. -/
def drS : State :=
  { domS .deadReckoning with tbu := { (domS .deadReckoning).tbu with domA := { (domS .deadReckoning).tbu.domA with rate := rateOf 0 } } }

theorem witness_SourceStates :
    accepts .a 0 0 (domS .acquire) = true ∧ accepts .b 0 0 (domS .acquire) = false ∧ fromParent (getDom .a (domS .acquire)) (sync0 false 0).source 0 = true ∧
      (getDom .a (domS .acquire)).firstAcq = true ∧ isSel .a (domS .acquire) = true ∧ (domS .acquire).tbu.timeSet = false ∧
      (domS .acquire).sys.runState ≠ .run ∧ (getDom .a (domS .acquire)).dRef = [] ∧ (getDom .a (domS .acquire)).good = 0 ∧
      (getDom .a drS).st = .deadReckoning ∧ (getDom .a drS).rate = rateOf (getDom .a drS).freq ∧ (domS .acquire).hif.sched = [] ∧
      (sync0 false 0).twoStep = false ∧ (getDom .a freeDomS).st = .freerun ∧ (getDom .a freeDomS).gm = none ∧
      (bestOf (noteForeign 0 ann0 (2 * sec) (getDom .a freeDomS).foreign) (2 * sec)).isSome = true ∧
      (getDom .a { domS .locked with tbu := { (domS .locked).tbu with free := 3 * sec } }).gm = some gm0 ∧
      gm0.times.headD 0 + 3 * intervalFr gm0.ann.logInt ≤ 3 * sec ∧ (getDom .a (domS .requalify)).lastSync = some 0 ∧
      0 + 3 * intervalFr (getDom .a (domS .requalify)).syncLog ≤ 3 * sec ∧ (getDom .b (domS .locked)).st ≠ .locked := by decide +kernel

def pdS : State :=
  let s := domS .locked
  modPort 0 (fun q => { q with linkUp := true, speed := 3 }) { s with tbu := { s.tbu with pdelay := modAt s.tbu.pdelay 0 fun d => { d with t1 := some 5 } } }

theorem witness_PdelayMeasured :
    pdS.sys.ready = true ∧ pdS.net.ports.length = 4 ∧ pdS.tbu.pdelay.length = 4 ∧ pdelayOn pdS 0 = true ∧ (portOf pdS 0).linkUp = true ∧
      (portOf pdS 0).express.length < 1088 ∧ (portOf pdS 0).lpiTx = false ∧ (nth pdS.tbu.pdelay 0 Pdelay.reset).t1 = some 5 := by decide +kernel

def ppsS (p : Pps) : State := { cfgS with tbu := { cfgS.tbu with pps := p, timeSet := true } }

/-- The last accepted edge a while ago, in 2^-16 ns; and another edge a while ago. -/
def accS (a : Nat) : State := ppsS { Pps.reset with lastAcc := some (2 * sec - a) }
def riseS (a : Nat) : State := ppsS { Pps.reset with rise := some (2 * sec - a) }
/-- Domain A left LOCKED at instant 0, with a limit of 1 s. -/
def heldS : State := { domS .deadReckoning with tbu := { (domS .deadReckoning).tbu with holdLimit := 1#32, domA := { (domS .deadReckoning).tbu.domA with leftLocked := some 0 } } }

theorem witness_PpsInAndHoldover :
    bitOf Pps.reset.cfg 1 = true ∧ bitOf ({ Pps.reset with cfg := 0#32 } : Pps).cfg 1 = false ∧ Pps.reset.rise = none ∧ Pps.reset.lastAcc = none ∧
      (accS (secFr + 100000 * fr)).tbu.pps.lastAcc.map (fun t => decide (t + secFr - 100000 * fr ≤ 2 * sec ∧ 2 * sec ≤ t + secFr + 100000 * fr)) = some true ∧
      (accS (secFr - 100000 * fr)).tbu.pps.lastAcc.map (fun t => decide (t + secFr - 100000 * fr ≤ 2 * sec ∧ 2 * sec ≤ t + secFr + 100000 * fr)) = some true ∧
      (accS (secFr + 100000 * fr + 1)).tbu.pps.lastAcc.map (fun t => decide (2 * sec ≤ t + secFr + 100000 * fr)) = some false ∧
      (riseS (500 * fr)).tbu.pps.rise.map (fun t => decide (t + 500 * fr ≤ 2 * sec)) = some true ∧
      (riseS (500 * fr - 1)).tbu.pps.rise.map (fun t => decide (t + 500 * fr ≤ 2 * sec)) = some false ∧
      (accS (2 * secFr)).tbu.pps.lastAcc = some 0 ∧ 0 + 2 * secFr ≤ (elapse 0 (accS (2 * secFr))).tbu.free ∧
      (selDom heldS).leftLocked = some 0 ∧ 0 + fld heldS.tbu.holdLimit.toNat 15 0 * secFr < heldS.tbu.free ∧ suspectHeld heldS = true ∧
      suspectHeld (ppsS Pps.reset) = false := by decide +kernel
theorem witness_PpsOut :
    bitOf (ppsS Pps.reset).tbu.pps.cfg 0 = true ∧ (ppsS Pps.reset).tbu.timeSet = true ∧ (ppsS Pps.reset).tbu.pps.holdTo = none ∧
      (ppsS Pps.reset).tbu.pps.lastSec ≠ some (discTime (elapse 0 (ppsS Pps.reset)) / (secFr : Int)) ∧ cfgS.tbu.timeSet = false ∧
      (ppsS { Pps.reset with fallAt := some sec }).tbu.pps.fallAt = some sec ∧ (ppsS Pps.reset).tbu.pps.fallAt = none := by decide +kernel
theorem witness_TimeRegisters :
    barOpen cfgS = true ∧ bitOf (1#32 : Word) 0 = true ∧ bitOf (0#32 : Word) 0 = false ∧ bitOf (1#32 : Word) 1 = false ∧ isSel .b cfgS = false ∧
      (getDom .b cfgS).st = .disabled ∧ bitOf (0x10000#32 : Word) 16 = !(getDom .a cfgS).enabled ∧ bitOf (0#32 : Word) 16 = !(getDom .a (domS .locked)).enabled ∧
      (ppsS Pps.reset).sys.ready = true ∧ (ppsS Pps.reset).tbu.timeSet = true ∧
      ({ ppsS Pps.reset with tbu := { (ppsS Pps.reset).tbu with suspect := false } } : State).tbu.suspect = false ∧ (ppsS Pps.reset).kst.rtcWr = none := by
  decide +kernel

end Sys2Proof.Tests
end

