-- ==== Sys2Proof/Tests/WitnessPair.lean ====
section
/-! SUPPORT. States and operands that meet the hypotheses of the statements about faults, the Logbook, the key store, power and the pair. -/

namespace Sys2Proof.Tests

set_option Elab.async false

open Sys2Proof.Machine

/-! Faults -/

/-- A detected error of a code, in no reaction and of no input, with a domain of its own. -/
def faultOf (code dom : Nat) : FaultIn :=
  { code := code, detail := 0, domain := dom, region := .other, unit := 0, reactionOf := none, inputOf := none, hits := [] }
def rec7 : FaultRec :=
  { id := 1, detail := 0, code := 8, domain := 7, cls := 2, escalated := false, cleared := false, conseq := false, reaction := 3, result := 0, mode := 0,
    mergeCnt := 0, mergeSrc := 0, epoch := 0, tickSeq := 0, ts32 := 0, at_ := 0 }
def rec5 : FaultRec := { rec7 with code := 4, domain := 5 }
/-- Windows of domains 7 and 5 are open, their resets over at 2 s and 2 s + 1. -/
def winS : State :=
  { runS with flt := { runS.flt with low := true, live := [rec7, { rec5 with id := 2 }], nextId := 3
                                     wins := [⟨1, 7, 0, 2 * sec, false⟩, ⟨2, 5, 0, 2 * sec + 1, false⟩] } }
def maskS : State := { winS with flt := { winS.flt with masked := [(7, 2 * sec + 1)] } }

/-- Codes 9, 8 and 1 are of classes 3, 2 and 1; 8 in domain 7 is a restart, met by the open window; 0x17 is no code. -/
theorem witness_FaultRecorded :
    runS.sys.ready = true ∧ runS.sys.runState ≠ .init ∧ runS.flt.hist.length = 16 ∧ runS.flt.cnt.length = 8 ∧ 9 ∈ faultCodes ∧ 8 ∈ faultCodes ∧
      1 ∈ faultCodes ∧ 0x17 ∉ faultCodes ∧ homeDomain 8 = some 7 ∧ classOf 9 11 = 3 ∧ classOf 8 7 = 2 ∧ classOf 1 7 = 1 ∧
      maskedNow (elapse 0 runS) 7 = false ∧ meets 7 (elapse 0 runS) = false ∧ meets 7 (elapse 0 winS) = true ∧ reactionFor (faultOf 8 7) 7 = rRestart ∧
      reactionFor (faultOf 1 7) 7 ≠ rRestart ∧ maskedNow (elapse 0 maskS) 7 = true ∧ maskedNow (elapse 1 maskS) 7 = false ∧ outsideDetector 8 = false ∧
      winOf winS 7 = some ⟨1, 7, 0, 2 * sec, false⟩ ∧ safeS.sys.runState = .safe ∧ safeS.sys.ready = true := by decide +kernel

def solveCfg : TaskCfg := { num := 5, prio := 7, phase := 2, flow := none, unit := 0, cost := 1, work := .lseSolve }
/-- A replay of no packets that began at 1 s. -/
def replayS : State := { runS with sys := { runS.sys with guarEff := 2, replayUs := 900000 }, aln := { runS.aln with replay := some ([], sec) } }

theorem witness_RecoveryRows :
    (winS.flt.wins.find? fun w => decide (w.domain = 7) && !w.waits) = some ⟨1, 7, 0, 2 * sec, false⟩ ∧ liveFault winS 1 = some rec7 ∧
      2 * sec ≤ (elapse 0 winS).tbu.free ∧ (winS.flt.wins.find? fun w => decide (w.domain = 5) && !w.waits) = some ⟨2, 5, 0, 2 * sec + 1, false⟩ ∧
      liveFault winS 2 = some { rec5 with id := 2 } ∧ winS.aln.replay = none ∧ (elapse 0 winS).tbu.free < 2 * sec + 1 ∧ taskFollows 7 winS = false ∧
      taskFollows 7 { winS with tkx := { winS.tkx with tasks := [solveCfg] } } = true ∧ replayS.aln.replay = some ([], sec) ∧ winOf replayS 5 = none ∧
      replayS.sys.guarEff = 2 ∧ sec + resetLen 5 + replayS.sys.replayUs * 1000 * fr ≤ (elapse 0 replayS).tbu.free ∧
      (elapse 0 replayS).tbu.free < 2 * sec + resetLen 5 ∧ runS.sys.guarEff ≠ 2 ∧ (winS.flt.live.map FaultRec.id).Nodup ∧ barOpen winS = true ∧
      cfgS.sys.runState = .config ∧ barOpen cfgS = true ∧ cfgS.flt.masked = [] ∧ injectable (fld 0x02 7 0) (fld 0x02 11 8) = false ∧
      injectable (fld 0xC02 7 0) (fld 0xC02 11 8) = true ∧ injectable (fld 0x009 7 0) (fld 0x009 11 8) = true ∧
      classOf (fld 0x009 7 0) ((homeDomain (fld 0x009 7 0)).getD (fld 0x009 11 8)) = 3 := by decide +kernel

/-- Tick 98 is overdue by more than WAIT_MAX and 1 ms. -/
def overdueS : State := { runS with aln := { runS.aln with next := 98 }, swm := { runS.swm with waitMax := 39000000 } }
def lateMarkS (a : Nat) : State := { curS with tkx := { curS.tkx with cur := some { newCur 99 0 false runS with at_ := a } } }

theorem witness_SafetyWatchRows :
    ticking overdueS = true ∧
      tmReached (frate overdueS) 98 ((overdueS.swm.waitMax * fr + msFr : Nat) : Int) (discTime (elapse 0 overdueS) - jumped overdueS) = true ∧
      tmReached (frate runS) 100 ((runS.swm.waitMax * fr + msFr : Nat) : Int) (discTime (elapse 0 runS) - jumped runS) = false ∧
      ticking cfgS = false ∧ runS.tkx.cur = none ∧ runS.sys.runState = .run ∧ runS.sys.ready = true ∧
      (lateMarkS (2 * sec - 19 * msFr)).tkx.cur = some { newCur 99 0 false runS with at_ := 2 * sec - 19 * msFr } ∧
      ((newCur 99 0 false runS).d1 && (newCur 99 0 false runS).d2) = false ∧
      2 * sec - 19 * msFr + (min (2 * secFr / frate curS) (20 * msFr) - msFr) = (elapse 0 (lateMarkS (2 * sec - 19 * msFr))).tbu.free ∧
      (elapse 0 (lateMarkS (2 * sec - 19 * msFr + 1))).tbu.free < 2 * sec - 19 * msFr + 1 + (min (2 * secFr / frate curS) (20 * msFr) - msFr) ∧
      runS.tbu.running = true ∧ maskedNow (elapse 0 runS) 12 = false ∧ meets 12 (elapse 0 runS) = false := by decide +kernel

/-- Windows of 50 ms and of 50 ms + 0.1 % lie within the limit; one of 50.051 ms does not. -/
theorem witness_SafetyWatchRows_window :
    (((2 * sec : Nat) : Int) - (((2 * sec - 50 * msFr : Nat) : Int)) - ((50 * msFr : Nat) : Int)).natAbs * 1000 ≤ 50 * msFr ∧
      (((2 * sec : Nat) : Int) - (((2 * sec - 50 * msFr - msFr / 20 : Nat) : Int)) - ((50 * msFr : Nat) : Int)).natAbs * 1000 ≤ 50 * msFr ∧
      50 * msFr < (((2 * sec : Nat) : Int) - (((2 * sec - 50 * msFr - msFr / 20 - 1000 : Nat) : Int)) - ((50 * msFr : Nat) : Int)).natAbs * 1000 := by
  decide +kernel

/-! The Logbook and the key store -/

def ev0 : LogEv :=
  { sec := 0, ns := 0, epoch := 0, tickSeq := 0, event := 0x10, source := 12, cls := 0, runSt := 1, suspect := false, timeSet := false, arg := 0, cyc := 0 }
def logS (q d : Nat) : State := { cfgS with log := { cfgS.log with queue := List.replicate q ev0, dropPend := d } }
def noPower : State := { keyS with sys := { keyS.sys with powered := false, ready := false } }
def armedS (s : State) : State := { s with kst := { s.kst with tamperArmed := true, share := some 1 } }

theorem witness_LogAndKeyStore :
    keyS.kst.slots.length = 64 ∧ keyS.sys.ready = true ∧ (logS 0 0).log.queue = [] ∧ (logS 0 0).log.dropPend = 0 ∧ (logS 0 1).log.dropPend ≠ 0 ∧
      (logS 49 1).log.queue = ev0 :: List.replicate 48 ev0 ∧ (List.replicate 48 ev0).length ≤ 48 ∧
      (logS 50 1).log.queue = ev0 :: List.replicate 49 ev0 ∧ 48 < (List.replicate 49 ev0).length ∧ barOpen keyS = true ∧
      keyS.kst.tamperArmed = false ∧ keyS.kst.tamperActive = false ∧ ({ armedS keyS with kst := { (armedS keyS).kst with tamperActive := true, share := none } } : State).kst.share = none ∧ (armedS keyS).kst.tamperArmed = true ∧ (armedS keyS).sys.powered = true ∧ (armedS noPower).sys.powered = false ∧
      (armedS noPower).kst.tamperArmed = true ∧ keyS.kst.share = none ∧ (armedS keyS).kst.share ≠ none ∧ (slotOfKey keyS 1).st ≠ .empty ∧
      (slotOfKey keyS 63).st = .empty := by decide +kernel

/-! Power and resets -/

def boot (mode : Nat) : BootIn :=
  { mode := mode, fail := none, link := some (.x4, .gt16), laneBad := 0, bankBad := 0, macs := [1, 2, 3, 4], ms := 200, free := 51200000000 }
def fallS : State := { noPower with sys := { noPower.sys with vinFallAt := some 0 } }

theorem witness_PowerAndResets :
    cfgS.sys.powered = true ∧ noPower.sys.powered = false ∧ noPower.sys.vinFallAt = none ∧ fallS.sys.vinFallAt ≠ none ∧ (boot 0).mode = 0 ∧ (boot 0).fail = none ∧
      pickBank (boot 0) noPower = some 0 ∧ 2 ≤ (boot 2).mode ∧ (boot 2).fail = none ∧ barOpen cfgS = true ∧
      fld (0x48580001#32 : Word).toNat 31 16 = 0x4858 ∧ bitOf (0x48580001#32 : Word) 0 = true ∧ bitOf (0x48580002#32 : Word) 0 = false ∧ cfgS.sys.ready = true ∧
      pickBank (boot 0) cfgS = some 0 ∧
      pickBank { boot 0 with bankBad := 1 } { noPower with kst := { noPower.kst with banks := [some (0#256, 0), some (1#256, 1)] } } = some 1 := by decide +kernel

/-! The pair -/

def ctx0 : Ctx := { ring := 0, index := 0, opcode := 1, tag := 0, irq := false, blocks := true, discard := false, compl := 1 }
def hello (st : Nat) (since : Option Nat) : PairHello :=
  { st := st, role := 2, query := false, rate := 50, mode := 0, horizon := 0, resolve := false, digest := 3#64, since := since, cold := false }
/-- A START that waits for the peer since 10 ms. -/
def waitS : State := { pairOf .unpaired imgS with pair := { (pairOf .unpaired imgS).pair with startPend := some ctx0, askAt := 2 * sec - 10 * msFr } }
/-- A standby that hears its peer and lacks two heartbeats of each lane; only lane 0 is up. -/
def missS : State := { standbyS with pair := { standbyS.pair with heard := true, missed := [2, 2], hbAt := [2 * sec - 3 * (secFr / 100000 * 105), 2 * sec] } }
def soloS : State := pairOf .solo runS
def unpairedS : State := { runS with pair := { runS.pair with lane0 := true } }

theorem witness_PairLink_lanes :
    standbyS.sys.ready = true ∧ standbyS.pair.cnt.length = 16 ∧ standbyS.pair.hbAt.length = 2 ∧ standbyS.pair.missed.length = 2 ∧ standbyS.mbx.chans.length = 14 ∧
      standbyS.pair.lane0 = true ∧ standbyS.pair.lane1 = false ∧ laneGood 1 standbyS = true ∧
      laneGood 0 { runS with sys := { runS.sys with laneBad := 16 } } = false ∧ standbyS.pair.hbNext ≤ 2 * sec ∧
      (elapse 0 standbyS).tbu.free < ({ standbyS with pair := { standbyS.pair with hbNext := 2 * sec + 1 } } : State).pair.hbNext ∧
      missS.pair.heard = true ∧ standbyS.pair.heard = false ∧
      nth missS.pair.hbAt 0 0 + (nth missS.pair.missed 0 0 + 1) * (secFr / 100000 * 105) ≤ (elapse 0 missS).tbu.free ∧
      ¬ nth missS.pair.hbAt 1 0 + (nth missS.pair.missed 1 0 + 1) * (secFr / 100000 * 105) ≤ (elapse 0 missS).tbu.free ∧
      (∃ n ∈ setAt missS.pair.missed 0 (nth missS.pair.missed 0 0 + 1), n < 3) ∧ (∀ n ∈ setAt [2, 3] 0 (nth [2, 3] 0 0 + 1), 3 ≤ n) ∧
      bitOf standbyS.pair.cfg 4 = true ∧ barOpen standbyS = true ∧ standbyS.sys.runState ≠ .safe := by decide +kernel
theorem witness_PairLink_states :
    runS.pair.lane0 = false ∧ runS.pair.lane1 = false ∧ maskedNow (elapse 0 standbyS) 15 = false ∧ standbyS.sys.runState ≠ .init ∧
      syncingS.pair.st = .syncing ∧ activeS.pair.st ≠ .syncing ∧ activeS.pair.st ≠ .standby ∧ fld unpairedS.pair.cfg.toNat 1 0 = 0 ∧ unpairedS.pair.role = 0 ∧
      fld activeS.pair.cfg.toNat 1 0 ≠ 0 ∧ activeS.pair.startPend = none ∧ activeS.pair.role ≠ 0 ∧ (pairOf .unpaired runS).pair.st = .unpaired ∧
      soloS.pair.st = .solo ∧ (hello 3 none).st = 3 ∧ (hello 1 none).role ≠ soloS.pair.role ∧ soloS.pair.peerSt ≠ 1 ∧ soloS.pair.peerSt ≠ 4 ∧
      (hello 1 none).since = none ∧ waitS.pair.startPend = some ctx0 ∧ waitS.image = some img ∧ waitS.sys.runState = .config ∧
      pairMatches waitS img { hello 2 (some 0) with rate := 60 } = false ∧ (hello 2 (some 0)).since ≠ none ∧
      waitS.pair.askAt + secFr / 100 = (elapse 0 waitS).tbu.free ∧ waitS.sys.ready = true ∧
      (elapse 0 { waitS with pair := { waitS.pair with askAt := waitS.pair.askAt + 1 } }).tbu.free < waitS.pair.askAt + 1 + secFr / 100 := by decide +kernel

/-- A statement's first 1,280 bytes: life-cycle state 1, as public key the base point of P-256, zeros elsewhere. -/
def stmtBody : List Byte :=
  List.replicate 12 0#8 ++ [1#8] ++ List.replicate 35 0#8 ++ toBE 32 p256g.1 ++ toBE 32 p256g.2 ++ List.replicate 1168 0#8
/-- That statement, signed with the private key 1 and k = 1. -/
def stmt0 : List Byte := stmtBody ++ toBE 32 (p256g.1 % p256n) ++ toBE 32 ((beNat (sha256 stmtBody) + p256g.1) % p256n)
def attS : State :=
  { syncingS with
    kst := { keyS.kst with fwMeas := 0#256 }
    pair := { syncingS.pair with challenge := 0#256, peerId := digestWords (sha256 (toBE 32 p256g.1 ++ toBE 32 p256g.2)) } }
def snap0 (e : Option Engines) : Snapshot := { g := 99, slots := [(63, validSlot)], engines := e }
/-- SYNCING, verified, with a snapshot of tick 84 and the next commit that of tick 100: one tick late. -/
def joinS : State := { attS with pair := { attS.pair with verified := true, gs := some 84, catching := true, retryAt := some (2 * sec) } }

def sigR : Nat := 48439561293906451759052585252797914202762949526041747995844080717082404635286
def sigS : Nat := 14717252134080115262325899960424259525012948023478765063251576157429819285419
def hash0 : Nat := 82069780050529912265970761657033918852246953721572777409829754501415926694502
/-- sigS⁻¹ and the two multiples of the base point that the verification adds. -/
def sigW : Nat := 34328291738938780438722255073396007429616693048190869186687200623924732740012
def sumA : Nat × Nat :=
  (16692772853802160097274609554156498350803620553866524325292930012094625602576,
   110602098607846580414054843113920907560769609550301792564189314033332482186693)
def sumB : Nat × Nat :=
  (51108158251746833898176559148942645090962727437246905251248452216876069800357,
   56498654896247543218764030346293399216726326317850247221977933886661700862411)
theorem stmt0_sumA : ecMul 256 (hash0 * sigW % p256n) (some p256g) = some sumA := by decide +kernel
theorem stmt0_sumB : ecMul 256 (sigR * sigW % p256n) (some p256g) = some sumB := by decide +kernel
theorem stmt0_signed : ecdsaVerify p256g hash0 sigR sigS = true := by
  have hw : invMod p256n sigS = sigW := by decide +kernel
  have hs : ecAdd (some sumA) (some sumB) = some p256g := by decide +kernel
  have hc : ¬ (sigR = 0 ∨ p256n ≤ sigR ∨ sigS = 0 ∨ p256n ≤ sigS ∨ ecOnCurve p256g.1 p256g.2 = false) := by decide +kernel
  unfold ecdsaVerify
  rw [if_neg hc]
  simp only [hw, stmt0_sumA, stmt0_sumB, hs]
  decide +kernel
theorem stmt0_hash : beNat (sha256 (stmt0.take 1280)) = hash0 := by decide +kernel
theorem stmt0_fields :
    (beNat ((sub stmt0 48 64).take 32), beNat ((sub stmt0 48 64).drop 32)) = p256g ∧ beAt stmt0 1280 32 = sigR ∧ beAt stmt0 1312 32 = sigS ∧
      1344 ≤ stmt0.length := by decide +kernel
theorem stmt0_names :
    (decide (sub stmt0 16 32 = natBytes 32 attS.pair.challenge) && decide (digestWords (sha256 (sub stmt0 48 64)) = attS.pair.peerId) &&
      attS.pair.peerId.any (· ≠ 0#32) && decide (beAt stmt0 12 1 = lcState attS) && decide (lcState attS ≠ 0) &&
      decide (sub stmt0 112 32 = natBytes 32 attS.kst.fwMeas) && decide (sub stmt0 144 32 = natBytes 32 (configMeas attS)) &&
      decide (attS.pair.peerRole ≠ attS.pair.role)) = true := by decide +kernel
theorem witness_PairJoin_attest : attestOk stmt0 attS = true := by
  have h := stmt0_names
  unfold attestOk
  simp only [stmt0_fields.1, stmt0_fields.2.1, stmt0_fields.2.2.1, stmt0_hash, stmt0_signed, stmt0_fields.2.2.2, decide_true, Bool.true_and,
    Bool.and_assoc] at h ⊢
  exact h
theorem witness_PairJoin :
    attS.sys.ready = true ∧ (attS.pair.lane0 || attS.pair.lane1) = true ∧ attS.pair.cnt.length = 16 ∧ unpairedS.pair.role = 0 ∧ attS.pair.role ≠ 0 ∧
      attS.pair.st ≠ .unpaired ∧ attS.kst.rootOk = true ∧ runS.kst.rootOk = false ∧ attS.pair.verified = false ∧ attS.pair.st = .syncing ∧
      activeS.pair.st = .active ∧ activeS.pair.verified = false ∧ joinS.pair.verified = true ∧ attestOk [] attS = false ∧ standbyS.pair.st = .standby ∧
      (snap0 none).engines = none ∧ 63 < joinS.kst.slots.length ∧ (snap0 (some (enginesOf runS))).engines = some (enginesOf runS) ∧ joinS.pair.cold = false ∧
      joinS.aln.ticks = [] ∧ joinS.pair.gs = some 84 ∧ joinS.pair.catching = true ∧ joinS.sys.runState ≠ .safe ∧ 84 + 15 < joinS.aln.next ∧
      joinS.aln.next ≤ 85 + 15 ∧ joinS.pair.retryAt = some (2 * sec) ∧ 2 * sec ≤ (elapse 0 joinS).tbu.free ∧ (elapse 0 joinS).tbu.free < 2 * sec + 1 := by
  decide +kernel

def mark (g : Nat) : CommitMark :=
  { seq := 7, g := g, cause := 0, suspect := false, eps := [], inService := [], outZones := [], switch := true }
/-- A standby whose tick 99 has no mark 100 µs after WAIT_MAX, in its cold join. -/
def noMarkS : State := { syncingS with aln := { syncingS.aln with next := 99 }, pair := { syncingS.pair with cold := true } }
/-- A standby whose pipeline span has not passed. -/
def earlyS : State := { standbyS with tkx := { standbyS.tkx with notBefore := 2 * sec + 1 } }
def keyPair : State := { standbyS with kst := keyS.kst }
def upd1 : KeyUpd := { slot := 63, new := validSlot, out := none, roll := false }
def keyPendS (j : KeyJob) (a : Nat) : State := { pairOf .active runS with kst := keyS.kst, pair := { activeS.pair with keyPend := [⟨ctx0, j, a, false, none⟩] } }
def digS (m : Nat) (skip : Bool) : State :=
  { standbyS with pair := { standbyS.pair with own := [⟨5, 11, skip, false, 2 * sec⟩], mismatch := m, finOwn := [(5, 11)] } }

theorem witness_PairWork_marks :
    standbyS.sys.ready = true ∧ (standbyS.pair.lane0 || standbyS.pair.lane1) = true ∧ standbyS.pair.cnt.length = 16 ∧ standbyS.kst.slots.length = 64 ∧
      activeS.pair.st ≠ .syncing ∧ activeS.pair.st ≠ .standby ∧ standbyS.sys.runState = .run ∧ winS.flt.wins ≠ [] ∧ standbyS.flt.wins = [] ∧
      standbyS.aln.replay = none ∧ standbyS.sys.maintPend = none ∧ standbyS.aln.placing = true ∧ standbyS.pair.marks = [] ∧ standbyS.tkx.cur = none ∧
      standbyS.aln.skips = [] ∧ standbyS.hif.sched = [] ∧ standbyS.pair.switchAt = none ∧ standbyS.aln.next ≤ (mark 100).g ∧
      (mark 99).g < standbyS.aln.next ∧ (mark 100).switch = true ∧ standbyS.pair.st = .standby ∧ ticking noMarkS = true ∧
      tmReached (frate noMarkS) 99 ((noMarkS.aln.waitMax + 100) * 1000 * fr : Nat) (discTime (elapse 0 noMarkS)) = true ∧
      tmReached (frate standbyS) 100 ((standbyS.aln.waitMax + 100) * 1000 * fr : Nat) (discTime (elapse 0 standbyS)) = false ∧
      noMarkS.tkx.notBefore ≤ (elapse 0 noMarkS).tbu.free ∧ standbyS.tkx.notBefore ≤ (elapse 0 standbyS).tbu.free ∧
      (elapse 0 earlyS).tbu.free < earlyS.tkx.notBefore ∧ ({ standbyS with sys := { standbyS.sys with maintPend := some (ctx0, false) } } : State).sys.maintPend ≠ none ∧ noMarkS.pair.cold = true ∧ noMarkS.pair.st = .syncing ∧ 3 * 2 ^ 30 / 2 ^ 30 ≠ 2 := by decide +kernel
theorem witness_PairWork_commands :
    ({ standbyS with sys := { standbyS.sys with maintPend := some (ctx0, false) } } : State).sys.maintPend ≠ none ∧ standbyS.pair.mirrored = [] ∧
      standbyS.sys.runState ≠ .safe ∧ MirrorCmd.ordered .configLock = true ∧ keyLegal keyPair = true ∧ (slotOfKey keyPair 1).st = .valid ∧ 1 < 64 ∧ standbyS.sys.runState = .run ∧
      standbyS.tkx.cur = none ∧ (pairOf .standby maintS).sys.runState = .maintenance ∧ activeS.pair.keyPend = [] ∧
      (keyPendS (.revoke 1) 0).pair.keyPend = [⟨ctx0, .revoke 1, 0, false, none⟩] ∧ keyLegal (keyPendS (.revoke 1) 0) = true ∧ (slotOfKey (keyPendS (.revoke 1) 0) 1).st = .valid ∧
      (keyPendS (.upd upd1) 0).pair.keyPend = [⟨ctx0, .upd upd1, 0, false, none⟩] ∧ upd1.slot < 64 ∧
      2 * sec - 10 * msFr + secFr / 100 = (elapse 0 (keyPendS (.upd upd1) (2 * sec - 10 * msFr))).tbu.free ∧
      (elapse 0 (keyPendS (.upd upd1) (2 * sec - 10 * msFr + 1))).tbu.free < 2 * sec - 10 * msFr + 1 + secFr / 100 ∧
      maskedNow (elapse 0 (keyPendS (.upd upd1) 0)) 15 = false ∧ (keyPendS (.upd upd1) 0).sys.runState ≠ .init := by decide +kernel
theorem witness_PairWork_digests :
    syncingS.pair.st ≠ .standby ∧ syncingS.pair.st ≠ .active ∧ (digS 0 false).pair.st = .standby ∧
      ((digS 0 false).pair.own.find? fun o => decide (o.seq = 6)) = none ∧
      ((digS 1 false).pair.own.find? fun o => decide (o.seq = 5)) = some ⟨5, 11, false, false, 2 * sec⟩ ∧ (digS 1 false).pair.mismatch + 1 < fld (digS 1 false).pair.cfg.toNat 15 8 ∧
      fld (digS 2 false).pair.cfg.toNat 15 8 = (digS 2 false).pair.mismatch + 1 ∧ maskedNow (elapse 0 (digS 2 false)) 15 = false ∧
      (digS 2 false).sys.runState = .run ∧ ((digS 0 true).pair.own.find? fun o => decide (o.seq = 5)) = some ⟨5, 11, true, false, 2 * sec⟩ ∧
      ((digS 0 false).pair.finOwn.find? fun e => decide (e.1 = 5)) = some (5, 11) := by decide +kernel

end Sys2Proof.Tests
end

