-- ==== Sys2Proof/Tests/WitnessRings.lean ====
section
/-! SUPPORT. States and operands that meet the hypotheses of the statements about the block as a whole and the commands of rings. -/

namespace Sys2Proof.Tests

set_option Elab.async false

open Sys2Proof.Machine

/-! The block as a whole -/

theorem witness_StepRunsFront : ({ cfgS with pending := [] } : State).pending = [] := by decide +kernel
theorem witness_StepInvariant :
    Inv { State.reset with pending := [.nop 0 desc0] } ∧ ∃ t, step { State.reset with pending := [.nop 0 desc0] } = .next t :=
  ⟨⟨by unfold Shaped; decide +kernel, by unfold ModeOk; decide +kernel, by decide +kernel, trivial, by decide +kernel, by decide +kernel⟩, ⟨_, rfl⟩⟩
theorem witness_SafeUntilRestart : restarts (.firstClr 0) = false ∧ safeS.sys.runState = .safe ∧ State.reset.sys.runState = .init := by decide +kernel
theorem witness_FreeClockNotSet : restarts (.perstN 0 .x4 .gt16) = false := by decide +kernel
theorem witness_NotReadyQuiet : State.reset.sys.ready = false ∧ actsBeforeReady (.firstClr 0) = false := by decide +kernel

/-! Commands of rings -/

theorem witness_NopCompletes : CanRun .nop desc0 (elapse 0 cfgS) ∧ CanRun .nop desc0 (elapse 256 safeS) := by unfold CanRun; decide +kernel
theorem witness_RefusedDescriptorCompletes :
    plainHead (.start 0 desc0) = some (.start, 0, desc0) ∧ runS.sys.ready = true ∧ headWaits (elapse 0 runS) 0 = true ∧
      complFree (elapse 0 runS) 0 = true ∧ desc0.read = .good ∧ judgeHead .start desc0 (elapse 0 runS) = some .state ∧
      judgeHead .nop { desc0 with sched := true } (elapse 0 runS) = some .param ∧
      judgeHead .start desc0 (elapse 0 { cfgS with sys := { cfgS.sys with exclusive := true } }) = some .busy ∧
      judgeHead .nop { desc0 with ring := 2 } (elapse 0 runS) = some .param ∧ judgeHead .nop desc0 (elapse 0 standbyS) = some .state := by decide +kernel
theorem witness_ConfigLockCompletes :
    CanRun .configLock desc0 (elapse 0 maintS) ∧ ({ maintS with sys := { maintS.sys with locked := true } } : State).sys.locked = true := by
  unfold CanRun; decide +kernel
theorem witness_MaintExitCompletes : CanRun .maintExit desc0 (elapse 0 maintS) := by unfold CanRun; decide +kernel
theorem witness_UnconfigureCompletes :
    CanRun .unconfigure desc0 (elapse 0 maintS) ∧ maintS.hif.sched = [] ∧ (∀ c ∈ maintS.dfc.chains, c.2.swap = none) ∧ maintS.pair.switchAt = none := by
  unfold CanRun; decide +kernel
theorem witness_MaintEnterCompletes :
    CanRun .maintEnter desc0 (elapse 0 runS) ∧ CanRun .maintEnter desc0 (elapse 0 curS) ∧ desc0.sched = false ∧ runS.sys.maintPend = none ∧
      runS.tkx.cur = none ∧ curS.sys.maintPend = none ∧ curS.tkx.cur ≠ none := by unfold CanRun; decide +kernel

/-- A list of one element of n bytes. -/
def oneList (n : Nat) : List (BitVec 128) := [BitVec.ofNat 128 (n * 2 ^ 64)]
def loadDesc (n : Nat) : Desc := descP (n * 2 ^ 272)

theorem witness_ConfigLoadCompletes :
    CanRun .configLoad (loadDesc 256) (elapse 0 cfgS) ∧ CanRun .configLoad (loadDesc 1073741824) (elapse 0 cfgS) ∧
      (loadParams (loadDesc 256).params).total = 256 ∧ (loadParams (loadDesc 256).params).addr % 16 = 0 ∧
      listOk (loadParams (loadDesc 256).params) (oneList 256) = true ∧ (loadParams (loadDesc 1073741824).params).total = 1073741824 ∧
      listOk (loadParams (loadDesc 1073741824).params) (oneList 1073741824) = true ∧ judgeImage cfgS (listed img) 256 ≠ .ok := by
  unfold CanRun; decide +kernel
theorem witness_StartCompletes :
    CanRun .start desc0 (elapse 0 imgS) ∧ imgS.image = some img ∧ judgeStart (elapse 0 imgS) = .ok ∧ fld imgS.pair.cfg.toNat 1 0 = 0 ∧
      fld ({ imgS with pair := { Pair.reset with cfg := 1#32 } } : State).pair.cfg.toNat 1 0 ≠ 0 ∧
      judgeStart (elapse 0 { imgS with pair := { Pair.reset with cfg := 1#32 } }) = .ok ∧ judgeStart (elapse 0 cfgS) ≠ .ok := by
  unfold CanRun; decide +kernel
theorem witness_FwLoadCompletes :
    CanRun .fwLoad (loadDesc 256) (elapse 0 keyS) ∧ lcState keyS ≠ 4 ∧ (loadParams (loadDesc 256).params).total = 256 ∧
      listOk (loadParams (loadDesc 256).params) (oneList 256) = true ∧ (loadParams (loadDesc 16777216).params).total = 16777216 ∧
      listOk (loadParams (loadDesc 16777216).params) (oneList 16777216) = true := by unfold CanRun; decide +kernel
theorem witness_StepCompletes :
    CanRun .step desc0 (elapse 0 cfgS) ∧ cfgS.hif.sched = [] ∧ fld desc0.params.toNat 319 319 = 0 ∧
      (BitVec.ofNat 64 (fld desc0.params.toNat 383 320)).toInt = 0 ∧ fld (descP (2 ^ 384 - 2 ^ 320)).params.toNat 319 319 = 0 ∧
      (BitVec.ofNat 64 (fld (descP (2 ^ 384 - 2 ^ 320)).params.toNat 383 320)).toInt = -1 ∧ cfgS.sys.runState ≠ .run := by
  unfold CanRun; decide +kernel

/-- RUN with chain 0, and with a swap pending on it. -/
def coefS : State := { runS with dfc := { Dfc.reset with chains := [(0, chain0)] } }
def swapS : State := { runS with dfc := { Dfc.reset with chains := [(0, { chain0 with swap := some ⟨none, 0, false, 0⟩ })] } }
def unlockedChain (s : State) : Bool := match chainOf s 0 with | some c => c.coefLock == false | none => false

theorem witness_CoefLoadPends :
    CanRun .dfcCoefLoad desc0 (elapse 0 coefS) ∧ desc0.sched = false ∧ chainOf coefS (coefParams desc0.params).chain = some chain0 ∧
      chain0.coefLock = false ∧ (coefParams desc0.params).filter < 4 ∧ chain0.swap = none ∧ (coefParams (descP (3 * 2 ^ 369)).params).filter = 3 ∧
      unlockedChain swapS = true ∧ (chainOf swapS 0).map Chain.swap ≠ some none := by unfold CanRun; decide +kernel
theorem witness_LogCommandsComplete :
    CanRun .logClear desc0 (elapse 0 maintS) ∧ maintS.log.dropPend = 0 ∧ CanRun .logExport (descP (3 * 2 ^ 294)) (elapse 0 cfgS) ∧
      fld (descP (3 * 2 ^ 294)).params.toNat 299 294 = 3 ∧ (ringOf cfgS 3).enabled = true ∧ (ringOf cfgS 3).type = .stream ∧
      fld (descP (3 * 2 ^ 294)).params.toNat 383 320 < cfgS.log.seqNext := by unfold CanRun; decide +kernel

/-- KEY_GENERATE in slot 4 below the root; KEY_IMPORT of the point G in slot 5; KEY_ROLL of slot 3. -/
def genDesc : Desc := descP (4 * 2 ^ 378 + 2 ^ 371 + 4 * 2 ^ 368 + 1 * 2 ^ 364)
def impDesc : Desc := descP (5 * 2 ^ 378 + 2 ^ 371 + 3 * 2 ^ 368 + 8 * 2 ^ 364 + 64 * 2 ^ 244)
def rollDesc : Desc := descP (3 * 2 ^ 378)
def pointG : List Byte :=
  toBE 32 0x6B17D1F2E12C4247F8BCE6E563A440F277037D812DEB33A0F4A13945D898C296 ++
  toBE 32 0x4FE342E2FE1A7F9B8EE7EB4A7C0F9E162BCE33576B315ECECBB6406837BF51F5

def isUpd : KeyOut → Bool
  | .upd _ => true
  | _ => false
theorem upd_of_isUpd (x : KeyOut × State) (h : isUpd x.1 = true) : ∃ r v, x = (.upd r, v) := by
  obtain ⟨a, v⟩ := x
  cases a <;> simp_all [isUpd]
theorem upd_of_isUpd_fst (x : KeyOut) (h : isUpd x = true) : ∃ r, x = .upd r := by cases x <;> simp_all [isUpd]

theorem witness_KeyGenerate :
    plainHead (.keyGenerate 0 genDesc true) = some (.keyGenerate, 0, genDesc) ∧ CanRun .keyGenerate genDesc (elapse 0 keyS) ∧
      genDesc.sched = false ∧ hasFollower keyS = false ∧ ∃ r v, prepGenerate genDesc.params keyS = (.upd r, v) :=
  ⟨rfl, by unfold CanRun; decide +kernel, rfl, by decide +kernel, upd_of_isUpd _ (by decide +kernel)⟩
theorem witness_KeyImport :
    CanRun .keyImport impDesc (elapse 0 keyS) ∧ impDesc.sched = false ∧ ∃ r, prepImport impDesc.params (some pointG) keyS = .upd r :=
  ⟨by unfold CanRun; decide +kernel, rfl, upd_of_isUpd_fst _ (by decide +kernel)⟩
theorem witness_KeyRoll :
    CanRun .keyRoll rollDesc (elapse 0 keyS) ∧ rollDesc.sched = false ∧ ∃ r v, rollOf rollDesc.params none keyS = (.upd r, v) :=
  ⟨by unfold CanRun; decide +kernel, rfl, upd_of_isUpd _ (by decide +kernel)⟩
theorem witness_KeyRevokeCompletes :
    CanRun .keyRevoke (descP (2 ^ 378)) (elapse 0 keyS) ∧ keyLegal keyS = true ∧ hasFollower keyS = false ∧ keyS.kst.slots.length = 64 ∧
      fld (descP (2 ^ 378)).params.toNat 383 378 = 1 ∧ (slotOfKey keyS 1).st = .valid ∧ (descendants keyS 1) = [2] ∧
      (slotOfKey { keyS with kst := { keyS.kst with slots := setAt keyS.kst.slots 63 { validSlot with st := .revoked } } } 63).st = .revoked := by
  unfold CanRun; decide +kernel
theorem witness_LifecycleAttestComplete :
    CanRun .lifecycle desc0 (elapse 0 keyS) ∧ keyS.hif.sched = [] ∧ CanRun .attest (descP (1344 * 2 ^ 243)) (elapse 0 keyS) ∧ lcState keyS ≠ 4 ∧
      keyS.kst.rootOk = true ∧ fld (descP (1344 * 2 ^ 243)).params.toNat 242 242 = 0 ∧ fld (descP (1344 * 2 ^ 243)).params.toNat 255 243 = 1344 := by
  unfold CanRun; decide +kernel
theorem witness_SwitchoverAndScheduled :
    CanRun .pairSwitchover desc0 (elapse 0 activeS) ∧ switchOk activeS = true ∧ activeS.pair.switchAt = none ∧ CanRun .pairSwitchover desc0 (elapse 0 runS) ∧
      switchOk runS = false ∧ CanRun .pairSwitchover { desc0 with sched := true, schedSec := 2 } (elapse 0 activeS) ∧ activeS.hif.sched.length < 256 ∧
      discTime (elapse 0 activeS) ≤ (((2 * 1000000000 + 0) * fr : Nat) : Int) ∧
      ((((86402 : Nat) * 1000000000 + 0) * fr : Nat) : Int) ≤ discTime (elapse 0 activeS) + ((86400 * secFr : Nat) : Int) := by
  unfold CanRun; decide +kernel
theorem witness_InjectCompletes :
    CanRun .inject { desc0 with ring := 2 } (elapse 0 runS) ∧ injectWaits { desc0 with ring := 2 } (elapse 0 runS) = false ∧
      fld (descP (17 * 2 ^ 274)).params.toNat 287 274 = 17 ∧ fld (descP (9217 * 2 ^ 274)).params.toNat 287 274 = 9217 ∧
      fld (descP (3 * 2 ^ 382)).params.toNat 383 352 / 2 ^ 30 = 3 := by unfold CanRun; decide +kernel

end Sys2Proof.Tests
end

