-- ==== Sys2Proof/Tests/WitnessTick.lean ====
section
/-! SUPPORT. States and operands that meet the hypotheses of the statements about Ingest, the Churn, the Helm, the engines and the Bell. -/

namespace Sys2Proof.Tests

set_option Elab.async false

open Sys2Proof.Machine

/-! Ingest -/

/-- A C37.118.2 data frame of 18 bytes with IDCODE 7 and no channel, over UDP and IPv4 from address 0, port 5, to port 4713. -/
def c37Frame : List Byte :=
  let c : List Byte := [0xAA#8, 0x01#8, 0#8, 18#8, 0#8, 7#8] ++ List.replicate 10 0#8
  let u : List Byte := toBE 2 5 ++ toBE 2 4713 ++ toBE 2 26 ++ [0#8, 0#8] ++ c ++ toBE 2 (crcCcitt c).toNat
  let ip : List Byte := [0x45#8, 0#8] ++ toBE 2 46 ++ List.replicate 5 0#8 ++ [17#8] ++ List.replicate 10 0#8
  List.replicate 12 0#8 ++ [8#8, 0#8] ++ ip ++ u ++ List.replicate 4 0#8
def stat0 : RxStat := ⟨0, 0, 0, 0, false, 0, 0, false, false, false, false, false, false, false, 64⟩
def rx0 : RxFrame := ⟨c37Frame, stat0, 0⟩
def udp0 : Udp := (udpOf c37Frame false).getD ⟨0, 0, 0, []⟩

/-- Entry 0 of the fast endpoint table: VALID, C37.118.2, IDCODE 7, on port 0, STAT at offset 14, no channel. -/
def ep0 : EpEntry :=
  { entry := BitVec.ofNat 512 (0xFFFF * 2 ^ 32 * 2 ^ 384 + 7 * 2 ^ 256 + 1 * 2 ^ 206 + 14 * 2 ^ 192 + 0x80000000 * 2 ^ 160 + 1 * 2 ^ 106 + 2 ^ 90)
    chans := [], rt := EpRt.reset }
def rxS : State := { modPort 0 (fun q => { q with rx := [rx0] }) runS with ing := { Ing.reset with eps := [(0, ep0)] } }
/-- A packet of one entry. -/
def unitPkt : Pkt :=
  { ep := 0, tm := 0, vals := [], flags := 0#8, arrTs := 0, arrEpoch := 0, arrFree := 0, lan := 0, port := 0, injected := false, waited := false }
/-- Every engine still holds a packet that its FIFO has not taken. -/
def fullS : State := { rxS with ing := { rxS.ing with fifos := List.replicate 16 { Fifo.reset with part := some (unitPkt, 0) } } }
/-- A packet of n + 1 entries, alone in a FIFO. -/
def longPkt (n : Nat) : Pkt := { unitPkt with vals := List.replicate (4 * n) 0#64 }
theorem level_longPkt (n : Nat) : ({ Fifo.reset with pkts := [longPkt n] } : Fifo).level = 1 + ceilDiv (4 * n) 4 := by
  simp [Fifo.level, sumN, Pkt.words, longPkt, Fifo.reset]

theorem of_all {α : Type} {o : Option α} {p : α → Bool} (h : o.all p = true) : ∀ u, o = some u → p u = true := by
  intro u e; subst e; exact h

theorem witness_FramesJudged :
    rxS.sys.ready = true ∧ rxS.net.ports.length = 4 ∧ rxS.ing.fifos.length = 16 ∧ (portOf rxS 3).rx = [] ∧ (portOf rxS 0).rx = rx0 :: [] ∧
      engineFor fullS rx0 = none ∧ engineFor rxS rx0 = some (hashEngine udp0) ∧
      rx0.st.flagged = false ∧ ({ stat0 with runt := true } : RxStat).flagged = true ∧ etherType rx0.bytes = 0x0800 ∧
      udpOf rx0.bytes rx0.st.rct = some udp0 ∧ udp0.dport = fld rxS.ing.portC37.toNat 15 0 ∧ c37Kind udp0.data = .data ∧
      findC37 rxS udp0.src (beAt udp0.data 4 2) = some 0 ∧ streamBlocks rxS 0 = [0] ∧ epOf rxS 0 = some ep0 ∧ rxS.sys.runState = .run ∧
      (ep0.portMask >>> rx0.st.port) % 2 = 1 ∧ ep0.srcPort = 0 ∧ ep0.vidCheck = false ∧ ep0.rt.mismatch = false ∧
      Machine.fits ep0.chans (udp0.data.length - 2) false = true ∧ ep0.statOff + 4 = udp0.data.length := by decide +kernel
/-- A FIFO with one entry fits the packet of one entry; one that is full does not. -/
theorem witness_FramesJudged_full :
    (fifoOf rxS (hashEngine udp0)).level + unitPkt.words ≤ fifoCap ∧ fifoCap < ({ Fifo.reset with pkts := [longPkt 524415] } : Fifo).level + unitPkt.words :=
  ⟨by decide +kernel, by rw [level_longPkt]; decide +kernel⟩

def flushS (k : Option Nat) : State :=
  { cfgS with ing := { Ing.reset with fifos := setAt Ing.reset.fifos 15 { Fifo.reset with pkts := [unitPkt], head := 1, flush := k } } }
def gooseS (a : Nat) : State := { runS with ing := { Ing.reset with eps := [(16383, { ep0 with rt := { ep0.rt with talAt := some a } })] } }

theorem witness_EntriesExpire :
    (flushS none).ing.fifos.length = 16 ∧ barOpen (flushS none) = true ∧ (fifoOf (flushS none) 15).flush = none ∧ (fifoOf (flushS (some 1)) 15).flush = some 1 ∧
      engineFree (flushS (some 1)) 15 = true ∧
      (epOf (gooseS (2 * sec)) 16383).map (fun e => (e.rt.talAt, pduWaits (elapse 0 (gooseS (2 * sec))) e (2 * sec))) = some (some (2 * sec), false) ∧
      2 * sec ≤ (elapse 0 (gooseS (2 * sec))).tbu.free ∧ (elapse 0 (gooseS (2 * sec + 1))).tbu.free < 2 * sec + 1 := by decide +kernel

/-! The Churn -/

/-- A packet measured at t ns in FIFO 15. -/
def pkt (t : Nat) : Pkt :=
  { ep := 0, tm := t, vals := [1#64], flags := 0#8, arrTs := 0, arrEpoch := 0, arrFree := 0, lan := 0, port := 0, injected := false, waited := false }
def pktS (t : Nat) : State := { runS with ing := { Ing.reset with fifos := setAt Ing.reset.fifos 15 { Fifo.reset with pkts := [pkt t], head := 2 }, eps := [(0, ep0)] } }
def val0 : EpVal := { vals := [2#64], quality := 1#8, flags := 0#8, arrTs := 0, arrEpoch := 0, arrFree := 0, snap := 0, dup := 0 }
def withTicks (l : List Tick) (s : State) : State := { s with aln := { s.aln with ticks := l } }

theorem witness_PacketPlaced_shape :
    (pktS 2000000000).sys.ready = true ∧ cfgS.aln.placing = false ∧ runS.aln.placing = true ∧ (0 : Int) ≤ discTime (elapse 0 runS) ∧
      winOf (pktS 2000000000) 5 = none ∧ (pktS 2000000000).aln.replay = none ∧ (pktS 2000000000).ing.fifos.length = 16 ∧
      (pktS 2000000000).aln.cnt.length = 16 ∧ (fifoOf (pktS 2000000000) 15).pkts = pkt 2000000000 :: [] ∧
      headPkt (elapse 1 (pktS 2000000000)) 15 = some (pkt 2000000000) ∧ engineFree (pktS 2000000000) 15 = true ∧
      (∀ k, k < 16 → k ≠ 15 → headPkt (elapse 1 (pktS 2000000000)) k = none) ∧ (pkt 0).waited = false := by decide +kernel

/-- Tick 100 stands at 2 s: 2,000 ns off is within the tolerance, 2,001 ns is not; 2.02 s is within the front of 101, 2.04 s ahead of it. -/
theorem witness_PacketPlaced :
    snapTol runS * 50 = (((2000002000 * 50 : Nat) : Int) - ((100 * 1000000000 : Nat) : Int)).natAbs ∧
      snapTol runS * 50 < (((2000002001 * 50 : Nat) : Int) - ((100 * 1000000000 : Nat) : Int)).natAbs ∧ frontNow (elapse 0 runS) = 101 ∧
      (roundDiv ((2020000000 * 50 : Nat) : Int) 1000000000).toNat = 101 ∧ (roundDiv ((2040000000 * 50 : Nat) : Int) 1000000000).toNat = 102 ∧
      99 < runS.aln.next ∧ tickOf runS 99 = none ∧ runS.aln.next ≤ 100 ∧ lookupK (openTick 100 runS).eps 0 = none ∧ slotFree runS 100 = true ∧
      slotFree (withTicks [{ newTick 84 with st := .spec }] runS) 100 = false ∧
      tickOf (withTicks [{ newTick 100 with eps := [(0, val0)] }] runS) 100 = some { newTick 100 with eps := [(0, val0)] } ∧
      tickOf (withTicks [{ newTick 99 with st := .spec }] runS) 99 = some { newTick 99 with st := .spec } ∧
      max runS.aln.front (frontNow (elapse 0 runS)) < 99 + runS.aln.horizon := by decide +kernel
theorem witness_TickCommitted :
    runS.sys.ready = true ∧ runS.sys.runState = .run ∧ runS.aln.placing = true ∧ runS.sys.maintPend = none ∧ runS.pair.st = .unpaired ∧
      runS.aln.skips = [] ∧ runS.hif.sched = [] ∧ runS.pair.switchAt = none ∧ readyMax (elapse 0 runS) 100 = true ∧ runS.tkx.notBefore ≤ (elapse 0 runS).tbu.free ∧
      runS.tkx.cur = none ∧ max runS.aln.front (frontNow (elapse 0 runS)) < 100 + runS.aln.horizon ∧ curS.tkx.cur.isSome = true ∧
      readyMax (elapse 0 curS) 100 = true ∧ ¬ ({ runS with tkx := { runS.tkx with notBefore := 2 * sec + 1 } } : State).tkx.notBefore ≤ 2 * sec := by
  decide +kernel
theorem witness_TickFinal :
    ((withTicks [{ newTick 37 with st := .spec }, { newTick 38 with st := .spec }] runS).aln.ticks.map Tick.g).Nodup ∧
      37 + runS.aln.horizon ≤ max runS.aln.front (frontNow (elapse 0 runS)) ∧ ¬ 38 + runS.aln.horizon ≤ max runS.aln.front (frontNow (elapse 0 runS)) := by
  decide +kernel

/-! Tasks -/

def entry (w : Work) : TEntry :=
  { task := 1, prio := w.prio, unit := 0, flow := none, work := w, g := 99, seq := 0, st := .running, remain := 0, since := 0, reReady := false, flowSeq := 0,
    started := true, readyAt := 0, dying := none, again := false, fed := false, slotTill := none }
/-- Tick 99 in progress with a running entry. -/
def workS (w : Work) : State := { curS with tkx := { curS.tkx with entries := [entry w] } }
def cur99 : Cur := newCur 99 0 false runS

/-- Tick 99 where the window no longer holds it. -/
def tick99 : Tick := { newTick 99 with st := .final }

theorem witness_EngineTasksEnd :
    ((workS .sep).dfc.chains.map Prod.fst).Nodup ∧ runningCur (· = .dfc 15) (elapse 0 (workS (.dfc 15))) = some (entry (.dfc 15), cur99, tick99) ∧
      runningCur (· = .sep) (elapse 0 (workS .sep)) = some (entry .sep, cur99, tick99) ∧
      runningCur (· = .osm 7) (elapse 0 (workS (.osm 7))) = some (entry (.osm 7), cur99, tick99) ∧
      runningCur (· = .osmLocation) (elapse 0 (workS .osmLocation)) = some (entry .osmLocation, cur99, tick99) ∧
      runningCur (· = .emitRings) (elapse 0 (workS .emitRings)) = some (entry .emitRings, cur99, tick99) ∧
      runningCur (· = .emitPort 3) (elapse 0 (workS (.emitPort 3))) = some (entry (.emitPort 3), cur99, tick99) ∧
      findEntry (fun y => y.st = .running && y.work = .osmDeferred 8) (elapse 0 (workS (.osmDeferred 8))) = some (entry (.osmDeferred 8)) ∧
      findEntry (fun y => y.st = .running && y.work = .osmDeferred 7) (elapse 0 (workS (.osmDeferred 7))) = some (entry (.osmDeferred 7)) ∧
      runningCur (· = .sep) (elapse 0 runS) = none := by decide +kernel
def set0 : OsmSet :=
  { entry := BitVec.ofNat 1024 (2 ^ 695), samples := 0, mean := [], cov := [], hist := [], vf := 0, tracks := [], nextId := 1, idSeq := 0, idTick := 0, order := 0,
    lastG := none, dropped := 0, didReset := false, carry := false, queue := [⟨99, 0, []⟩] }

theorem witness_EngineTasksEnd_queues :
    (({ workS (.osmDeferred 8) with osm := { Osm.reset with locQueue := [locRead Osm.reset 99 []] } } : State).osm.locQueue).length = 1 ∧
      ((osmSetOf { workS (.osmDeferred 7) with osm := { Osm.reset with sets := [(7, set0)] } } 7).map
        fun m => m.queue.length) = some 1 := by decide +kernel

/-- An estimator without buses. -/
def lse0 : LseImage := { buses := [], branches := [], meas := [], watched := [], factors := [], invTol := 0#32, sbase := 0#32, outRing := 0 }
def lseS (w : Work) : State := { workS w with lse := { Lse.reset with sec := some lse0 } }
def solved (s : State) : Option Bool := (solveTick tick99 0 [] s).map Prod.snd
def solve0 : Solve := { g := 99, x := [], ms := [], removals := [], maxNr := 0, limit := false, critical := 0, cover := 0 }

theorem witness_EstimatorTasksEnd :
    runningCur (· = .lseSolve) (elapse 0 (lseS .lseSolve)) = some (entry .lseSolve, cur99, tick99) ∧ solved (elapse 0 (lseS .lseSolve)) = some true ∧
      (lseS .lseSolve).sys.runState ≠ .init ∧ maskedNow (elapse 0 (lseS .lseSolve)) 7 = false ∧ 10 < (lseS .lseSolve).lse.cnt.length ∧
      runningCur (· = .lseAnalyze) (elapse 0 (lseS .lseAnalyze)) = some (entry .lseAnalyze, cur99, tick99) ∧ (lseS .lseAnalyze).lse.sec = some lse0 ∧
      findEntry (fun y => y.st = .running && y.work = .resolveA && y.g = 99) (elapse 0 (lseS .resolveA)) = some (entry .resolveA) ∧
      tickOf (withTicks [newTick 99] (lseS .resolveA)) 99 = some (newTick 99) ∧
      findEntry (fun y => y.st = .running && y.work = .resolveB && y.g = 99) (elapse 0 (lseS .resolveB)) = some (entry .resolveB) ∧
      [solve0].find? (fun v => v.g = 99) = some solve0 := by decide +kernel

/-- The EMIT of port 0 runs in tick 99; in the second state a frame of that tick waits for room. -/
def emitS (todo : List TxFrame) : State := modPort 0 (fun q => { q with todo := todo }) (workS (.emitPort 0))
def waiting : TxFrame := { TxFrame.plain [] with tick := some 99 }
def fedEntry : TEntry := { entry (.emitPort 0) with fed := true }
def flowS (w : Work) : State := { curS with tkx := { curS.tkx with entries := [{ entry w with flow := some 3 }] } }

theorem witness_EngineTasksEnd_port :
    runningWork (fun w => portOfWork w = some 0) (elapse 0 (emitS [])) = some (entry (.emitPort 0)) ∧ pausedNow (elapse 0 (emitS [])) 0 = false ∧
      (emitS []).tkx.cur = some cur99 ∧ cur99.g = (entry (.emitPort 0)).g ∧ (entry (.emitPort 0)).fed = false ∧
      fifoBlocked (feedPort (entry (.emitPort 0)) (accountEmits (elapse 0 (emitS [])))) fedEntry 0 = false ∧
      fifoBlocked (feedPort (entry (.emitPort 0)) (accountEmits (elapse 0 (emitS [waiting])))) fedEntry 0 = true ∧
      runningCur (· = .sep) (elapse 0 (flowS .sep)) = some ({ entry .sep with flow := some 3 }, cur99, tick99) := by decide +kernel

def bucket0 : Bucket := { sec := 1, reps := [] }
def geS (r : List Bucket) : State := { runS with ge := { Ge.reset with running := true, closed := 0, ready := r, cfg := 0#32 } }
def house : TaskCfg := { num := 5, prio := 7, phase := 5, flow := none, unit := 0, cost := 1, work := .house }
/-- Tick 99 in progress since instant 0, with a shed level set; and a closed second whose aggregation runs. -/
def lateS (n : Nat) : State := { curS with tkx := { curS.tkx with cur := some { cur99 with at_ := 0 }, shedLevels := n } }
def aggS : State := { workS .geAgg with ge := { Ge.reset with ready := [bucket0] } }
def microS (d : Nat) : State := { runS with tkx := { runS.tkx with micro := [(d, 5, 99)], tasks := [house] } }

theorem witness_HelmTimers :
    runS.tkx.cur = none ∧ curS.tkx.cur = some cur99 ∧ 2 * sec + maxLeft (elapse 0 curS) cur99 ≤ phaseDeadline curS cur99 4 ∧
      (lateS 7).tkx.cur = some { cur99 with at_ := 0 } ∧
      phaseDeadline (lateS 7) { cur99 with at_ := 0 } 4 < 2 * sec + maxLeft (elapse 0 (lateS 7)) { cur99 with at_ := 0 } ∧
      (lateS 0).tkx.shedLevels.testBit 0 = false ∧ (lateS 7).tkx.shedLevels.testBit 3 = false ∧
      (∀ j, j < 3 → (lateS 7).tkx.shedLevels.testBit j = true) ∧ (lateS 7).sys.maintPend = none ∧
      2 * sec < 2 * sec + 1 ∧ (microS (2 * sec)).tkx.micro = (2 * sec, 5, 99) :: [] ∧ (microS 0).tkx.tasks.find? (fun c => decide (c.num = 5)) = some house ∧
      cfgS.ge.running = false ∧ cfgS.ge.ready = [] ∧ (geS []).ge.running = true ∧
      (((0 + 1 + 1 + fld (geS []).ge.cfg.toNat 3 0 : Nat) : Int) * (secFr : Int)) ≤ discTime (elapse 0 (geS [])) ∧
      discTime (elapse 0 (geS [])) < (((0 + 1 + 1 + 1 + fld (geS []).ge.cfg.toNat 3 0 : Nat) : Int) * (secFr : Int)) ∧ aggS.ge.ready = bucket0 :: [] ∧
      runningWork (fun w => w = .geAgg) aggS = some (entry .geAgg) ∧ 4 < aggS.ge.cnt.length ∧
      ({ runS with sys := { runS.sys with guarEff := 2 } } : State).sys.guarEff ≠ 0 ∧ runS.aln.ckptDone = false ∧ runS.aln.ckptLate = false ∧
      curS.tkx.lastSeq ≠ none ∧ curS.tkx.notBefore ≤ 2 * sec := by decide +kernel

/-! The Bell -/

def group0 : Group :=
  { sec := { rules := [], ports := 1, gocbRef := [], datSet := [], goId := [], confRev := 1, dstIp := 0, hopMac := 0, len := 64, auth := 0, slot := 0 }, spdu := 0xFFFFFFFF, stNum := 1, sqNum := 0, data := [], t := 0, every := 1, nextAt := some (2 * sec) }
/-- Rule 0 has value 1 and names ball 1; ball 0 is a LATCH ball that no rule holds, ball 1 a LATCH ball, ball 2 a FOLLOW ball of 10 ms ago. -/
def bellS (r : RunState) (a : Nat) : State :=
  { runS with
    sys := { runS.sys with runState := r }
    ala := { Ala.reset with
      rules := [(0, BitVec.ofNat 256 (2 * 2 ^ 172))], values := [0], groups := [group0, { group0 with sec := { group0.sec with auth := 1, slot := 1 } }]
      pins := [{ Pin.reset with cfg := 1#32, asserted := true, latched := true }, { Pin.reset with cfg := 1#32, asserted := true, latched := true },
               { Pin.reset with cfg := 0x21#32, asserted := true, at_ := a }] ++ List.replicate 5 Pin.reset } }

theorem witness_BallsAndFrames :
    (nth (bellS .run 0).ala.pins 2 Pin.reset).hold = 2 ∧ (nth (bellS .run 0).ala.pins 2 Pin.reset).asserted = true ∧ (bellS .run 0).pair.st ≠ .syncing ∧
      (nth (bellS .run (2 * sec - 10000000 * fr)).ala.pins 2 Pin.reset).at_ + 10000000 * fr ≤ 2 * sec ∧
      2 * sec < (nth (bellS .run (2 * sec - 10000000 * fr + 1)).ala.pins 2 Pin.reset).at_ + 10000000 * fr ∧
      (nth (bellS .run 0).ala.pins 2 Pin.reset).settled (2 * sec) = true ∧
      ({ Pin.reset with changed := some (2 * sec - 20000 * fr) } : Pin).settled (2 * sec) = true ∧
      ({ Pin.reset with changed := some (2 * sec - 20000 * fr + 1) } : Pin).settled (2 * sec) = false ∧ holders (bellS .run 0) 2 = [] ∧
      (nth (bellS .run 0).ala.pins 0 Pin.reset).level = (nth (bellS .run 0).ala.pins 1 Pin.reset).level ∧ 9 < (bellS .safe 0).ala.cnt.length ∧
      (bellS .run 0).ala.groups[0]? = some group0 ∧ group0.nextAt = some (2 * sec) ∧ emits (bellS .run 0) = true ∧ group0.sec.auth = 0 ∧
      (slotOfKey (bellS .run 0) 1).st ≠ .valid ∧ (bellS .safe 0).sys.runState = .safe ∧ (bellS .run 0).sys.ready = true := by decide +kernel
theorem witness_ClearOfLatch :
    barOpen (bellS .run 0) = true ∧ (bellS .run 0).ala.pins.length = 8 ∧ (nth (bellS .run 0).ala.pins 0 Pin.reset).hold = 0 ∧ holders (bellS .run 0) 0 = [] ∧
      (nth (bellS .run 0).ala.pins 1 Pin.reset).hold = 0 ∧ holders (bellS .run 0) 1 = [0] ∧ bitOf (0x80#32 : Word) 7 = true := by decide +kernel

end Sys2Proof.Tests
end

