-- ==== Sys2Proof/Tests/Slice0.lean ====
section
/-! SUPPORT. The module's own tests: an ill-formed term for each shape check, figures of the specification's worked examples, published
vectors of the standards it names, and the queue. The witnesses of the statements stand in the files beside this one. -/

namespace Sys2Proof.Tests

set_option Elab.async false

open Sys2Proof.Machine

/-! Shapes -/

/-- A descriptor with each field outside its width in turn. -/
def badDescs : List Desc :=
  [{ desc0 with ring := 64 }, { desc0 with schedSec := 2 ^ 48 }, { desc0 with schedNs := 2 ^ 32 }, { desc0 with read := .unknown 256 },
   { desc0 with read := .unknown 0x60 }]
theorem test_badDescriptors : badDescs.all (fun d => !d.wellFormed) = true := by decide +kernel
theorem test_goodDescriptors :
    ({ desc0 with ring := 63, schedSec := 2 ^ 48 - 1, schedNs := 2 ^ 32 - 1, read := .unknown 0xFF } : Desc).wellFormed = true := by decide +kernel

def badDesc : Desc := { desc0 with ring := 64 }
theorem test_illFormedDescriptorRefused :
    [Instr.nop 0 badDesc, .configLoad 0 badDesc none none, .start 0 badDesc, .configLock 0 badDesc, .maintEnter 0 badDesc, .maintExit 0 badDesc,
      .unconfigure 0 badDesc, .fwLoad 0 badDesc none none, .step 0 badDesc, .dfcCoefLoad 0 badDesc none, .logClear 0 badDesc, .logExport 0 badDesc,
      .keyGenerate 0 badDesc false, .keyImport 0 badDesc none, .keyRoll 0 badDesc none false, .keyRevoke 0 badDesc, .lifecycle 0 badDesc none none,
      .attest 0 badDesc none, .pairSwitchover 0 badDesc, .inject 0 badDesc none].all (fun c => !c.wellFormed) = true := by decide +kernel

def badBoots : List BootIn :=
  [boot 4, { boot 0 with fail := some (1, 2) }, { boot 0 with fail := some (1, 9) }, { boot 0 with fail := some (10, 9) }, { boot 0 with fail := some (1, 0) },
   { boot 0 with laneBad := 64 }, { boot 0 with bankBad := 4 }, { boot 0 with macs := [1, 2, 3] }, { boot 0 with macs := [1, 2, 3, 2 ^ 48] }]
theorem test_badStartUps : badBoots.all (fun b => !b.wellFormed && !(Instr.powerOn 0 b).wellFormed && !(Instr.resetN 0 0 b).wellFormed &&
    !(Instr.sysReset 0 0 b).wellFormed) = true := by decide +kernel
theorem test_goodStartUp : (Instr.powerOn 0 (boot 3)).wellFormed = true := by decide +kernel

/-- A Sync message with no content but its port and domain number. -/
def syncM (p n : Nat) : SyncIn := { port := p, num := n, source := ⟨0, 0⟩, seq := 0, twoStep := false, t1 := ⟨0, 0⟩, corr := 0, logInt := 0 }
def followM (p n : Nat) : FollowUpIn := { port := p, num := n, source := ⟨0, 0⟩, seq := 0, t1 := ⟨0, 0⟩, corr := 0 }

/-- The sizes of reset. -/
def goodCtl : DevCtl := { payload := 128, readReq := 512, clearAer := false }

theorem test_illFormedIndexRefused :
    [Instr.tailDoorbell 0 ⟨0x10000, 32⟩ 0, .tailDoorbell 0 ⟨0, 24⟩ 0, .headDoorbell 0 ⟨0x10000, 32⟩ 0, .headDoorbell 0 ⟨0, 128⟩ 0, .ringEnable 0 64 0, .ringDisable 0 64 0, .recordDeadline 0 64, .irqCoalTimer 0 64,
      .registerWrite 0 ⟨0, 24⟩ 0, .registerWrite 0 ⟨0x100000, 32⟩ 0, .registerReadClear 0 ⟨false, 0x100000, 32⟩, .registerReadClear 0 ⟨true, 0x10000, 32⟩,
      .latchedWordRead 0 ⟨false, 0x100000, 32⟩, .latchedWordRead 0 ⟨true, 0, 0⟩, .busMasterEnableChange 0 true ⟨true, false⟩ { goodCtl with payload := 1024 },
      .busMasterEnableChange 0 true ⟨true, false⟩ { goodCtl with readReq := 0 }, .prpEntryForget 0 2,
      .pauseTimerExpiry 0 4, .portFrameTransmit 0 4, .linkDown 0 4, .preemptVerifyTimer 0 4, .lpiIdleTimer 0 4, .dsInterval 0 4, .dsEnableWrite 0 4 0,
      .ptpSyncReceive 0 (syncM 4 0), .ptpSyncReceive 0 (syncM 0 256), .ptpFollowUpReceive 0 (followM 4 0), .ptpFollowUpReceive 0 (followM 0 256),
      .pdelayRequestTimer 0 4, .ingestFrame 0 4 none, .gooseTalExpiry 0 16384, .flushDone 0 16, .dfcCommitTaskComplete 0 16,
      .osmUpdateComplete 0 8, .osmDeferredUpdate 0 9, .emitComplete 0 (some 4), .pinFollowExpiry 0 8, .almReadbackSample 0 8 true,
      .alarmFrameRetx 0 8].all (fun c => !c.wellFormed) = true := by decide +kernel
def annIll : Announce :=
  { source := ⟨0, 0⟩, logInt := 0, utcOffset := 37, leap61 := false, leap59 := false, utcValid := true, prio1 := 0, clsAcc := 0, prio2 := 0, gm := 0, steps := 0 }
theorem test_illFormedPortRefused :
    [Instr.portFrameReceive 0 4 .verify, .linkUp 0 4 ⟨true, true, true, true, false⟩, .pdelayReceive 0 4 (.req ⟨0, 0⟩ 0 0), .ptpAnnounceReceive 0 4 0 annIll,
      .ptpAnnounceReceive 0 0 256 annIll].all (fun c => !c.wellFormed) = true := by decide +kernel
theorem test_illFormedFaultRefused :
    [Instr.faultDetected 0 (faultOf 256 0), .faultDetected 0 (faultOf 1 16), .sramScrubPass 0 [faultOf 1 0, faultOf 1 16], .restartComplete 0 16,
      .faultConditionCleared 0 256 0, .faultConditionCleared 0 0 16, .heartbeat 0 3, .fwWatchdog 0 4].all (fun c => !c.wellFormed) = true := by
  decide +kernel
theorem test_illFormedOtherRefused :
    [Instr.mbxH2cWrite 0 4 0, .mbxC2hRead 0 4, .mbxC2hAck 0 4 0, .mbxCorePush 0 14 true 0, .mbxCoreAck 0 14 true 0, .mbxTimeout 0 14 true,
      .mbxCorePop 0 14 true, .mbxLockRead 0 16 0, .mbxLockRead 0 0 5, .mbxLockRelease 0 ⟨16, 0⟩ 0, .mbxLockRelease 0 ⟨0, 5⟩ 0, .powerLoss 0 (.key 64),
      .laneDown 0 2, .laneUp 0 2, .yokeHeartbeatMissed 0 2, .yokeHeartbeatReceive 0 2 0, .frameMarkReceive 0 8 0, .msixUnmask 0 64,
      .sysTempUpdate 0 65536 0, .sysTempUpdate 0 0 32768, .sysTempUpdate 0 0 (-32769)].all (fun c => !c.wellFormed) = true := by decide +kernel
theorem test_wellFormedAccepted :
    [Instr.nop 0 desc0, .tailDoorbell 0 ⟨0xFC00, 32⟩ 0, .registerWrite 0 ⟨0xFFFF8, 64⟩ 0, .registerReadClear 0 ⟨true, 2, 16⟩, .busMasterEnableChange 0 true ⟨true, false⟩ goodCtl, .gooseTalExpiry 0 16383, .osmDeferredUpdate 0 8, .emitComplete 0 none,
      .faultDetected 0 (faultOf 255 15), .mbxCorePush 0 13 true 0, .mbxLockRead 0 15 4, .powerLoss 0 (.key 63), .perstN 0 .x4 .gt16, .laneUp 0 1,
      .sysTempUpdate 0 65535 (-32768)].all Instr.wellFormed = true := by decide +kernel

/-! The queue; the table's rows give no bits. -/

theorem test_noWord : decodeTableWord 32 0 = none ∧ State.withFetchWord cfgS 32 0 = cfgS := by decide +kernel
theorem test_idle : step State.reset = .next State.reset := by rfl
theorem test_stepTakesFront : step { cfgS with pending := [.nop 0 desc0, .firstClr 0] } = exec (.nop 0 desc0) { cfgS with pending := [.firstClr 0] } := by rfl
theorem witness_nop : CanRun .nop desc0 (elapse 0 cfgS) := by unfold CanRun; decide
theorem witness_nop_safe : CanRun .nop desc0 (elapse 300 safeS) := by unfold CanRun; decide
theorem witness_configLock : CanRun .configLock desc0 (elapse 0 maintS) := by unfold CanRun; decide

/-! Worked examples -/

/-- Sextant: τ = 1 s and θ = +1,000,000 ns give 500,000 ppb, 2^32 / 2000 in units of 2^-32. -/
theorem test_servoLimit :
    (servo .a (1000000 * 65536) secFr { cfgS with tbu := { cfgS.tbu with domA := { cfgS.tbu.domA with ki := 0 } } }).tbu.domA.rate = 2147484 := by decide +kernel

/-- Transparent clock: 1,843.25 ns of residence at RATE 161,061 and 412.5 ns of link delay add 147,837,362. -/
theorem test_transparentClock :
    tcAdd { cfgS with tbu := { cfgS.tbu with free := 120799232, domA := { cfgS.tbu.domA with rate := 161061 } } } 0 0 27033600 = 147837362 := by
  decide +kernel

/-- Ingest: SOC 1,750,000,000 and FRACSEC 166,666 at 37 s of offset. -/
theorem test_measurementTime :
    fracNs 166666 1000000 = 166666000 ∧
      tmOf 1750000000 166666000 0 { cfgS with ing := { Ing.reset with utcDef := 37#32 } } = 1750000037166666000 := by decide +kernel
/-- Ingest: FREQ −12 at 60 Hz is 59.988 Hz, DFREQ 3 is 0.03 Hz/s (rounded to binary32 by hand: 0x426FF3B6, 0x3CF5C28F). -/
theorem test_frequencyAndRocof :
    convert true 60000 (BitVec.ofNat 64 (1 * 2 ^ 56 + 3 * 2 ^ 40)) [0xFF#8, 0xF4#8] = BitVec.ofNat 64 0x426FF3B6 ∧
      convert true 60000 (BitVec.ofNat 64 (2 * 2 ^ 56 + 3 * 2 ^ 40)) [0#8, 3#8] = BitVec.ofNat 64 0x3CF5C28F := by decide +kernel

/-- Filter chain: OFFSET 60.0, SHIFT 24: the level 59.9 is −1,677,696 and the hysteresis 0.02 is 335,544. -/
theorem test_levels :
    (quant (vadd (fdec f32 0x426F999A) (vneg (fdec f32 0x42700000))) 24).1 = -1677696 ∧ (quant (fdec f32 0x3CA3D70A) 24).1 = 335544 := by decide +kernel

/-! Published vectors: CRC-32 and CRC-CCITT check values, FIPS 180-4, RFC 4231 case 2, FIPS 197. -/

def digits : List Byte := [0x31#8, 0x32#8, 0x33#8, 0x34#8, 0x35#8, 0x36#8, 0x37#8, 0x38#8, 0x39#8]
theorem test_crcs : crc32 digits = 0xCBF43926#32 ∧ crcCcitt digits = 0x29B1#16 := by decide +kernel
theorem test_sha256 :
    beNat (sha256 [0x61#8, 0x62#8, 0x63#8]) = 0xBA7816BF8F01CFEA414140DE5DAE2223B00361A396177A9CB410FF61F20015AD := by decide +kernel
theorem test_hmac :
    beNat (hmac256 [0x4A#8, 0x65#8, 0x66#8, 0x65#8] (toBE 28 0x7768617420646F2079612077616E7420666F72206E6F7468696E673F)) =
      0x5BDCC146BF60754E6A042426089575C75A003F089D2739839DEC58B964EC3843 := by decide +kernel
theorem test_aes :
    beNat (aesEnc (toBE 16 0x000102030405060708090A0B0C0D0E0F) (toBE 16 0x00112233445566778899AABBCCDDEEFF)) = 0x69C4E0D86A7B0430D8CDB78070B4C55A := by
  decide +kernel

end Sys2Proof.Tests
end

section
/-! SUPPORT. A module that is not READY (R8, R523): every form in which a command's operation runs leaves the state as it is, and a host read
answers SYS_ID and SYS_STATUS alone. O7 and O30 follow. -/

namespace Sys2Proof.Machine

/-! The forms of Machine/RunBase.lean -/

@[simp] theorem elapse_ready (dt : Nat) (s : State) : (elapse dt s).sys.ready = s.sys.ready :=
  congrArg Fixed.ready (elapse_fixed dt s)

theorem barOpen_eq_false_of_not_ready {s : State} (h : s.sys.ready = false) : barOpen s = false := by simp [barOpen, h]

/-- An operation of a module that is not READY has no effect. -/
def Asleep (op : State → State) : Prop := ∀ s, s.sys.ready = false → op s = s

theorem asleep_of_barOpen {op : State → State} (h : ∀ s, barOpen s = false → op s = s) : Asleep op :=
  fun s hs => h s (barOpen_eq_false_of_not_ready hs)

theorem live_asleep (op : State → State) : Asleep (live op) := fun s hs => by simp [live, hs]

theorem onBar_asleep (op : State → State) : Asleep (onBar op) := asleep_of_barOpen fun s hs => by simp [onBar, hs]

theorem onRing_asleep {op : State → State} (n : Nat) (h : Asleep op) : Asleep (onRing n op) := fun s hs => by simp [onRing, h s hs]

theorem ite_asleep {p : Prop} [Decidable p] {f g : State → State} (hf : Asleep f) (hg : Asleep g) : Asleep (if p then f else g) := by
  split
  · exact hf
  · exact hg

/-- Before READY such a command lets its time pass and does nothing else. -/
theorem Asleep.run {op : State → State} (h : Asleep op) (dt : Nat) {s : State} (hs : s.sys.ready = false) :
    run dt op s = .next (elapse dt s) :=
  congrArg Host.Outcome.next (h _ ((elapse_ready dt s).trans hs))

theorem onRead_of_not_ready (op : State → State) {s : State} (h : s.sys.ready = false) : onRead op s = { s with readData := 0#32 } := by
  simp [onRead, barOpen_eq_false_of_not_ready h]

/-! The host's writes -/

theorem doorbell_of_closed (n idx : Nat) {s : State} (h : barOpen s = false) : doorbell n idx s = s := by simp [doorbell, h]

theorem doorbellWrite_asleep (a : Access) (v : Dword) : Asleep (doorbellWrite a v) :=
  asleep_of_barOpen fun s hs => by simp [doorbellWrite, doorbell_of_closed _ _ hs]

theorem barWrite_of_closed (a : Nat) (v : Word) {s : State} (h : barOpen s = false) : barWrite a v s = s := by simp [barWrite, h]

theorem hostWrite_asleep (a : Access) (v : Dword) : Asleep (hostWrite a v) :=
  asleep_of_barOpen fun s hs => by simp [hostWrite, barWrite_of_closed _ _ hs]

theorem msixUnmask_asleep (v : Nat) : Asleep (msixUnmask v) := asleep_of_barOpen fun s hs => by simp [msixUnmask, hs]

theorem sysResetWrite_asleep (v : Word) (b : BootIn) : Asleep (sysResetWrite v b) :=
  asleep_of_barOpen fun s hs => by simp [sysResetWrite, hs]

/-! The host's reads -/

theorem access_bits_of_aligned {a : Access} (h : a.aligned = true) : a.bits = 32 ∨ a.bits = 64 := by
  simp only [Access.aligned, Bool.and_eq_true, Bool.or_eq_true, decide_eq_true_eq] at h
  exact h.1

theorem hostRead_of_refused {bar2 : Bool} {a : Access} (h : bar2 = true ∨ a.aligned = false) (s : State) :
    hostRead bar2 a s = { s with readData := 0, readHigh := 0 } := by
  simp [hostRead, h]

theorem hostRead_32 {a : Access} (ha : a.aligned = true) (h : a.bits = 32) (s : State) :
    hostRead false a s = { barRead a.off s with readHigh := 0 } := by
  simp [hostRead, ha, h]

theorem hostRead_64 {a : Access} (ha : a.aligned = true) (h : a.bits = 64) (s : State) :
    hostRead false a s = { barRead (a.off + 4) (barRead a.off s) with
      readData := (barRead a.off s).readData, readHigh := (barRead (a.off + 4) (barRead a.off s)).readData } := by
  simp [hostRead, ha, h]

/-- What BAR0 answers before READY: SYS_ID and SYS_STATUS, and 0 elsewhere (R8). -/
def closedWord (a : Nat) (s : State) : Word := if a = 0 ∨ a = 4 then regWord a s else 0

theorem barRead_of_not_ready (a : Nat) {s : State} (h : s.sys.ready = false) : barRead a s = { s with readData := closedWord a s } := by
  simp [barRead, barOpen_eq_false_of_not_ready h, h, closedWord]

/-- SYS_ID and SYS_STATUS do not show what a read before returned. -/
theorem closedWord_readData (a : Nat) (s : State) (v : Word) : closedWord a { s with readData := v } = closedWord a s := by
  unfold closedWord
  split
  case isTrue h =>
    obtain rfl | rfl := h
    · rfl
    · rfl
  case isFalse => rfl

theorem barRead_barRead_of_not_ready (a b : Nat) {s : State} (h : s.sys.ready = false) :
    barRead b (barRead a s) = { s with readData := closedWord b s } := by
  rw [barRead_of_not_ready a h]
  exact (barRead_of_not_ready b (s := { s with readData := closedWord a s }) h).trans
    (congrArg (fun v => { s with readData := v }) (closedWord_readData b s (closedWord a s)))

theorem hostRead_of_not_ready (bar2 : Bool) (a : Access) {s : State} (h : s.sys.ready = false) :
    hostRead bar2 a s = if bar2 || !a.aligned then { s with readData := 0, readHigh := 0 } else
      { s with readData := closedWord a.off s, readHigh := if a.bits = 64 then closedWord (a.off + 4) s else 0 } := by
  by_cases hb : bar2 = true ∨ a.aligned = false
  · simp [hostRead_of_refused hb, hb]
  · obtain ⟨rfl, ha⟩ : bar2 = false ∧ a.aligned = true := by simpa using hb
    obtain h32 | h64 := access_bits_of_aligned ha
    · simp [hostRead_32 ha h32, ha, h32, barRead_of_not_ready _ h]
    · rw [hostRead_64 ha h64, barRead_barRead_of_not_ready _ _ h, barRead_of_not_ready _ h]
      simp [ha, h64]

/-! O7 -/

/-- An operation of a module that is not READY changes at most the words that a register read returned. -/
def Dormant (op : State → State) : Prop := ∀ s, s.sys.ready = false → ∃ v w, op s = { s with readData := v, readHigh := w }

theorem Asleep.dormant {op : State → State} (h : Asleep op) : Dormant op := fun s hs => ⟨s.readData, s.readHigh, h s hs⟩

theorem live_dormant (op : State → State) : Dormant (live op) := (live_asleep op).dormant

theorem onBar_dormant (op : State → State) : Dormant (onBar op) := (onBar_asleep op).dormant

theorem onRead_dormant (op : State → State) : Dormant (onRead op) := fun s hs => ⟨0#32, s.readHigh, onRead_of_not_ready op hs⟩

theorem hostRead_dormant (bar2 : Bool) (a : Access) : Dormant (hostRead bar2 a) := fun s hs => by
  rw [hostRead_of_not_ready bar2 a hs]
  split
  · exact ⟨_, _, rfl⟩
  · exact ⟨_, _, rfl⟩

theorem ite_dormant {p : Prop} [Decidable p] {f g : State → State} (hf : Dormant f) (hg : Dormant g) : Dormant (if p then f else g) := by
  split
  · exact hf
  · exact hg

theorem Dormant.run {op : State → State} (h : Dormant op) (dt : Nat) {s : State} (hs : s.sys.ready = false) :
    ∃ dt' v w, run dt op s = .next { elapse dt' s with readData := v, readHigh := w } := by
  obtain ⟨v, w, hvw⟩ := h (elapse dt s) ((elapse_ready dt s).trans hs)
  exact ⟨dt, v, w, congrArg Host.Outcome.next hvw⟩

/-- Settles O7: each command outside `actsBeforeReady` runs its operation in a form that a module that is not READY does not enter. -/
theorem notReadyQuiet : Obligations.NotReadyQuiet := by
  unfold Obligations.NotReadyQuiet
  intro i s hs ha
  cases i
  case powerOn | powerLoss | resetN | perstN | tamperEvent | tamperRestore | retentionLoss | busMasterEnableChange | powerStateChange |
      sysTempUpdate => cases ha
  case tailDoorbell | headDoorbell => exact (doorbellWrite_asleep _ _).dormant.run _ hs
  case registerWrite => exact (hostWrite_asleep _ _).dormant.run _ hs
  case registerReadClear | latchedWordRead => exact (hostRead_dormant _ _).run _ hs
  case msixUnmask => exact (onRing_asleep _ (msixUnmask_asleep _)).dormant.run _ hs
  case sysReset => exact (sysResetWrite_asleep _ _).dormant.run _ hs
  case mbxC2hRead | kstNonceRead => exact (onRead_dormant _).run _ hs
  case mbxLockRead => exact (ite_dormant (onRead_dormant _) (live_dormant _)).run _ hs
  case mbxLockRelease => exact (ite_asleep (onBar_asleep _) (live_asleep _)).dormant.run _ hs
  case ringEnable | ringDisable | dsEnableWrite | tbuSnap | tbuCtrlWrite | tbuDcfgWrite | ingFifoFlush | alaPinClear | faultnRelease | firstClr |
      fltInject | mbxH2cWrite | mbxC2hAck | kstTamperArm | kstTamperClr | forceActive => exact (onBar_dormant _).run _ hs
  all_goals exact (live_dormant _).run _ hs

/-! O30 -/

/-- Settles O30: reads answer `closedWord`, and every write is asleep. -/
theorem closedBeforeReady : Obligations.ClosedBeforeReady := by
  unfold Obligations.ClosedBeforeReady
  intro dt n k b w v y d s s0 at_ h
  have hs : s.sys.ready = false := (elapse_ready dt s).symm.trans h
  have bar (op : State → State) : run dt (onBar op) s = .next s0 := (onBar_asleep op).run dt hs
  have read (op : State → State) : run dt (onRead op) s = .next { s0 with readData := 0 } :=
    congrArg Host.Outcome.next (onRead_of_not_ready op h)
  have door : run dt (doorbellWrite w y) s = .next s0 := (doorbellWrite_asleep w y).run dt hs
  have release : run dt (if k = 0 then onBar (lockRelease n v) else live fun s => if k ≤ 4 then lockRelease n v s else s) s = .next s0 :=
    (ite_asleep (onBar_asleep _) (live_asleep _)).run dt hs
  have host := congrArg (Host.Outcome.next (φ := Fault) (ρ := Refusal)) (hostRead_of_not_ready b w h)
  simp only [List.forall_mem_cons, List.not_mem_nil, false_imp_iff, implies_true, and_true]
  exact ⟨⟨host, host⟩, ⟨read _, read _, read _⟩, (hostWrite_asleep w y).run dt hs, door, door,
    bar _, bar _, bar _, bar _, bar _, bar _, bar _, bar _, bar _, bar _, bar _, bar _, bar _, release,
    bar _, bar _, bar _, (onRing_asleep n (msixUnmask_asleep n)).run dt hs⟩

end Sys2Proof.Machine
end

section
/-! SUPPORT. What a host access to BAR0 does, by the access code of its register (R4 to R7, R355, R555). O29 follows. -/

namespace Sys2Proof.Machine

/-! Latched words -/

theorem lookupK_insertK_ne {β : Type} (l : List (Nat × β)) {j k : Nat} (h : j ≠ k) (b : β) : lookupK (insertK l k b) j = lookupK l j := by
  induction l with
  | nil => simp [insertK, lookupK, h.symm]
  | cons p r ih =>
    obtain ⟨a, c⟩ := p
    unfold insertK
    split
    · simp [lookupK, h.symm]
    · split
      · rename_i hak
        subst hak
        simp [lookupK, h.symm]
      · simp only [lookupK, ih]

/-- Keys that are inserted with the values of one function show those values, whatever stood before. -/
theorem lookupK_foldl_insertK {β : Type} (f : Nat → β) (ks : List Nat) (l : List (Nat × β)) (j : Nat) :
    lookupK (ks.foldl (fun l k => insertK l k (f k)) l) j = if j ∈ ks then some (f j) else lookupK l j := by
  induction ks generalizing l with
  | nil => simp
  | cons k ks ih =>
    rw [List.foldl_cons, ih]
    by_cases hj : j = k
    · subst hj
      simp [lookupK_insertK_same]
    · simp [hj, lookupK_insertK_ne]

theorem lookupK_takeLatches {a b : Nat} (hb : b ∈ latchedBy a) (s : State) : lookupK (takeLatches a s).latches b = some (regWord b s) :=
  (lookupK_foldl_insertK (fun k => regWord k s) (latchedBy a) s.latches b).trans (if_pos hb)

/-! One word -/

section
variable {a k : Nat} {r : Reg}

theorem writeOpen_reserved (h : regAt a = none) (v : Word) (s : State) : writeOpen a v s = s := by simp [writeOpen, h]

/-- Read-only, read-clear and locked registers discard a write. -/
theorem writeOpen_discarded {s : State} (h : regAt a = some (r, k))
    (hacc : r.acc = .ro ∨ r.acc = .rc ∨ (r.acc = .rwl ∧ rwlOpen (a / 65536) s = false)) (v : Word) : writeOpen a v s = s := by
  obtain hro | hrc | ⟨hrwl, hlock⟩ := hacc
  · simp [writeOpen, h, hro]
  · simp [writeOpen, h, hrc]
  · simp [writeOpen, h, hrwl, hlock]

theorem writeOpen_stored {s : State} (h : regAt a = some (r, k))
    (hacc : r.acc = .rw ∨ r.acc = .wo ∨ r.acc = .mix ∨ (r.acc = .rwl ∧ rwlOpen (a / 65536) s = true)) (v : Word) :
    writeOpen a v s = r.put k v s := by
  obtain hrw | hwo | hmix | ⟨hrwl, hopen⟩ := hacc
  · simp [writeOpen, h, hrw]
  · simp [writeOpen, h, hwo]
  · simp [writeOpen, h, hmix]
  · simp [writeOpen, h, hrwl, hopen]

theorem writeOpen_w1c (h : regAt a = some (r, k)) (hacc : r.acc = .w1c) (v : Word) (s : State) :
    ∃ p, writeOpen a v s = { r.put k (v &&& r.get s.began k) s with prior := p } := by
  simp only [writeOpen, h, hacc]
  exact ⟨_, rfl⟩

theorem readOpen_reserved (h : regAt a = none) (s : State) : readOpen a s = { s with readData := 0 } := by simp [readOpen, h]

theorem readOpen_latched (h : regAt a = some (r, k)) (hl : isLatched a = true) (s : State) :
    readOpen a s = { s with readData := (lookupK s.latches a).getD 0#32 } := by
  simp [readOpen, h, hl]

theorem readOpen_act {f : Nat → State → State} (h : regAt a = some (r, k)) (hl : isLatched a = false) (hf : r.act = some f) (s : State) :
    readOpen a s = f k s := by
  simp [readOpen, h, hl, hf]

theorem readOpen_rc (h : regAt a = some (r, k)) (hl : isLatched a = false) (hf : r.act = none) (hacc : r.acc = .rc) (s : State) :
    readOpen a s = readClear r k (takeLatches a s) := by
  simp [readOpen, h, hl, hf, hacc]

theorem readOpen_plain (h : regAt a = some (r, k)) (hl : isLatched a = false) (hf : r.act = none) (hacc : r.acc ≠ .rc) (s : State) :
    readOpen a s = { takeLatches a s with readData := r.get s k } := by
  simp [readOpen, h, hl, hf, hacc]

end

theorem barWrite_of_open (a : Nat) (v : Word) {s : State} (h : barOpen s = true) : barWrite a v s = writeOpen a v s := by simp [barWrite, h]

theorem barRead_of_open (a : Nat) {s : State} (h : barOpen s = true) : barRead a s = readOpen a s := by simp [barRead, h]

/-! Accesses -/

theorem hostWrite_of_refused {w : Access} (h : w.aligned = false) (v : Dword) (s : State) : hostWrite w v s = s := by simp [hostWrite, h]

theorem hostWrite_32 {w : Access} (ha : w.aligned = true) (h : w.bits = 32) (v : Dword) (s : State) :
    hostWrite w v s = barWrite w.off (v.setWidth 32) s := by
  simp [hostWrite, ha, h]

theorem hostWrite_64 {w : Access} (ha : w.aligned = true) (h : w.bits = 64) (v : Dword) (s : State) :
    hostWrite w v s = barWrite (w.off + 4) ((v >>> 32).setWidth 32) (barWrite w.off (v.setWidth 32) s) := by
  have hhigh : BitVec.ofNat 32 (v.toNat >>> 32) = (v >>> 32).setWidth 32 := by
    rw [← BitVec.toNat_ushiftRight, BitVec.ofNat_toNat]
  simp [hostWrite, ha, h, hhigh]

/-- Both words of an aligned access of 64 bits are aligned. -/
theorem access_aligned_words {w : Access} (ha : w.aligned = true) (h : w.bits = 64) :
    Access.aligned ⟨w.off, 32⟩ = true ∧ Access.aligned ⟨w.off + 4, 32⟩ = true := by
  have hoff : w.off % 8 = 0 := by simpa [Access.aligned, h] using ha
  have hlo : w.off % 4 = 0 := by omega
  have hhi : (w.off + 4) % 4 = 0 := by omega
  simp [Access.aligned, hlo, hhi]

/-- No time passes between commands of one cycle. -/
@[simp] theorem elapse_zero (s : State) : elapse 0 s = s := by simp [elapse, passTime]

/-- Settles O29: the cases of `writeOpen`, `readOpen`, `hostWrite` and `hostRead`. -/
theorem registerAccess : Obligations.RegisterAccess := by
  unfold Obligations.RegisterAccess
  intro dt bar2 w v s s0 a x hopen
  have write : exec (.registerWrite dt w v) s = .next (hostWrite w v s0) := rfl
  have read : exec (.registerReadClear dt ⟨false, w⟩) s = .next (hostRead false w s0) := rfl
  have latched : exec (.latchedWordRead dt ⟨false, w⟩) s = .next (hostRead false w s0) := rfl
  refine ⟨fun hw => ?_, fun hw => ?_, fun hal h32 => ?_, fun hal h64 => ?_⟩
  · rw [write, hostWrite_of_refused hw]
  · have h := congrArg (Host.Outcome.next (φ := Fault) (ρ := Refusal)) (hostRead_of_refused hw s0)
    exact ⟨h, h⟩
  · rw [hostWrite_32 hal h32, barWrite_of_open _ _ hopen] at write
    rw [hostRead_32 hal h32, barRead_of_open _ hopen] at read latched
    refine ⟨fun hr => ?_, fun r k hr => ⟨fun hacc => ?_, fun hacc => ?_, fun hacc => ?_, fun hl hf hacc => ?_, fun f hl hf => ?_, fun hl => ?_,
      fun hl hf hacc => ?_⟩⟩
    · rw [write, read, writeOpen_reserved hr, readOpen_reserved hr]
      exact ⟨rfl, rfl⟩
    · rw [write, writeOpen_discarded hr hacc]
    · rw [write, writeOpen_stored hr hacc]
    · obtain ⟨p, hp⟩ := writeOpen_w1c hr hacc x s0
      exact ⟨p, by rw [write, hp]⟩
    · rw [read, readOpen_rc hr hl hf hacc]
      exact ⟨_, rfl⟩
    · rw [read, readOpen_act hr hl hf]
    · rw [latched, readOpen_latched hr hl]
    · rw [latched, readOpen_plain hr hl hf hacc]
      exact ⟨_, rfl, rfl, fun b hb => lookupK_takeLatches hb s0⟩
  · obtain ⟨hlo, hhi⟩ := access_aligned_words hal h64
    rw [hostWrite_64 hal h64] at write
    rw [hostRead_64 hal h64] at read latched
    refine ⟨⟨_, _, congrArg Host.Outcome.next (hostWrite_32 hlo rfl v s0), ?_, write⟩, fun i hi => ?_⟩
    · refine congrArg Host.Outcome.next ?_
      rw [elapse_zero, hostWrite_32 hhi rfl]
    · obtain rfl | rfl : i = _ ∨ i = _ := by simpa using hi
      · exact read
      · exact latched

end Sys2Proof.Machine
end

section
/-! SUPPORT. What a write of a ring's configuration does to the ring, to the other rings and to the rest of the module (R358, R366, R393). O26
follows. -/

namespace Sys2Proof.Machine

/-! What the ring engine leaves outside the host interface -/

@[simp] theorem placeUnits_rest (n typ : Nat) (us : List Unit512) (s : State) : (placeUnits n typ us s).rest = s.rest := by
  unfold placeUnits
  dsimp only
  split <;> simp

@[simp] theorem placeRec_rest (n : Nat) (r : Rec) (s : State) : (placeRec n r s).rest = s.rest := by simp [placeRec]

@[simp] theorem drainQueue_rest (n k : Nat) (s : State) : (drainQueue n k s).rest = s.rest := by
  induction k generalizing s with
  | zero => rfl
  | succ k ih =>
    unfold drainQueue
    dsimp only
    split
    · split <;> simp [ih]
    · split <;> simp [ih]
    · rfl

@[simp] theorem drainRing_rest (n : Nat) (s : State) : (drainRing n s).rest = s.rest := by simp [drainRing]

@[simp] theorem countLost_rest (n k : Nat) (s : State) : (countLost n k s).rest = s.rest := by
  unfold countLost
  split <;> simp

@[simp] theorem loseStaged_rest (n : Nat) (why : Loss) (hit : Rec → Bool) (s : State) : (loseStaged n why hit s).rest = s.rest := by
  simp [loseStaged]

theorem onlyHost_of_rest {s t : State} (h : t.rest = s.rest) : OnlyHost s t := rest_ext h

/-! Rings behind events and messages -/

theorem ringOf_congr {s t : State} (h : t.hif.rings = s.hif.rings) (n : Nat) : ringOf t n = ringOf s n := by simp only [ringOf, h]

@[simp] theorem raiseVec_rings (v : Nat) (s : State) : (raiseVec v s).hif.rings = s.hif.rings := by
  unfold raiseVec
  repeat' split
  all_goals rfl

@[simp] theorem hifEvent_rings (k : Nat) (s : State) : (hifEvent k s).hif.rings = s.hif.rings := by
  unfold hifEvent
  dsimp only
  split
  · exact raiseVec_rings _ _
  · rfl

@[simp] theorem ringOf_raiseVec (v : Nat) (s : State) (n : Nat) : ringOf (raiseVec v s) n = ringOf s n := ringOf_congr (raiseVec_rings v s) n

@[simp] theorem ringOf_hifCnt (j k : Nat) (s : State) (n : Nat) : ringOf (hifCnt j k s) n = ringOf s n := rfl

@[simp] theorem ringOf_hifEvent (k : Nat) (s : State) (n : Nat) : ringOf (hifEvent k s) n = ringOf s n := ringOf_congr (hifEvent_rings k s) n

@[simp] theorem ringOf_noteWaits (s : State) (n : Nat) : ringOf (noteWaits s) n = ringOf s n := by
  unfold noteWaits
  split
  · exact ringOf_hifEvent 4 s n
  · rfl

theorem ringOf_modRing_same {n : Nat} {s : State} (hn : n < s.hif.rings.length) (f : Ring → Ring) : ringOf (modRing n f s) n = f (ringOf s n) := by
  simp [ringOf_modRing, hn]

theorem ringOf_modRing_ne {m n : Nat} (h : m ≠ n) (f : Ring → Ring) (s : State) : ringOf (modRing n f s) m = ringOf s m := by
  simp [ringOf_modRing, h.symm]

/-! Draining keeps what the host wrote of a ring -/

/-- What the host configures of a ring. -/
def Ring.setup (r : Ring) : Word × Dword := (r.cfg, r.base)

@[simp] theorem Ring.push_cfg (r : Ring) (us : List Unit512) : (r.push us).cfg = r.cfg := rfl

@[simp] theorem Ring.push_base (r : Ring) (us : List Unit512) : (r.push us).base = r.base := rfl

@[simp] theorem modRing_setup {f : Ring → Ring} (h : ∀ r, (f r).cfg = r.cfg ∧ (f r).base = r.base) (n m : Nat) (s : State) :
    (ringOf (modRing n f s) m).setup = (ringOf s m).setup := by
  rw [ringOf_modRing]
  split
  · exact Prod.ext (h _).1 (h _).2
  · rfl

@[simp] theorem ringIrq_setup (n m : Nat) (s : State) : (ringOf (ringIrq n s) m).setup = (ringOf s m).setup := by
  unfold ringIrq
  dsimp only
  split <;> simp

@[simp] theorem ringSignal_setup (n : Nat) (urgent : Bool) (m : Nat) (s : State) : (ringOf (ringSignal n urgent s) m).setup = (ringOf s m).setup := by
  unfold ringSignal
  dsimp only
  split <;> simp

@[simp] theorem placeUnits_setup (n typ : Nat) (us : List Unit512) (m : Nat) (s : State) :
    (ringOf (placeUnits n typ us s) m).setup = (ringOf s m).setup := by
  unfold placeUnits
  dsimp only
  split <;> simp

@[simp] theorem placeRec_setup (n : Nat) (r : Rec) (m : Nat) (s : State) : (ringOf (placeRec n r s) m).setup = (ringOf s m).setup := by
  simp [placeRec]

@[simp] theorem drainQueue_setup (n k m : Nat) (s : State) : (ringOf (drainQueue n k s) m).setup = (ringOf s m).setup := by
  induction k generalizing s with
  | zero => rfl
  | succ k ih =>
    unfold drainQueue
    dsimp only
    split
    · split <;> simp [ih]
    · split <;> simp [ih]
    · rfl

@[simp] theorem drainRing_setup (n m : Nat) (s : State) : (ringOf (drainRing n s) m).setup = (ringOf s m).setup := by simp [drainRing]

@[simp] theorem writeCompl_setup (n : Nat) (b : Compl256) (irq : Bool) (m : Nat) (s : State) :
    (ringOf (writeCompl n b irq s) m).setup = (ringOf s m).setup := by
  simp [writeCompl]

@[simp] theorem drainHeldN_setup (n k m : Nat) (s : State) : (ringOf (drainHeldN n k s) m).setup = (ringOf s m).setup := by
  induction k generalizing s with
  | zero => rfl
  | succ k ih =>
    unfold drainHeldN
    dsimp only
    split
    · split <;> simp [ih]
    · rfl

@[simp] theorem drainHeld_setup (n m : Nat) (s : State) : (ringOf (drainHeld n s) m).setup = (ringOf s m).setup := by simp [drainHeld]

theorem drainHeld_of_none {n : Nat} {s : State} (h : (ringOf s n).held = []) : drainHeld n s = s := by
  rw [drainHeld, h]
  rfl

theorem drainRing_of_none {n : Nat} {s : State} (h : (ringOf s n).staged = []) : drainRing n s = s := by
  rw [drainRing, h]
  rfl

/-! Losing staged records (R366, R367) -/

theorem rcd_mem_joinRuns (x : Rec) (l : List QItem) : QItem.rcd x ∈ joinRuns l ↔ QItem.rcd x ∈ l := by
  induction l with
  | nil => simp [joinRuns]
  | cons i l ih =>
    cases i with
    | rcd r => simp [joinRuns, ih]
    | lost g =>
      simp only [joinRuns, List.mem_cons, reduceCtorEq, false_or]
      rw [← ih]
      split
      · rename_i h
        simp [h]
      · simp

/-- A count of lost records touches the ring's LOST count alone. -/
theorem ringOf_countLost_same (n k : Nat) (s : State) : ∃ c, ringOf (countLost n k s) n = { ringOf s n with lostCnt := c } := by
  unfold countLost
  split
  · exact ⟨_, rfl⟩
  · rw [ringOf_hifEvent, ringOf_hifCnt, ringOf_modRing]
    split
    · exact ⟨_, rfl⟩
    · exact ⟨_, rfl⟩

theorem ringOf_countLost_ne {m n : Nat} (h : m ≠ n) (k : Nat) (s : State) : ringOf (countLost n k s) m = ringOf s m := by
  unfold countLost
  split
  · rfl
  · rw [ringOf_hifEvent, ringOf_hifCnt, ringOf_modRing_ne h]

/-- The staged records that `hit` picks are lost; those that stay were staged, and only the staging queue and the LOST count change. -/
theorem ringOf_loseStaged_same {n : Nat} {s : State} (hn : n < s.hif.rings.length) (why : Loss) (hit : Rec → Bool) :
    ∃ q c, ringOf (loseStaged n why hit s) n = { ringOf s n with staged := q, lostCnt := c } ∧
      ∀ x, QItem.rcd x ∈ q → QItem.rcd x ∈ (ringOf s n).staged ∧ hit x = false := by
  unfold loseStaged
  dsimp only
  obtain ⟨c, hc⟩ := ringOf_countLost_same n _ (modRing n _ s)
  rw [hc, ringOf_modRing_same hn]
  refine ⟨_, c, rfl, fun x hx => ?_⟩
  rw [rcd_mem_joinRuns] at hx
  obtain ⟨i, hi, hix⟩ := List.mem_map.mp hx
  cases i with
  | lost g => cases hix
  | rcd r =>
    by_cases hr : hit r = true
    · simp [hr] at hix
    · obtain rfl : r = x := by simpa [hr] using hix
      exact ⟨hi, by simpa using hr⟩

theorem ringOf_loseStaged_ne {m n : Nat} (h : m ≠ n) (why : Loss) (hit : Rec → Bool) (s : State) :
    ringOf (loseStaged n why hit s) m = ringOf s m := by
  simp only [loseStaged, ringOf_countLost_ne h, ringOf_modRing_ne h]

/-! HIF_RING_CFG (R393) -/

/-- HIF_RING_CFG from its fields. -/
def ringCfg (en : Bool) (type size compl vector irq : Nat) : Word :=
  wordOf [(31, 1, b2n en), (29, 2, type), (24, 5, size), (18, 6, compl), (12, 6, vector), (11, 1, irq)]

section
variable (en : Bool) (type size compl vector irq : Nat)

theorem ringCfg_toNat : (ringCfg en type size compl vector irq).toNat =
    b2n en % 2 * 2147483648 + type % 4 * 536870912 + size % 32 * 16777216 + compl % 64 * 262144 + vector % 64 * 4096 + irq % 2 * 2048 := by
  simp only [ringCfg, wordOf, packFields, place, Nat.shiftLeft_eq, BitVec.toNat_ofNat]
  omega

theorem ringCfg_enable : bitOf (ringCfg en type size compl vector irq) 31 = en := by
  rw [bitOf, ← BitVec.testBit_toNat, ringCfg_toNat, Nat.testBit_eq_decide_div_mod_eq]
  cases en
  · simp [b2n]; omega
  · simp [b2n]; omega

theorem ringCfg_type : fld (ringCfg en type size compl vector irq).toNat 30 29 = type % 4 := by
  rw [ringCfg_toNat, fld, Nat.shiftRight_eq_div_pow]
  omega

theorem ringCfg_size : fld (ringCfg en type size compl vector irq).toNat 28 24 = size % 32 := by
  rw [ringCfg_toNat, fld, Nat.shiftRight_eq_div_pow]
  omega

/-- COMPL_RING, VECTOR and IRQ_EN lie side by side. -/
theorem ringCfg_low : fld (ringCfg en type size compl vector irq).toNat 23 11 = compl % 64 * 128 + vector % 64 * 2 + irq % 2 := by
  rw [ringCfg_toNat, fld, Nat.shiftRight_eq_div_pow]
  omega

end

/-- A field that ends below bit 31 does not see bit 31. -/
theorem fld_or_bit31 (v : Word) {hi lo : Nat} (h : hi < 31) (hlo : lo ≤ hi) : fld (v ||| 0x80000000#32).toNat hi lo = fld v.toNat hi lo := by
  have hmask : ∀ i < 31, (0x80000000#32).getLsbD i = false := by decide
  refine Nat.eq_of_testBit_eq fun i => ?_
  simp only [fld, Nat.testBit_mod_two_pow, Nat.testBit_shiftRight, BitVec.testBit_toNat, BitVec.getLsbD_or]
  by_cases hi' : i < hi - lo + 1
  · rw [hmask (lo + i) (by omega), Bool.or_false]
  · simp [hi']

/-- The configuration of a ring that a write enables. -/
def enabledCfg (v : Word) : Word :=
  ringCfg true (fld v.toNat 30 29) (clampSize (fld v.toNat 28 24)) (fld v.toNat 23 18) (fld v.toNat 17 12) (fld v.toNat 11 11)

/-- The configuration of an enabled ring that a write disables: only VECTOR and IRQ_EN are the write's. -/
def disabledCfg (r : Ring) (v : Word) : Word :=
  ringCfg false (fld r.cfg.toNat 30 29) (fld r.cfg.toNat 28 24) r.complRing (fld v.toNat 17 12) (fld v.toNat 11 11)

/-- A ring that starts afresh (R358). -/
def Ring.afresh (cfg : Word) (r : Ring) : Ring :=
  { r with cfg := cfg, head := 0, tail := 0, phase := true, seq := 0, mem := [], coalCnt := 0, coalAt := none, refAt := none }

theorem Ring.afresh_setup (cfg : Word) (r : Ring) : (r.afresh cfg).setup = (cfg, r.base) := rfl

theorem Ring.afresh_held (cfg : Word) (r : Ring) : (r.afresh cfg).held = r.held := rfl

theorem Ring.afresh_staged (cfg : Word) (r : Ring) : (r.afresh cfg).staged = r.staged := rfl

theorem enabledCfg_type (v : Word) : fld (enabledCfg v).toNat 30 29 = fld v.toNat 30 29 := by
  rw [enabledCfg, ringCfg_type, fld]
  omega

theorem enabledCfg_size (v : Word) : fld (enabledCfg v).toNat 28 24 = max 4 (min 16 (fld v.toNat 28 24)) := by
  rw [enabledCfg, ringCfg_size, clampSize]
  omega

theorem enabledCfg_low (v : Word) : fld (enabledCfg v).toNat 23 11 = fld v.toNat 23 11 := by
  rw [enabledCfg, ringCfg_low]
  simp only [fld, Nat.shiftRight_eq_div_pow]
  omega

theorem disabledCfg_type (r : Ring) (v : Word) : fld (disabledCfg r v).toNat 30 29 = fld r.cfg.toNat 30 29 := by
  rw [disabledCfg, ringCfg_type, fld]
  omega

theorem writeRingCfg_of_locked {s : State} (h : hifWritable s = false) (n : Nat) (v : Word) : writeRingCfg n v s = s := by
  simp [writeRingCfg, h]

/-- A write with ENABLE 1 to a disabled ring. -/
theorem writeRingCfg_enable {n : Nat} {s : State} (hw : hifWritable s = true) (hr : (ringOf s n).enabled = false) {v : Word}
    (hv : bitOf v 31 = true) :
    writeRingCfg n v s = noteWaits (drainRing n (drainHeld n (modRing n (Ring.afresh (enabledCfg v)) s))) := by
  simp only [writeRingCfg, hw, hr, hv]
  rfl

/-- A write with ENABLE 0 to an enabled ring. -/
theorem writeRingCfg_disable {n : Nat} {s : State} (hw : hifWritable s = true) (hr : (ringOf s n).enabled = true) {v : Word}
    (hv : bitOf v 31 = false) :
    writeRingCfg n v s = noteWaits (if (ringOf s n).type = .stream then
        loseStaged n .off (fun _ => true) (modRing n (fun r => { r with cfg := disabledCfg (ringOf s n) v }) s)
      else modRing n (fun r => { r with cfg := disabledCfg (ringOf s n) v }) s) := by
  simp only [writeRingCfg, hw, hr, hv]
  rfl

/-! O26 -/

theorem onBar_onRing {n : Nat} {s : State} (hn : n < 64) (hb : barOpen s = true) (op : State → State) : onBar (onRing n op) s = op s := by
  simp [onBar, onRing, hn, hb]

/-- The bits that RING_ENABLE and RING_DISABLE force. -/
theorem bitOf_or_bit31 (v : Word) : bitOf (v ||| 0x80000000#32) 31 = true := by simp [bitOf]

theorem bitOf_and_not_bit31 (v : Word) : bitOf (v &&& 0x7FFFFFFF#32) 31 = false := by simp [bitOf]

theorem enabledCfg_or_bit31 (v : Word) : enabledCfg (v ||| 0x80000000#32) = enabledCfg v := by
  simp only [enabledCfg, fld_or_bit31 v, Nat.reduceLT, Nat.reduceLeDiff]

/-- What a ring that was disabled is after RING_ENABLE. -/
theorem writeRingCfg_enable_ring {n : Nat} {s : State} (hn : n < s.hif.rings.length) (hw : hifWritable s = true)
    (hr : (ringOf s n).enabled = false) {v : Word} (hv : bitOf v 31 = true) :
    let q := ringOf (writeRingCfg n v s) n
    q.cfg = enabledCfg v ∧ q.base = (ringOf s n).base ∧
      ((ringOf s n).held = [] → (ringOf s n).staged = [] → q = (ringOf s n).afresh (enabledCfg v)) := by
  have hfresh := ringOf_modRing_same hn (Ring.afresh (enabledCfg v))
  rw [writeRingCfg_enable hw hr hv]
  generalize modRing n (Ring.afresh (enabledCfg v)) s = t at hfresh ⊢
  have hsetup : (ringOf (noteWaits (drainRing n (drainHeld n t))) n).setup = (enabledCfg v, (ringOf s n).base) := by
    rw [ringOf_noteWaits, drainRing_setup, drainHeld_setup, hfresh, Ring.afresh_setup]
  obtain ⟨hcfg, hbase⟩ := Prod.mk.inj hsetup
  refine ⟨hcfg, hbase, fun hheld hstaged => ?_⟩
  have hheld' : (ringOf t n).held = [] := by rw [hfresh, Ring.afresh_held, hheld]
  have hstaged' : (ringOf t n).staged = [] := by rw [hfresh, Ring.afresh_staged, hstaged]
  rw [drainHeld_of_none hheld', drainRing_of_none hstaged', ringOf_noteWaits, hfresh]

/-- What an enabled ring is after RING_DISABLE. -/
theorem writeRingCfg_disable_ring {n : Nat} {s : State} (hn : n < s.hif.rings.length) (hw : hifWritable s = true)
    (hr : (ringOf s n).enabled = true) {v : Word} (hv : bitOf v 31 = false) :
    ∃ q c, ringOf (writeRingCfg n v s) n = { ringOf s n with cfg := disabledCfg (ringOf s n) v, staged := q, lostCnt := c } ∧
      ((ringOf s n).type = .stream → ∀ x, QItem.rcd x ∉ q) := by
  have hcfg := ringOf_modRing_same hn fun r => { r with cfg := disabledCfg (ringOf s n) v }
  rw [writeRingCfg_disable hw hr hv, ringOf_noteWaits]
  split
  case isTrue =>
    obtain ⟨q, c, hq, hlost⟩ := ringOf_loseStaged_same (s := modRing n (fun r => { r with cfg := disabledCfg (ringOf s n) v }) s)
      (by simpa [modRing] using hn) .off fun _ => true
    exact ⟨q, c, by rw [hq, hcfg], fun _ x hx => Bool.noConfusion (hlost x hx).2⟩
  case isFalse hs => exact ⟨_, _, hcfg, fun h => absurd h hs⟩

theorem writeRingCfg_disable_ne {m n : Nat} (hm : m ≠ n) {s : State} (hw : hifWritable s = true) (hr : (ringOf s n).enabled = true) {v : Word}
    (hv : bitOf v 31 = false) : ringOf (writeRingCfg n v s) m = ringOf s m := by
  rw [writeRingCfg_disable hw hr hv, ringOf_noteWaits]
  split
  · rw [ringOf_loseStaged_ne hm, ringOf_modRing_ne hm]
  · rw [ringOf_modRing_ne hm]

theorem writeRingCfg_rest (n : Nat) (v : Word) (s : State) : (writeRingCfg n v s).rest = s.rest := by
  unfold writeRingCfg
  dsimp only
  split
  · rfl
  · split
    · simp
    · split
      · split <;> simp
      · rfl

/-- Settles O26: `writeRingCfg_enable_ring`, `writeRingCfg_disable_ring` and the fields of HIF_RING_CFG. -/
theorem ringEnableDisable : Obligations.RingEnableDisable := by
  unfold Obligations.RingEnableDisable
  intro dt n v s s0 hn h64 hb r
  have enable : exec (.ringEnable dt n v) s = .next (writeRingCfg n (v ||| 0x80000000#32) s0) :=
    congrArg Host.Outcome.next (onBar_onRing h64 hb _)
  have disable : exec (.ringDisable dt n v) s = .next (writeRingCfg n (v &&& 0x7FFFFFFF#32) s0) :=
    congrArg Host.Outcome.next (onBar_onRing h64 hb _)
  refine ⟨fun hw => ?_, fun hw hr => ⟨_, enable, onlyHost_of_rest (writeRingCfg_rest ..), ?_⟩,
    fun hw hr => ⟨_, disable, onlyHost_of_rest (writeRingCfg_rest ..), ?_⟩⟩
  · rw [enable, disable, writeRingCfg_of_locked hw, writeRingCfg_of_locked hw]
    exact ⟨rfl, rfl⟩
  · obtain ⟨hcfg, hbase, hfresh⟩ := writeRingCfg_enable_ring hn hw hr (bitOf_or_bit31 v)
    rw [enabledCfg_or_bit31] at hcfg hfresh
    intro q
    refine ⟨?_, ?_, ?_, ?_, hbase, fun hheld hstaged => ?_⟩
    · rw [Ring.enabled, hcfg, enabledCfg, ringCfg_enable]
    · rw [hcfg, enabledCfg_type]
    · rw [hcfg, enabledCfg_size]
    · rw [hcfg, enabledCfg_low]
    · rw [show q = r.afresh (enabledCfg v) from hfresh hheld hstaged]
      exact ⟨rfl, rfl, rfl, rfl, rfl⟩
  · obtain ⟨staged, lost, hq, hlost⟩ := writeRingCfg_disable_ring hn hw hr (bitOf_and_not_bit31 v)
    intro q
    rw [show q = _ from hq]
    refine ⟨?_, ?_, rfl, rfl, rfl, rfl, rfl, hlost, fun m hm => writeRingCfg_disable_ne hm hw hr (bitOf_and_not_bit31 v)⟩
    · rw [Ring.enabled, disabledCfg, ringCfg_enable]
    · rw [Ring.type, disabledCfg_type, Ring.type]

end Sys2Proof.Machine
end

section
/-! SUPPORT. Every command lets its time pass and runs one operation; but for a few rows that operation keeps what is fixed, and SAFE. O4
follows. -/

namespace Sys2Proof.Machine

/-- Command `i` lets its time pass and then runs an operation of which `P` holds. -/
def Runs (P : (State → State) → Prop) (i : Instr) : Prop := ∃ dt op, exec i = run dt op ∧ P op

/-- The rows that change power, READY, life-cycle records or the bus's configuration. -/
def movesFixed : Instr → Bool
  | .lifecycle _ _ _ _ => true
  | .busMasterEnableChange _ _ _ _ => true
  | .powerStateChange _ _ => true
  | .perstN _ _ _ => true
  | i => restarts i

/-- An operation keeps what is fixed, and SAFE. -/
def Tame (op : State → State) : Prop := KeepsFixed op ∧ KeepsSafe op

section
variable {op : State → State}

/-- The preservation laws of the operations give both. -/
theorem tame_of_laws (hf : KeepsFixed op := by intro s; simp) (hs : KeepsSafe op := by intro s hs; simp [hs]) : Tame op := ⟨hf, hs⟩

theorem live_tame (h : Tame op) : Tame (live op) := ⟨live_keepsFixed h.1, live_keepsSafe h.2⟩

theorem onBar_tame (h : Tame op) : Tame (onBar op) := ⟨onBar_keepsFixed h.1, onBar_keepsSafe h.2⟩

theorem onRead_tame (h : Tame op) : Tame (onRead op) := ⟨onRead_keepsFixed h.1, onRead_keepsSafe h.2⟩

theorem onPort_tame (p : Nat) (h : Tame op) : Tame (onPort p op) := ⟨onPort_keepsFixed p h.1, onPort_keepsSafe p h.2⟩

theorem onYoke_tame (h : Tame op) : Tame (onYoke op) := ⟨onYoke_keepsFixed h.1, onYoke_keepsSafe h.2⟩

theorem onRing_tame (n : Nat) (h : Tame op) : Tame (onRing n op) := ⟨onRing_keepsFixed n h.1, onRing_keepsSafe n h.2⟩

theorem onTick_tame (h : Tame op) : Tame (onTick op) := ⟨onTick_keepsFixed h.1, onTick_keepsSafe h.2⟩

theorem onRecovery_tame (h : Tame op) : Tame (onRecovery op) := ⟨onRecovery_keepsFixed h.1, onRecovery_keepsSafe h.2⟩

theorem withStep_tame (h : Tame op) : Tame (withStep op) := ⟨withStep_keepsFixed h.1, withStep_keepsSafe h.2⟩

theorem ite_tame {p : Prop} [Decidable p] {f g : State → State} (hf : Tame f) (hg : Tame g) : Tame (if p then f else g) := by
  split
  · exact hf
  · exact hg

end

@[simp] theorem doorbellWrite_fixed (a : Access) (v : Dword) (s : State) : (doorbellWrite a v s).fixed = s.fixed := by simp [doorbellWrite]

theorem exec_tame {i : Instr} (hi : movesFixed i = false) : Runs Tame i := by
  cases i
  case powerOn | powerLoss | resetN | sysReset | lifecycle | busMasterEnableChange | powerStateChange | perstN => cases hi
  case msixUnmask => exact ⟨_, _, rfl, onRing_tame _ tame_of_laws⟩
  case ringEnable | ringDisable => exact ⟨_, _, rfl, onBar_tame (onRing_tame _ tame_of_laws)⟩
  case dsEnableWrite => exact ⟨_, _, rfl, onBar_tame (onPort_tame _ tame_of_laws)⟩
  case fltInject => exact ⟨_, _, rfl, onBar_tame (onTick_tame tame_of_laws)⟩
  case recordDeadline | irqCoalTimer => exact ⟨_, _, rfl, live_tame (onRing_tame _ tame_of_laws)⟩
  case ptpSyncReceive | ptpFollowUpReceive => exact ⟨_, _, rfl, onTick_tame (withStep_tame tame_of_laws)⟩
  case mbxLockRead => exact ⟨_, _, rfl, ite_tame (onRead_tame tame_of_laws) (live_tame tame_of_laws)⟩
  case mbxLockRelease => exact ⟨_, _, rfl, ite_tame (onBar_tame tame_of_laws) (live_tame tame_of_laws)⟩
  case tailDoorbell | headDoorbell | registerWrite | registerReadClear | latchedWordRead | tamperEvent | retentionLoss |
    sysTempUpdate => exact ⟨_, _, rfl, tame_of_laws⟩
  case tamperRestore _ high => exact ⟨_, fun s => if 4 ≤ high then tamperRestore s else s, rfl, tame_of_laws⟩
  case mbxC2hRead | kstNonceRead => exact ⟨_, _, rfl, onRead_tame tame_of_laws⟩
  case packetPlace | tickCommit | restartComplete | replayBudgetExpiry => exact ⟨_, _, rfl, onRecovery_tame tame_of_laws⟩
  case tbuSnap | tbuCtrlWrite | tbuDcfgWrite | ingFifoFlush | alaPinClear | faultnRelease | firstClr |
      mbxH2cWrite | mbxC2hAck | kstTamperArm | kstTamperClr | forceActive => exact ⟨_, _, rfl, onBar_tame tame_of_laws⟩
  case portFrameReceive | pauseTimerExpiry | portFrameTransmit | linkDown | linkUp | preemptVerifyTimer | lpiIdleTimer | dsInterval |
      ingestFrame | ptpAnnounceReceive | pdelayReceive | pdelayRequestTimer => exact ⟨_, _, rfl, onPort_tame _ tame_of_laws⟩
  case yokeCrc | yokeHeartbeatReceive | peerFatal | peerAttestReceive | snapshotReceive | emitMarkReceive |
      frameMarkReceive | injectForwardReceive | mirrorCommandReceive | mirrorAckReceive | digestReceive | pairStateExchange =>
    exact ⟨_, _, rfl, onYoke_tame tame_of_laws⟩
  case commitMarkReceive =>
    exact ⟨_, _, rfl, onYoke_tame ⟨fun s => by simp, fun s hs => drainMirrored_safe _ (settle_safe _ (commitMarkReceive_safe _ _ hs))⟩⟩
  case maintEnter | step | almReadbackSample | faultDetected | heartbeat | commitWatchdog | phaseMark | timeClockWindow | swmSelftest |
      fwWatchdog | sramScrubPass | markMissing | tickFinal | helmProjection | delayListExpiry | dfcCommitTaskComplete | sepTaskComplete |
      lseSolveComplete | lseAnalyzeComplete | osmUpdateComplete | osmLocationComplete | osmDeferredUpdate | emitComplete | resolveAComplete |
      resolveBComplete | geBucketClose | geAggregation | checkpointDeadline => exact ⟨_, _, rfl, onTick_tame tame_of_laws⟩
  all_goals exact ⟨_, _, rfl, live_tame tame_of_laws⟩

/-! SAFE and INIT -/

/-- The rows that move what is fixed and are no restart leave the run state alone. -/
theorem exec_keepsCourse {i : Instr} (hm : movesFixed i = true) (hr : restarts i = false) : Runs (fun op => ∀ s, (op s).course = s.course) i := by
  cases i
  case lifecycle dt d sig aux =>
    refine ⟨dt, live (lifecycleCmd d sig aux), rfl, fun s => ?_⟩
    simp [live]
  case busMasterEnableChange => exact ⟨_, _, rfl, busMasterChange_course _ _ _⟩
  case powerStateChange => exact ⟨_, _, rfl, powerState_course _⟩
  case perstN => exact ⟨_, _, rfl, perst_course _ _⟩
  case powerOn | powerLoss | resetN | sysReset => cases hr
  all_goals cases hm

theorem init_iff (s : State) : s.sys.runState = .init ↔ s.fixed.inInit = true := by simp [State.fixed]

theorem elapse_init (dt : Nat) {s : State} (h : s.sys.runState = .init) : (elapse dt s).sys.runState = .init := by
  rw [init_iff] at h ⊢
  rw [elapse_fixed]
  exact h

/-- Settles O4: `exec_tame` and `exec_keepsCourse`, command by command. -/
theorem safeUntilRestart : Obligations.SafeUntilRestart := by
  unfold Obligations.SafeUntilRestart
  intro i s hr hs
  have hnow (dt : Nat) : (elapse dt s).sys.runState = s.sys.runState := by
    obtain hs | hs := hs
    · rw [hs, run_safe (elapse_safe dt s ((course_safe s).mpr hs))]
    · rw [hs, elapse_init dt hs]
  cases hm : movesFixed i
  case false =>
    obtain ⟨dt, op, hexec, hfixed, hsafe⟩ := exec_tame hm
    refine ⟨op (elapse dt s), congrFun hexec s, ?_⟩
    obtain hs | hs := hs
    · rw [hs, run_safe (hsafe _ ((course_safe _).mpr ((hnow dt).trans hs)))]
    · rw [hs, init_iff, hfixed, ← init_iff, hnow, hs]
  case true =>
    obtain ⟨dt, op, hexec, hop⟩ := exec_keepsCourse hm hr
    exact ⟨op (elapse dt s), congrFun hexec s, (congrArg Course.run (hop _)).trans (hnow dt)⟩

end Sys2Proof.Machine
end

section
/-! SUPPORT. Reset meets the invariant, and every step keeps it (R32, R459, R517 to R528). O2 and O3 follow. -/

namespace Sys2Proof.Machine

/-! The invariant -/

theorem shaped_iff (s : State) : Shaped s ↔ s.hif.rings.length = 64 ∧ s.hif.msix.length = 256 ∧ s.net.ports.length = 4 ∧ s.ing.fifos.length = 16 ∧
    s.ala.pins.length = 8 ∧ s.mbx.chans.length = 14 ∧ s.mbx.locks.length = 16 ∧ s.kst.slots.length = 64 := by
  simp [Shaped, State.sizes, Sizes.full]

/-- The invariant shows in what is fixed. -/
theorem Inv.of_fixed {s t : State} (h : Inv s) (ht : t.fixed = s.fixed) : Inv t := by
  simp only [State.fixed, Fixed.mk.injEq, decide_eq_decide] at ht
  obtain ⟨hpow, hready, hinit, hsizes, hlc, -⟩ := ht
  simpa only [Inv, Shaped, ModeOk, ne_eq, hpow, hready, hinit, hsizes, hlc] using h

/-- A module with power that has not reached READY. -/
def Starting (s : State) : Prop :=
  Shaped s ∧ s.sys.powered = true ∧ s.sys.ready = false ∧ s.sys.runState = .init ∧ LcOk s.kst.lc

theorem Starting.of_fixed {s t : State} (h : Starting s) (ht : t.fixed = s.fixed) : Starting t := by
  simp only [State.fixed, Fixed.mk.injEq, decide_eq_decide] at ht
  obtain ⟨hpow, hready, hinit, hsizes, hlc, -⟩ := ht
  simpa only [Starting, Shaped, hpow, hready, hinit, hsizes, hlc] using h

theorem Starting.inv {s : State} (h : Starting s) : Inv s := by
  obtain ⟨hsz, hp, hr, hi, hlc⟩ := h
  exact ⟨hsz, by simp [ModeOk, hr, hi], hlc⟩

theorem hif_reset_msix_length : Hif.reset.msix.length = 256 := by simp [Hif.reset, msixReset]

/-- Settles O2. -/
theorem resetInvariant : Obligations.ResetInvariant := by
  unfold Obligations.ResetInvariant
  refine ⟨(shaped_iff _).mpr ?_, ⟨?_, ?_⟩, rfl, trivial, ?_, ?_⟩
  · exact ⟨List.length_replicate, hif_reset_msix_length, rfl, rfl, rfl, rfl, rfl, rfl⟩
  · decide
  · decide
  · decide
  · decide

/-! Start-up (R519 to R524) -/

theorem hifAfter_rings_length (src : Source) (h : Hif) : (hifAfter src h).rings.length = 64 := by
  unfold hifAfter
  split
  · exact List.length_replicate
  · exact List.length_replicate

theorem hifAfter_msix_length (src : Source) (h : Hif) : (hifAfter src h).msix.length = 256 := by
  unfold hifAfter
  split
  · exact hif_reset_msix_length
  · exact hif_reset_msix_length

theorem resetParts_starting (src : Source) {s : State} (h : Inv s) : Starting (resetParts src s) := by
  obtain ⟨hsz, -, hlc⟩ := h
  have hslots : s.kst.slots.length = 64 := congrArg Sizes.slots hsz
  have hsizes : (resetParts src s).sizes = { State.reset.sizes with
      rings := (hifAfter src s.hif).rings.length
      msix := (hifAfter src s.hif).msix.length
      slots := s.kst.slots.length } := rfl
  refine ⟨?_, rfl, rfl, rfl, hlc⟩
  rw [Shaped, hsizes, resetInvariant.1, hslots, hifAfter_rings_length, hifAfter_msix_length]
  rfl

theorem bootFails_starting (b : BootIn) (code step : Nat) {s : State} (h : Starting s) : Starting (bootFails b code step s) := by
  obtain ⟨hsz, hp, hr, hi, hlc⟩ := h
  exact ⟨hsz, hp, hr, hi, hlc⟩

/-- A change to CONFIG of a module that is READY. -/
theorem setRunState_config_inv (cause : Nat) {s : State} (hsz : Shaped s) (hp : s.sys.powered = true) (hr : s.sys.ready = true) (hlc : LcOk s.kst.lc) :
    Inv (setRunState .config cause s) := by
  have h : Inv { s with sys := { s.sys with runState := .config } } := ⟨hsz, by simp [ModeOk, hp, hr], hlc⟩
  exact h.of_fixed (by simp only [setRunState, reduceCtorEq, if_false, logEv_fixed])

/-- Firmware is accepted: the module reaches CONFIG with READY. -/
theorem bootReady_inv (src : Source) (b : BootIn) (bank : Nat) {s : State} (h : Starting s) : Inv (bootReady src b bank s) := by
  unfold bootReady
  split
  next meas svn _ =>
    extract_lets prev back u v vSys vFlt vSwm vNet vKst w x
    have hv : Starting v := h.of_fixed (by simp [v, u])
    obtain ⟨hsz, hp, -, -, hlc⟩ := hv
    have hw : Shaped w := by simpa [Shaped, State.sizes, w, vNet, vKst] using hsz
    have hlcw : LcOk w.kst.lc := by simpa only [w, vKst] using hlc
    have hpw : w.sys.powered = true := by simpa only [w, vSys] using hp
    have hx : Inv x := (setRunState_config_inv 0xFE hw hpw rfl hlcw).of_fixed (drivePins_fixed _)
    split
    · exact hx.of_fixed (tamperRevoke_fixed x)
    · exact hx

/-- The root's check, the clocks, the link and the time that passes leave a start-up where it is. -/
theorem Starting.clocked {s : State} (h : Starting s) (rootOk : Bool) (aon free width speed : Nat) :
    Starting { s with
      kst := { s.kst with rootOk := rootOk }
      sys := { s.sys with aon := aon }
      tbu := { s.tbu with running := true, free := free }
      hif := { s.hif with linkWidth := width, linkSpeed := speed } } := h

/-- Wherever a start-up ends, the module is READY in CONFIG or it is in INIT. -/
theorem bootUp_inv (src : Source) (b : BootIn) {s : State} (h : Inv s) : Inv (bootUp src b s) := by
  unfold bootUp
  extract_lets +lift +usedOnly t fail failIn u uSys uKst v kept vSys vHif vTbu w clocked failed
  have ht : Starting t := resetParts_starting src h
  have hu : Starting u := ht.of_fixed (drawRoot_fixed t)
  have ⟨hsz, hp, hr, hi, hlc⟩ := hu
  have hv : Starting v := ⟨hsz, hp, hr, hi, hlc⟩
  have hw : Starting w := hu.clocked _ _ _ _ _
  have hclocked : Starting clocked := hw.of_fixed (by simp [clocked])
  have hfailed : Starting failed := hclocked.of_fixed (by simp [failed])
  clear_value clocked failed v
  split
  · exact (bootFails_starting _ _ _ ht).inv
  · split
    · exact Starting.inv ⟨hsz, hp, hr, hi, hlc⟩
    · split
      · exact (bootFails_starting _ _ _ hv).inv
      · generalize failIn 9 9 = e, pickBank b clocked = bank
        split
        · exact bootReady_inv _ _ _ hclocked
        · exact (bootFails_starting _ _ _ (hclocked.of_fixed (bootKeys_fixed _))).inv
        · obtain ⟨hsz, hp, hr, hi, hlc⟩ := hfailed
          exact Starting.inv ⟨hsz, hp, hr, hi, hlc⟩

/-! Operations that keep the invariant -/

def KeepsInv (op : State → State) : Prop := ∀ s, Inv s → Inv (op s)

theorem KeepsFixed.keepsInv {op : State → State} (h : KeepsFixed op) : KeepsInv op := fun s hs => hs.of_fixed (h s)

theorem elapse_keepsInv (dt : Nat) : KeepsInv (elapse dt) := fun s h => by
  have he := elapse_fixed dt s
  simp only [State.fixed, Fixed.mk.injEq, decide_eq_decide] at he
  obtain ⟨hpow, hready, hinit, hsizes, hlc, -⟩ := he
  simpa only [Inv, Shaped, ModeOk, ne_eq, hpow, hready, hinit, hsizes, hlc] using h

theorem live_keepsInv {op : State → State} (h : KeepsInv op) : KeepsInv (live op) := fun s hs => by
  unfold live
  split
  · exact h s hs
  · exact hs

theorem plainDesc_keepsInv (o : Opcode) (d : Desc) {run : Ctx → State → State} (hr : ∀ c, KeepsInv (run c)) : KeepsInv (plainDesc o d run) := by
  intro s hs
  unfold plainDesc withDesc
  split
  · exact hs
  · split
    · exact hs.of_fixed (hifEvent_fixed 4 s)
    · have ht : Inv (takeHead d o.code s).2 := hs.of_fixed (takeHead_fixed d o.code s)
      generalize takeHead d o.code s = r at ht ⊢
      refine Inv.of_fixed ?_ (noteWaits_fixed _)
      split
      · exact ht.of_fixed (by simp)
      · exact ht.of_fixed (by simp)
      · have hc : Inv (hifCnt 0 1 r.2) := ht.of_fixed (hifCnt_fixed 0 1 r.2)
        extract_lets u
        split
        · exact hc.of_fixed (complete_fixed ..)
        · exact hr _ _ hc

/-! Life-cycle records (R459) -/

theorem LcChain.concat {l : List (Nat × List Byte)} (h : LcChain l) {x y : Nat × List Byte} (hx : l.getLast? = some x) (hxy : (lcAuth x.1 y.1).isSome) :
    LcChain (l ++ [y]) := by
  induction l with
  | nil => cases hx
  | cons a r ih =>
    cases r with
    | nil =>
      obtain rfl : a = x := by simpa using hx
      exact ⟨hxy, trivial⟩
    | cons b r => exact ⟨h.1, ih h.2 (by simpa using hx)⟩

theorem lcState_of_last {s : State} {x : Nat × List Byte} (h : s.kst.lc.getLast? = some x) : lcState s = x.1 := by simp [lcState, h]

/-- A transition that R459 allows and that leaves room for the last record. -/
theorem LcOk.concat {s : State} (h : LcOk s.kst.lc) {b : Nat} (hb : (lcAuth (lcState s) b).isSome) (hleft : ¬(lcLeft s ≤ 1 ∧ b ≠ 4)) (o : List Byte) :
    LcOk (s.kst.lc ++ [(b, o)]) := by
  obtain ⟨hhead, hchain, hlen, hlast⟩ := h
  have hne : s.kst.lc ≠ [] := fun e => by simp [e] at hhead
  obtain ⟨x, hx⟩ : ∃ x, s.kst.lc.getLast? = some x := ⟨_, List.getLast?_eq_some_getLast hne⟩
  rw [lcState_of_last hx] at hb
  have h32 : s.kst.lc.length ≠ 32 := fun e => by
    have h4 : x.1 = 4 := by simpa [hx] using hlast e
    simp [h4, lcAuth] at hb
  have hroom : s.kst.lc.length = 31 → b = 4 := fun e => by
    by_contra hb4
    exact hleft ⟨by simp [lcLeft, e], hb4⟩
  refine ⟨by simp [List.head?_append, hhead], hchain.concat hx hb, ?_, fun e => ?_⟩
  · rw [List.length_append, List.length_singleton]
    omega
  · rw [List.length_append, List.length_singleton] at e
    simp [hroom (by omega)]

theorem lcEnter_inv {s : State} (h : Inv s) {a b : Nat} {owner cert : List Byte} (hlc : LcOk (s.kst.lc ++ [(b, if b = 2 then owner else [])])) :
    Inv (lcEnter a b owner cert s) := by
  obtain ⟨hsz, hmode, -⟩ := h
  unfold lcEnter
  extract_lets kst t u
  have ht : Inv t := ⟨hsz, hmode, hlc⟩
  exact ht.of_fixed (by simp [u])

theorem lifecycle_inv (p : BitVec 384) (sig aux : Option (List Byte)) {s : State} (h : Inv s) : Inv (lifecycle p sig aux s).2 := by
  unfold lifecycle
  extract_lets n a b live kst s' owner key auxLen auxBad x
  have hs' : Inv s' := h
  split
  · exact hs'
  · split
    · exact hs'
    next k hk =>
      split
      · exact hs'
      next hleft =>
        have hok : Inv (lcEnter a b x x s') := lcEnter_inv hs' (h.2.2.concat (by simp [hk, a]) (fun e => hleft (.inl e)) _)
        split
        · exact hok
        · split
          · exact hs'
          · split
            · exact hok
            · exact hs'

theorem lifecycleCmd_keepsInv (d : Desc) (sig aux : Option (List Byte)) : KeepsInv (lifecycleCmd d sig aux) := by
  refine plainDesc_keepsInv _ _ fun c s hs => ?_
  have hread : Inv (if lcUnread d.params sig aux s then dmaErr s else s) := hs.of_fixed (by simp)
  exact (lifecycle_inv d.params sig aux hread).of_fixed (by simp)

/-! Power and resets -/

theorem powerOn_keepsInv (b : BootIn) : KeepsInv (powerOn b) := fun s hs => by
  unfold powerOn
  split
  · exact hs
  · exact bootUp_inv _ _ hs

theorem resetPin_keepsInv (low : Nat) (b : BootIn) : KeepsInv (resetPin low b) := fun s hs => by
  unfold resetPin
  split
  · exact hs
  · split
    · exact bootUp_inv _ _ hs
    · have hd : Inv (drawFree s).2 := hs
      generalize drawFree s = r at hd ⊢
      dsimp only
      split
      · exact bootUp_inv _ _ hd
      · exact hd

theorem passTime_keepsInv (dt : Nat) : KeepsInv (passTime dt) := fun _ hs => hs

theorem sysResetWrite_keepsInv (v : Word) (b : BootIn) : KeepsInv (sysResetWrite v b) := fun s hs => by
  unfold sysResetWrite
  split
  · exact bootUp_inv _ _ (passTime_keepsInv _ s hs)
  · exact hs

theorem cutShort_keepsInv (c : PowerCut) : KeepsInv (cutShort c) := fun s hs => by
  unfold cutShort
  split
  · exact hs
  · exact hs.of_fixed (setSlot_fixed ..)
  next b owner cert =>
    extract_lets a
    split
    · exact hs
    next h =>
      obtain ⟨hb, hleft⟩ := not_or.mp h
      obtain ⟨hsz, hmode, hlc⟩ := hs
      exact ⟨hsz, hmode, hlc.concat (by simpa [a, Option.isSome_iff_ne_none] using hb) hleft _⟩

theorem powerLoss_keepsInv (c : PowerCut) : KeepsInv (powerLoss c) := fun s hs => by
  unfold powerLoss
  extract_lets +lift u t sys kst
  have hu : Inv u := by
    unfold u
    split
    · exact cutShort_keepsInv c s hs
    · exact hs
  obtain ⟨hsz, -, hr, hi, hlc⟩ : Starting t := resetParts_starting .power hu
  clear_value t
  split
  · exact hs
  · exact ⟨hsz, ⟨by simp [sys, hr, hi], by simp [sys, hr]⟩, hlc⟩

theorem perst_keepsInv (w : LinkWidth) (sp : LinkSpeed) : KeepsInv (perst w sp) := fun s hs => by
  obtain ⟨hsz, hmode, hlc⟩ := hs
  obtain ⟨-, -, hports, hfifos, hpins, hchans, hlocks, hslots⟩ := (shaped_iff s).mp hsz
  unfold perst
  split
  · exact ⟨hsz, hmode, hlc⟩
  · extract_lets h on sys hif dfc pair t mbx
    have hrings : t.hif.rings.length = 64 := List.length_replicate
    have hmsix : t.hif.msix.length = 256 := hif_reset_msix_length
    split
    · refine ⟨(shaped_iff _).mpr ⟨hrings, hmsix, hports, hfifos, hpins, ?_, List.length_replicate, hslots⟩, hmode, hlc⟩
      rw [List.length_map]
      exact hchans
    · exact ⟨(shaped_iff _).mpr ⟨hrings, hmsix, hports, hfifos, hpins, hchans, hlocks, hslots⟩, hmode, hlc⟩

theorem busMasterChange_keepsInv (b : Bool) (x : MsixCtl) (c : DevCtl) : KeepsInv (busMasterChange b x c) := fun s hs => by
  unfold busMasterChange
  split
  · exact hs
  · refine Inv.of_fixed ?_ (busResume_fixed _)
    exact hs

theorem powerState_keepsInv (d3 : Bool) : KeepsInv (powerState d3) := fun s hs => by
  unfold powerState
  split
  · exact hs
  · refine Inv.of_fixed ?_ (busResume_fixed _)
    exact hs

/-- Every command lets its time pass and runs an operation that keeps the invariant. -/
theorem exec_keepsInv (i : Instr) : Runs KeepsInv i := by
  cases h : movesFixed i
  case false =>
    obtain ⟨dt, op, hexec, hfixed, -⟩ := exec_tame h
    exact ⟨dt, op, hexec, hfixed.keepsInv⟩
  case true =>
    cases i
    case powerOn => exact ⟨_, _, rfl, powerOn_keepsInv _⟩
    case powerLoss => exact ⟨_, _, rfl, powerLoss_keepsInv _⟩
    case resetN => exact ⟨_, _, rfl, resetPin_keepsInv _ _⟩
    case sysReset => exact ⟨_, _, rfl, sysResetWrite_keepsInv _ _⟩
    case lifecycle => exact ⟨_, _, rfl, live_keepsInv (lifecycleCmd_keepsInv _ _ _)⟩
    case busMasterEnableChange => exact ⟨_, _, rfl, busMasterChange_keepsInv _ _ _⟩
    case powerStateChange => exact ⟨_, _, rfl, powerState_keepsInv _⟩
    case perstN => exact ⟨_, _, rfl, perst_keepsInv _ _⟩
    all_goals cases h

/-- Settles O3: `exec_keepsInv`, command by command. -/
theorem stepInvariant : Obligations.StepInvariant := by
  unfold Obligations.StepInvariant
  intro s t hs ht
  unfold step at ht
  split at ht
  · cases ht
    exact hs
  next i r hp =>
    obtain ⟨dt, op, hexec, hop⟩ := exec_keepsInv i
    rw [hexec] at ht
    cases ht
    exact hop _ (elapse_keepsInv dt _ hs)

end Sys2Proof.Machine
end

section
/-! SUPPORT. A command runs in the state that intake leaves, and its completion is the last entry of its COMPL ring (R358, R370 to R375). -/

namespace Sys2Proof.Machine

/-! Intake -/

section
variable (o : Opcode) (d : Desc) (s : State)

/-- The command as intake notes it. -/
def headCtx : Ctx := (takeHead d o.code s).1

/-- The state in which a command that passed R375 runs. -/
def taken : State := hifCnt 0 1 (takeHead d o.code s).2

@[simp] theorem taken_rest : (taken o d s).rest = s.rest := rfl

@[simp] theorem taken_sched : (taken o d s).hif.sched = s.hif.sched := rfl

@[simp] theorem busOn_taken : busOn (taken o d s) = busOn s := rfl

end

/-- The fields of a ring that intake leaves alone. -/
def Ring.plan (r : Ring) : Word × Word := (r.cfg, r.quota)

theorem taken_plan (o : Opcode) (d : Desc) (s : State) (n : Nat) : (ringOf (taken o d s) n).plan = (ringOf s n).plan := by
  show (ringOf (modRing _ _ (modRing _ _ s)) n).plan = _
  rw [ringOf_modRing]
  split
  · simp only [Ring.plan]
    rw [ringOf_modRing]
    split <;> rfl
  · rw [ringOf_modRing]
    split <;> rfl

theorem ring_type_congr {r q : Ring} (h : r.cfg = q.cfg) : r.type = q.type := by simp only [Ring.type, h]

theorem taken_cfg (o : Opcode) (d : Desc) (s : State) (n : Nat) : (ringOf (taken o d s) n).cfg = (ringOf s n).cfg := congrArg Prod.fst (taken_plan o d s n)

theorem judgeHead_taken (o : Opcode) (d : Desc) (s : State) : judgeHead o d (taken o d s) = judgeHead o d s := by
  have htype := ring_type_congr (taken_cfg o d s d.ring)
  simp only [judgeHead, htype]
  rfl

/-- A descriptor that CanRun names runs in the state that intake leaves. -/
theorem plainDesc_of_canRun {o : Opcode} {d : Desc} {s : State} (h : CanRun o d s) (run : Ctx → State → State) :
    plainDesc o d run s = noteWaits (run (headCtx o d s) (taken o d s)) := by
  obtain ⟨-, hwaits, hfree, hread, hjudge⟩ := h
  rw [← judgeHead_taken] at hjudge
  simp only [plainDesc, withDesc, hwaits, hfree, hread, Bool.not_true, Bool.false_eq_true, if_false]
  show noteWaits (match judgeHead o d (taken o d s) with | some st => _ | none => _) = _
  rw [hjudge]
  rfl

/-! Rings at intake -/

theorem ring_lt_of_enabled {s : State} {n : Nat} (h : (ringOf s n).enabled = true) : n < s.hif.rings.length := by
  by_contra hn
  rw [ringOf, nth, List.getElem?_eq_none (Nat.le_of_not_lt hn)] at h
  exact absurd h (by decide)

/-- What CanRun says of the host ring and of its COMPL ring. -/
theorem canRun_rings {o : Opcode} {d : Desc} {s : State} (h : CanRun o d s) :
    (ringOf s d.ring).enabled = true ∧ busOn s = true ∧ (ringOf s (ringOf s d.ring).complRing).enabled = true ∧
      (ringOf s (ringOf s d.ring).complRing).type = .compl ∧ (ringOf s (ringOf s d.ring).complRing).held = [] ∧
      0 < (ringOf s (ringOf s d.ring).complRing).room ∧ (ringOf s d.ring).complRing ≠ d.ring := by
  obtain ⟨-, hwaits, hfree, -, -⟩ := h
  simp only [headWaits, Ring.host, Bool.and_eq_true, Bool.or_eq_true, decide_eq_true_eq] at hwaits
  simp only [complFree, Bool.and_eq_true, decide_eq_true_eq, List.isEmpty_iff] at hfree
  obtain ⟨⟨⟨⟨hen, htype⟩, hbus⟩, -⟩, -⟩ := hwaits
  obtain ⟨⟨⟨hcen, hctype⟩, hheld⟩, hroom⟩ := hfree
  refine ⟨hen, hbus, hcen, hctype, hheld, Nat.zero_lt_of_lt hroom, fun e => ?_⟩
  rw [e] at hctype
  simp [hctype] at htype

theorem taken_host {o : Opcode} {d : Desc} {s : State} (h : CanRun o d s) :
    ringOf (taken o d s) d.ring = { ringOf s d.ring with head := ((ringOf s d.ring).head + 1) % (ringOf s d.ring).size, blocked := true } := by
  obtain ⟨hen, -, -, -, -, -, hne⟩ := canRun_rings h
  show ringOf (modRing _ _ (modRing _ _ s)) d.ring = _
  rw [ringOf_modRing_ne hne.symm, ringOf_modRing_same (ring_lt_of_enabled hen)]

theorem taken_compl {o : Opcode} {d : Desc} {s : State} (h : CanRun o d s) :
    ringOf (taken o d s) (ringOf s d.ring).complRing =
      { ringOf s (ringOf s d.ring).complRing with reserved := (ringOf s (ringOf s d.ring).complRing).reserved + 1 } := by
  obtain ⟨-, -, hcen, -, -, -, hne⟩ := canRun_rings h
  show ringOf (modRing _ _ (modRing _ _ s)) (ringOf s d.ring).complRing = _
  rw [ringOf_modRing_same (by simpa [modRing] using ring_lt_of_enabled hcen), ringOf_modRing_ne hne]

/-! Messages leave what a ring holds -/

/-- What a ring holds, as the host sees it. -/
def Ring.shown (r : Ring) : Nat × Bool × List Unit512 := (r.head, r.blocked, r.mem)

theorem modRing_shown {f : Ring → Ring} (h : ∀ r, (f r).shown = r.shown) (n m : Nat) (s : State) :
    (ringOf (modRing n f s) m).shown = (ringOf s m).shown := by
  rw [ringOf_modRing]
  split
  · exact h _
  · rfl

theorem ringIrq_shown (n m : Nat) (s : State) : (ringOf (ringIrq n s) m).shown = (ringOf s m).shown := by
  unfold ringIrq
  extract_lets r
  split
  · rw [ringOf_raiseVec]
    exact modRing_shown (by intro; rfl) n m s
  · rfl

theorem ringSignal_shown (n : Nat) (urgent : Bool) (m : Nat) (s : State) : (ringOf (ringSignal n urgent s) m).shown = (ringOf s m).shown := by
  unfold ringSignal
  extract_lets t r
  have ht : (ringOf t m).shown = (ringOf s m).shown := modRing_shown (by intro; rfl) n m s
  split
  · exact (ringIrq_shown n m t).trans ht
  · exact ht

/-! Writing the completion -/

/-- A completion as its ring holds it: with the PHASE of the pass. -/
def complUnit (b : Compl256) (phase : Bool) : Unit512 := (b ||| BitVec.ofNat 256 (b2n phase <<< 255)).zeroExtend 512

theorem writeCompl_shown_same {n : Nat} {s : State} (hn : n < s.hif.rings.length) (b : Compl256) (irq : Bool) :
    (ringOf (writeCompl n b irq s) n).shown =
      ((ringOf s n).head, (ringOf s n).blocked, (ringOf s n).mem ++ [complUnit b (ringOf s n).phase]) := by
  rw [writeCompl, ringSignal_shown, ringOf_hifCnt, ringOf_modRing_same hn]
  rfl

theorem writeCompl_shown_ne {m n : Nat} (h : m ≠ n) (b : Compl256) (irq : Bool) (s : State) :
    (ringOf (writeCompl n b irq s) m).shown = (ringOf s m).shown := by
  rw [writeCompl, ringSignal_shown, ringOf_hifCnt, ringOf_modRing_ne h]

/-- A completion that falls due with none before it, on a ring that can take it, becomes the ring's last entry. -/
theorem drainHeld_pushed {n : Nat} {s : State} (hn : n < s.hif.rings.length) (hheld : (ringOf s n).held = []) (hopen : complOpen s n = true)
    (hroom : 0 < (ringOf s n).room) (x : Compl256 × Bool) :
    let t := drainHeld n (modRing n (fun r => { r with held := r.held ++ [x] }) s)
    (ringOf t n).mem = (ringOf s n).mem ++ [complUnit x.1 (ringOf s n).phase] ∧ ∀ m ≠ n, (ringOf t m).shown = (ringOf s m).shown := by
  have hself := ringOf_modRing_same hn fun r => { r with held := r.held ++ [x] }
  have hother : ∀ m ≠ n, ringOf (modRing n (fun r => { r with held := r.held ++ [x] }) s) m = ringOf s m := fun m hm => ringOf_modRing_ne hm _ s
  have hlen : n < (modRing n (fun r => { r with held := r.held ++ [x] }) s).hif.rings.length := by simpa [modRing] using hn
  have hopen' : complOpen (modRing n (fun r => { r with held := r.held ++ [x] }) s) n = true := by
    rw [complOpen, hself]
    exact hopen
  generalize modRing n _ s = u at hself hother hlen hopen'
  have hdrain : drainHeld n u = writeCompl n x.1 x.2 (modRing n (fun r => { r with held := [] }) u) := by
    have hroom' : 0 < (ringOf u n).room := by
      rw [hself]
      exact hroom
    have hone : (ringOf u n).held = [x] := by simp [hself, hheld]
    simp [drainHeld, drainHeldN, hone, hopen', hroom']
  have hlen' : n < (modRing n (fun r => { r with held := [] }) u).hif.rings.length := by simpa [modRing] using hlen
  refine ⟨?_, fun m hm => ?_⟩
  · have hmem := congrArg (fun v => v.2.2) (writeCompl_shown_same hlen' x.1 x.2)
    rw [hdrain]
    rw [ringOf_modRing_same hlen, hself] at hmem
    exact hmem
  · rw [hdrain, writeCompl_shown_ne hm, ringOf_modRing_ne hm, hother m hm]

theorem completeWith_eq {c : Ctx} (hblocks : c.blocks = true) (hdisc : c.discard = false) (st : Status) (late : Bool) (tick : Option Nat) (r : Nat)
    (u : State) :
    completeWith c st late tick r u =
      drainHeld c.compl (modRing c.compl (fun q => { q with held := q.held ++ [(complBits c st late tick r u, c.irq)] })
        (modRing c.ring (fun q => { q with blocked := false }) (if st = .state then hifCnt 7 1 u else u))) := by
  have hbits : complBits c st late tick r (if st = .state then hifCnt 7 1 u else u) = complBits c st late tick r u := by split <;> rfl
  simp only [completeWith, hblocks, hdisc, hbits, if_true, Bool.false_eq_true, if_false]

/-- A command that blocks its ring completes: its ring is free again, and the completion is the last entry of its COMPL ring. -/
theorem completeWith_rings {c : Ctx} {u : State} (hring : c.ring < u.hif.rings.length) (hcompl : c.compl < u.hif.rings.length) (hne : c.compl ≠ c.ring)
    (hblocks : c.blocks = true) (hdisc : c.discard = false) (hheld : (ringOf u c.compl).held = []) (hopen : complOpen u c.compl = true)
    (hroom : 0 < (ringOf u c.compl).room) (st : Status) (late : Bool) (tick : Option Nat) (r : Nat) :
    let t := completeWith c st late tick r u
    (ringOf t c.ring).shown = ((ringOf u c.ring).head, false, (ringOf u c.ring).mem) ∧
      (ringOf t c.compl).mem = (ringOf u c.compl).mem ++ [complUnit (complBits c st late tick r u) (ringOf u c.compl).phase] := by
  rw [completeWith_eq hblocks hdisc]
  generalize hv : (if st = .state then hifCnt 7 1 u else u) = v
  have hrings : v.hif.rings = u.hif.rings := by
    rw [← hv]
    split <;> rfl
  have hbus : busOn v = busOn u := by
    rw [← hv]
    split <;> rfl
  have hfreed : ringOf (modRing c.ring (fun q => { q with blocked := false }) v) c.compl = ringOf u c.compl := by
    rw [ringOf_modRing_ne hne, ringOf_congr hrings]
  have hlen : (modRing c.ring (fun q => { q with blocked := false }) v).hif.rings.length = u.hif.rings.length := by simp [modRing, hrings]
  obtain ⟨hmem, hother⟩ := drainHeld_pushed (s := modRing c.ring (fun q => { q with blocked := false }) v) (n := c.compl) (by rwa [hlen])
    (by rwa [hfreed]) (by rwa [complOpen, hfreed, show busOn (modRing _ _ v) = busOn u from hbus]) (by rwa [hfreed]) (complBits c st late tick r u, c.irq)
  refine ⟨?_, ?_⟩
  · rw [hother _ hne.symm, ringOf_modRing_same (by rwa [hrings]), ringOf_congr hrings]
    rfl
  · rw [hmem, hfreed]

/-! The fields of a completion (R373) -/

theorem complUnit_fld (b : Compl256) (phase : Bool) {hi lo : Nat} (h : hi < 255) (hlo : lo ≤ hi) : fld (complUnit b phase).toNat hi lo = fld b.toNat hi lo := by
  refine Nat.eq_of_testBit_eq fun i => ?_
  simp only [fld, Nat.testBit_mod_two_pow, Nat.testBit_shiftRight, BitVec.testBit_toNat, complUnit, BitVec.getLsbD_setWidth, BitVec.getLsbD_or]
  by_cases hi' : i < hi - lo + 1
  · have hlow : lo + i < 255 := by omega
    have hphase : (b2n phase <<< 255).testBit (lo + i) = false := by
      rw [Nat.testBit_shiftLeft]
      simp [Nat.not_le.mpr hlow]
    simp [BitVec.getLsbD_ofNat, hphase, show lo + i < 512 by omega]
  · simp [hi']

theorem complBits_toNat (c : Ctx) (st : Status) (late : Bool) (tick : Option Nat) (r : Nat) (s : State) :
    (complBits c st late tick r s).toNat = st.code % 2 ^ 8 * 2 ^ 240 + c.opcode % 2 ^ 8 * 2 ^ 232 + c.ring % 2 ^ 6 * 2 ^ 226 + b2n late % 2 * 2 ^ 225 +
      b2n tick.isSome % 2 * 2 ^ 224 + c.index % 2 ^ 16 * 2 ^ 208 + c.tag.toNat % 2 ^ 32 * 2 ^ 176 + tick.getD 0 % 2 ^ 32 * 2 ^ 144 +
      ts32 s % 2 ^ 32 * 2 ^ 112 + s.tbu.epoch % 2 ^ 8 * 2 ^ 104 + r % 2 ^ 96 := by
  simp only [complBits, packFields, place, Nat.shiftLeft_eq, BitVec.toNat_ofNat]
  omega

/-- The completion of a command that intake noted for `d`. -/
theorem isCompl_complUnit {c : Ctx} {d : Desc} (hring : c.ring = d.ring) (htag : c.tag = d.tag) (hop : c.opcode < 256) (st : Status) (late : Bool)
    (tick : Option Nat) (r : Nat) (s : State) (phase : Bool) :
    IsCompl (complUnit (complBits c st late tick r s) phase) d c.index c.opcode st r := by
  have hcode : st.code < 256 := by cases st <;> decide
  have htag' : c.tag.toNat < 2 ^ 32 := c.tag.isLt
  simp (disch := decide) only [IsCompl, complUnit_fld]
  simp only [complBits_toNat, fld, Nat.shiftRight_eq_div_pow, ← hring, ← htag]
  refine ⟨?_, ?_, ?_, ?_, ?_, ?_⟩
  · omega
  · omega
  · omega
  · omega
  · omega
  · omega

theorem Opcode.code_lt (o : Opcode) : o.code < 256 := by cases o <;> decide

theorem noteWaits_completes {s t : State} {d : Desc} {op : Nat} {st : Status} {r : Nat} (h : Completes s t d op st r) :
    Completes s (noteWaits t) d op st r := by
  simpa only [Completes, ringOf_noteWaits] using h

/-- A command that ran in the state of intake, and left the two rings as intake did, completes (R358, R370, R373). -/
theorem completeWith_completes {o : Opcode} {d : Desc} {s u : State} (h : CanRun o d s) (hhost : ringOf u d.ring = ringOf (taken o d s) d.ring)
    (hcompl : ringOf u (ringOf s d.ring).complRing = ringOf (taken o d s) (ringOf s d.ring).complRing) (hbus : busOn u = busOn s) (st : Status)
    (late : Bool) (tick : Option Nat) (r : Nat) :
    Completes s (completeWith (headCtx o d s) st late tick r u) d o.code st r := by
  obtain ⟨hen, hon, hcen, hctype, hheld, hroom, hne⟩ := canRun_rings h
  rw [taken_host h] at hhost
  rw [taken_compl h] at hcompl
  have hlen : d.ring < u.hif.rings.length := ring_lt_of_enabled (by rw [hhost]; exact hen)
  have hclen : (ringOf s d.ring).complRing < u.hif.rings.length := ring_lt_of_enabled (by rw [hcompl]; exact hcen)
  have hcen' : (ringOf u (ringOf s d.ring).complRing).enabled = true := (congrArg Ring.enabled hcompl).trans hcen
  have hctype' : (ringOf u (ringOf s d.ring).complRing).type = .compl := (congrArg Ring.type hcompl).trans hctype
  have hopen : complOpen u (ringOf s d.ring).complRing = true := by simp [complOpen, hcen', hctype', hbus, hon]
  obtain ⟨hring, hmem⟩ := completeWith_rings (c := headCtx o d s) hlen hclen hne rfl rfl ((congrArg Ring.held hcompl).trans hheld) hopen
    (hroom.trans_eq (congrArg Ring.room hcompl).symm) st late tick r
  have hcomplUnit := isCompl_complUnit (c := headCtx o d s) (d := d) rfl rfl o.code_lt st late tick r u (ringOf u (headCtx o d s).compl).phase
  refine ⟨?_, congrArg (fun v => v.2.1) hring, _, ?_, hcomplUnit⟩
  · exact (congrArg Prod.fst hring).trans (congrArg Ring.head hhost)
  · exact (congrArg List.getLast? hmem).trans List.getLast?_concat

theorem completeWith_completes_of_rings {o : Opcode} {d : Desc} {s u : State} (h : CanRun o d s) (hr : u.hif.rings = (taken o d s).hif.rings)
    (hbus : busOn u = busOn s) (st : Status) (late : Bool) (tick : Option Nat) (r : Nat) :
    Completes s (completeWith (headCtx o d s) st late tick r u) d o.code st r :=
  completeWith_completes h (ringOf_congr hr _) (ringOf_congr hr _) hbus st late tick r

/-! What messages and the Logbook's intake leave alone -/

@[simp] theorem emitOut_rest (x : Out) (s : State) : (emitOut x s).rest = s.rest := rfl

@[simp] theorem yokeSend_rest (m : YokeOut) (s : State) : (yokeSend m s).rest = s.rest := by simp [yokeSend]

@[simp] theorem mirror_rest (c : MirrorCmd) (s : State) : (mirror c s).rest = s.rest := by simp [mirror]

@[simp] theorem yokeSend_hif (m : YokeOut) (s : State) : (yokeSend m s).hif = s.hif := by
  unfold yokeSend
  split
  · rfl
  · rfl

@[simp] theorem mirror_hif (c : MirrorCmd) (s : State) : (mirror c s).hif = s.hif := by
  unfold mirror
  split
  · exact yokeSend_hif _ s
  · rfl

/-- A state without its host interface, its Logbook and its output. -/
def State.core (s : State) : State := { s with hif := Hif.reset, log := Log.reset, out := [] }

theorem core_of_rest {s t : State} (h : t.rest = s.rest) : t.core = s.core :=
  show t.rest.core = s.rest.core from congrArg State.core h

theorem raiseBlock_rest (b : Nat) (s : State) : (raiseBlock b s).rest = s.rest := raiseVec_rest _ s

theorem logEventBit_core (k : Nat) (s : State) : (logEventBit k s).core = s.core := by
  unfold logEventBit
  extract_lets up log t
  split
  · exact (core_of_rest (raiseBlock_rest 12 t)).trans rfl
  · rfl

theorem logDrop_core (source cls : Nat) (s : State) : (logDrop source cls s).core = s.core := by
  unfold logDrop
  extract_lets l first t u
  split
  · exact logEventBit_core 0 u
  · rfl

theorem logEv_core (event source cls arg : Nat) (s : State) : (logEv event source cls arg s).core = s.core := by
  unfold logEv
  split
  · rfl
  · split
    · exact logDrop_core source cls s
    · rfl

theorem raiseBlock_rings (b : Nat) (s : State) : (raiseBlock b s).hif.rings = s.hif.rings := raiseVec_rings _ s

theorem logEventBit_rings (k : Nat) (s : State) : (logEventBit k s).hif.rings = s.hif.rings := by
  unfold logEventBit
  extract_lets up log t
  split
  · exact raiseBlock_rings 12 t
  · rfl

theorem logDrop_rings (source cls : Nat) (s : State) : (logDrop source cls s).hif.rings = s.hif.rings := by
  unfold logDrop
  extract_lets l first t u
  split
  · exact logEventBit_rings 0 u
  · rfl

theorem logEv_rings (event source cls arg : Nat) (s : State) : (logEv event source cls arg s).hif.rings = s.hif.rings := by
  unfold logEv
  split
  · rfl
  · split
    · exact logDrop_rings source cls s
    · rfl

theorem setRunState_rings (r : RunState) (cause : Nat) (s : State) : (setRunState r cause s).hif.rings = s.hif.rings := by
  unfold setRunState
  extract_lets old t
  split
  · rfl
  · exact logEv_rings ..

theorem busOn_of_fixed {s t : State} (h : t.fixed = s.fixed) : busOn t = busOn s := by
  have hbme := congrArg Fixed.bme h
  have hd3 := congrArg Fixed.d3hot h
  simp only [State.fixed] at hbme hd3
  simp only [busOn, hbme, hd3]

theorem setRunState_core (r : RunState) (cause : Nat) (s : State) :
    (setRunState r cause s).core = { s with sys := { s.sys with runState := r } }.core := by
  unfold setRunState
  extract_lets old t
  split
  · rfl
  · exact logEv_core ..

/-! What depends on neither the host interface nor the output -/

theorem canRun_runState {o : Opcode} {d : Desc} {s : State} (h : CanRun o d s) : o.states.contains s.sys.runState = true := judgeHead_states h.2.2.2.2

theorem canRun_ne {o : Opcode} {d : Desc} {s : State} {r : RunState} (h : CanRun o d s) (hr : o.states.contains r = false) : s.sys.runState ≠ r := by
  rintro rfl
  exact Bool.false_ne_true (hr.symm.trans (canRun_runState h))

theorem sys_of_rest {s t : State} (h : t.rest = s.rest) : t.sys = s.sys := by rw [rest_ext h]

theorem firstAfter_rest {s t : State} (h : t.rest = s.rest) (x : Int) : firstAfter t x = firstAfter s x := by
  rw [rest_ext h]
  rfl

theorem discTime_rest {s t : State} (h : t.rest = s.rest) : discTime t = discTime s := by
  rw [rest_ext h]
  rfl

end Sys2Proof.Machine
end

section
/-! SUPPORT. MAINT_EXIT (R34, R40, R227, R257, R339). -/

namespace Sys2Proof.Machine

/-- A state without what MAINT_EXIT changes. -/
def State.maintRest (s : State) : State := { s with
  sys := Sys.reset, hif := Hif.reset, log := Log.reset, aln := Aln.reset, tkx := Tkx.reset, dfc := Dfc.reset, lse := Lse.reset, osm := Osm.reset
  ge := Ge.reset, ala := Ala.reset, out := [] }

theorem maintRest_ext {s t : State} (h : t.maintRest = s.maintRest) :
    t = { s with sys := t.sys, hif := t.hif, log := t.log, aln := t.aln, tkx := t.tkx, dfc := t.dfc, lse := t.lse, osm := t.osm, ge := t.ge,
                 ala := t.ala, out := t.out } := by
  obtain ⟨⟩ := s
  obtain ⟨⟩ := t
  simp only [State.maintRest, State.mk.injEq] at h ⊢
  simp [h]

theorem maintRest_of_core {s t : State} (h : t.core = s.core) : t.maintRest = s.maintRest :=
  show t.core.maintRest = s.core.maintRest from congrArg State.maintRest h

/-- What MAINT_EXIT does (R34, R40, R227, R257, R286, R339). -/
structure MaintExited (s t : State) : Prop where
  sys    : t.sys = { s.sys with runState := .run }
  placing : t.aln.placing = true
  ticks  : t.aln.ticks = []
  next   : t.aln.next = firstAfter s (discTime s)
  tkx    : t.tkx = { s.tkx with cur := none, notBefore := max s.tkx.notBefore s.tbu.free }
  lims   : t.ala.conds.lims = []
  hold   : ∀ z ∈ t.lse.hold, z = c0
  rest   : t.maintRest = s.maintRest

theorem reopenWindow_maintRest (s : State) : (reopenWindow s).maintRest = s.maintRest := rfl

theorem maintExitBlocks_maintRest (s : State) : (swapsNext (resetChains (reopenWindow (zeroHold (resetSets s))))).maintRest = s.maintRest :=
  reopenWindow_maintRest (zeroHold (resetSets s))

theorem maintExit_exited (s : State) : MaintExited s (maintExit s) := by
  unfold maintExit
  extract_lets v ala conds w
  have hcore := setRunState_core .run 5 w
  exact {
    sys := congrArg State.sys hcore
    placing := congrArg (fun u => u.aln.placing) hcore
    ticks := congrArg (fun u => u.aln.ticks) hcore
    next := congrArg (fun u => u.aln.next) hcore
    tkx := congrArg State.tkx hcore
    lims := congrArg (fun u => u.ala.conds.lims) hcore
    hold := fun z hz => List.eq_of_mem_replicate (Eq.mp (congrArg (fun l : Lse => z ∈ l.hold) (congrArg State.lse hcore)) hz)
    rest := (maintRest_of_core hcore).trans (maintExitBlocks_maintRest s) }

theorem maintExit_rings (s : State) : (maintExit s).hif.rings = s.hif.rings := by
  unfold maintExit
  extract_lets v ala conds w
  exact setRunState_rings .run 5 w

theorem maintExit_busOn {s : State} (h : s.sys.runState ≠ .init) : busOn (maintExit s) = busOn s :=
  busOn_of_fixed (maintExit_fixed s h)

/-- MAINT_EXIT looks at neither the host interface nor the output. -/
theorem MaintExited.of_rest {s s' t t' : State} (h : MaintExited s t) (hs : s.rest = s'.rest) (ht : t'.rest = t.rest) : MaintExited s' t' := by
  obtain ⟨hsys, hplacing, hticks, hnext, htkx, hlims, hhold, hrest⟩ := h
  rw [firstAfter_rest hs, discTime_rest hs] at hnext
  rw [rest_ext hs] at hsys htkx
  have hext := rest_ext ht
  exact {
    sys := hext ▸ hsys
    placing := hext ▸ hplacing
    ticks := hext ▸ hticks
    next := hext ▸ hnext
    tkx := hext ▸ htkx
    lims := hext ▸ hlims
    hold := hext ▸ hhold
    rest := (maintRest_of_core (core_of_rest ht)).trans (hrest.trans (maintRest_of_core (core_of_rest hs))) }

/-- Settles O11: MAINT_EXIT runs in the state of intake, which shares all but the host interface and the output with the state before it. -/
theorem maintExitCompletes : Obligations.MaintExitCompletes := by
  unfold Obligations.MaintExitCompletes
  intro dt d s s0 h
  have hexec : exec (.maintExit dt d) s = .next (live (maintExitCmd d) s0) := rfl
  rw [live, if_pos h.1, maintExitCmd, plainDesc_of_canRun h] at hexec
  refine ⟨_, hexec, ?_⟩
  have hstart : (mirror .maintExit (taken .maintExit d s0)).rest = s0.rest := mirror_rest ..
  have hstate : (mirror .maintExit (taken .maintExit d s0)).sys.runState ≠ .init := by
    rw [sys_of_rest hstart]
    exact canRun_ne h (by decide)
  have hdone : Completes s0 (complete (headCtx .maintExit d s0) .ok (maintExit (mirror .maintExit (taken .maintExit d s0)))) d 0x05 .ok 0 := by
    refine completeWith_completes_of_rings h ?_ ?_ _ _ _ _
    · rw [maintExit_rings, mirror_hif]
    · rw [maintExit_busOn hstate, busOn_of_fixed (mirror_fixed ..), busOn_taken]
  obtain ⟨hsys, hplacing, hticks, hnext, htkx, hlims, hhold, hrest⟩ :=
    (maintExit_exited (mirror .maintExit (taken .maintExit d s0))).of_rest hstart
      (show (noteWaits (complete (headCtx .maintExit d s0) .ok (maintExit (mirror .maintExit (taken .maintExit d s0))))).rest = _ by simp)
  exact ⟨hsys, hplacing, hticks, hnext, htkx, hlims, hhold, maintRest_ext hrest, noteWaits_completes hdone⟩

end Sys2Proof.Machine
end

section
/-! SUPPORT. What messages, completions and refused commands leave alone (R366, R370, R377). -/

namespace Sys2Proof.Machine

/-! What is scheduled stands behind messages, records of the Logbook and completions -/

@[simp] theorem modRing_sched (n : Nat) (f : Ring → Ring) (s : State) : (modRing n f s).hif.sched = s.hif.sched := rfl

@[simp] theorem hifCnt_sched (k n : Nat) (s : State) : (hifCnt k n s).hif.sched = s.hif.sched := rfl

@[simp] theorem raiseVec_sched (v : Nat) (s : State) : (raiseVec v s).hif.sched = s.hif.sched := by
  unfold raiseVec
  split
  · rfl
  · split
    · rfl
    · rfl

@[simp] theorem raiseBlock_sched (b : Nat) (s : State) : (raiseBlock b s).hif.sched = s.hif.sched := raiseVec_sched _ s

theorem hifEvent_sched (k : Nat) (s : State) : (hifEvent k s).hif.sched = s.hif.sched := by
  unfold hifEvent
  extract_lets up hif t
  split
  · exact raiseBlock_sched 1 t
  · rfl

theorem noteWaits_sched (s : State) : (noteWaits s).hif.sched = s.hif.sched := by
  unfold noteWaits
  split
  · exact hifEvent_sched 4 s
  · rfl

theorem logEventBit_sched (k : Nat) (s : State) : (logEventBit k s).hif.sched = s.hif.sched := by
  unfold logEventBit
  extract_lets up log t
  split
  · exact raiseBlock_sched 12 t
  · rfl

theorem logDrop_sched (source cls : Nat) (s : State) : (logDrop source cls s).hif.sched = s.hif.sched := by
  unfold logDrop
  extract_lets l first t u
  split
  · exact logEventBit_sched 0 u
  · rfl

theorem logEv_sched (event source cls arg : Nat) (s : State) : (logEv event source cls arg s).hif.sched = s.hif.sched := by
  unfold logEv
  split
  · rfl
  · split
    · exact logDrop_sched source cls s
    · rfl

theorem setRunState_sched (r : RunState) (cause : Nat) (s : State) : (setRunState r cause s).hif.sched = s.hif.sched := by
  unfold setRunState
  extract_lets old t
  split
  · rfl
  · exact logEv_sched ..

@[simp] theorem ringIrq_sched (n : Nat) (s : State) : (ringIrq n s).hif.sched = s.hif.sched := by
  unfold ringIrq
  extract_lets r
  split
  · exact raiseVec_sched ..
  · rfl

theorem ringSignal_sched (n : Nat) (urgent : Bool) (s : State) : (ringSignal n urgent s).hif.sched = s.hif.sched := by
  unfold ringSignal
  extract_lets t r
  split
  · exact ringIrq_sched n t
  · rfl

theorem writeCompl_sched (n : Nat) (b : Compl256) (irq : Bool) (s : State) : (writeCompl n b irq s).hif.sched = s.hif.sched := ringSignal_sched ..

theorem drainHeldN_sched (n k : Nat) (s : State) : (drainHeldN n k s).hif.sched = s.hif.sched := by
  induction k generalizing s with
  | zero => rfl
  | succ k ih =>
    unfold drainHeldN
    extract_lets r
    split
    · split
      · rw [ih, writeCompl_sched, modRing_sched]
      · rfl
    · rfl

@[simp] theorem completeWith_sched (c : Ctx) (st : Status) (late : Bool) (tick : Option Nat) (r : Nat) (s : State) :
    (completeWith c st late tick r s).hif.sched = s.hif.sched := by
  unfold completeWith
  extract_lets t b u
  have hu : u.hif.sched = s.hif.sched := by
    have ht : t.hif.sched = s.hif.sched := by
      show (if st = .state then hifCnt 7 1 s else s).hif.sched = _
      split <;> rfl
    show (if c.blocks then modRing c.ring _ t else t).hif.sched = _
    split <;> exact ht
  split
  · show t.hif.sched = _
    show (if st = .state then hifCnt 7 1 s else s).hif.sched = _
    split <;> rfl
  · exact (drainHeldN_sched ..).trans hu

@[simp] theorem complete_sched (c : Ctx) (st : Status) (s : State) : (complete c st s).hif.sched = s.hif.sched := completeWith_sched ..

theorem refuse_sched (c : Ctx) (st : Status) (late : Bool) (s : State) : (refuse c st late s).hif.sched = s.hif.sched := by
  rw [refuse, completeWith_sched]
  split <;> rfl

/-! A command refused outside its descriptor counts and completes (R377) -/

/-- A state without its host interface, its Logbook, its output and the counts of the frame chains. -/
def State.calm (s : State) : State := { s.core with dfc := { s.dfc with cnt := [] } }

theorem calm_of_core {s t : State} (h : t.core = s.core) : t.calm = s.calm :=
  show t.core.calm = s.core.calm from congrArg State.calm h

theorem dfc_ext {d e : Dfc} (h : { e with cnt := [] } = { d with cnt := [] }) : e = { d with cnt := e.cnt } := by
  obtain ⟨⟩ := d
  obtain ⟨⟩ := e
  simp only [Dfc.mk.injEq] at h ⊢
  simp [h]

theorem calm_ext {s t : State} (h : t.calm = s.calm) :
    t = { s with hif := t.hif, log := t.log, out := t.out, dfc := { s.dfc with cnt := t.dfc.cnt } } := by
  have hdfc := dfc_ext (congrArg State.dfc h :)
  obtain ⟨⟩ := s
  obtain ⟨⟩ := t
  simp only [State.calm, State.core, State.mk.injEq] at h hdfc ⊢
  rw [← hdfc]
  simp [h]

theorem refuse_calm (c : Ctx) (st : Status) (late : Bool) (s : State) : (refuse c st late s).calm = s.calm := by
  rw [refuse, calm_of_core (core_of_rest (completeWith_rest ..))]
  split <;> rfl

theorem foldl_refuse {α : Type} (l : List α) (f : α → Ctx) (st : Status) (late : Bool) (s : State) :
    (l.foldl (fun s x => refuse (f x) st late s) s).calm = s.calm ∧ (l.foldl (fun s x => refuse (f x) st late s) s).hif.sched = s.hif.sched := by
  induction l generalizing s with
  | nil => exact ⟨rfl, rfl⟩
  | cons x l ih => exact ⟨(ih _).1.trans (refuse_calm ..), (ih _).2.trans (refuse_sched ..)⟩

end Sys2Proof.Machine
end

section
/-! SUPPORT. UNCONFIGURE (R32, R377, R498). -/

namespace Sys2Proof.Machine

/-- No coefficient swap pends on any chain. -/
def noSwaps (s : State) : State := { s with dfc := { s.dfc with chains := s.dfc.chains.map fun c => (c.1, { c.2 with swap := none }) } }

theorem dropIllegal_calm (s : State) : (dropIllegal s).calm = { s with pair := { s.pair with switchAt := none } }.calm := by
  unfold dropIllegal
  extract_lets bad hif t u
  have hu : u.calm = s.calm := (foldl_refuse bad Sched.ctx .state false t).1
  have hpair : u.pair = s.pair := (congrArg State.pair hu :)
  split
  next c hc =>
    rw [calm_of_core (core_of_rest (complete_rest ..))]
    exact (congrArg (fun v : State => { v with pair := { v.pair with switchAt := none } }) hu :)
  next hc =>
    rw [hpair] at hc
    rw [hu, ← hc]

theorem dropIllegal_sched (s : State) : (dropIllegal s).hif.sched = s.hif.sched.filter fun c => c.cmd.inMaint := by
  unfold dropIllegal
  extract_lets bad hif t u
  have hu : u.hif.sched = t.hif.sched := (foldl_refuse bad Sched.ctx .state false t).2
  split
  · rw [complete_sched]
    exact hu
  · exact hu

theorem unconfigure_calm (s : State) :
    (unconfigure s).calm = { s with
      sys := { s.sys with runState := .config, rate := 0 }, dfc := { s.dfc with chains := (noSwaps s).dfc.chains }
      pair := { s.pair with switchAt := none }, ala := (unconfigure s).ala }.calm := by
  unfold unconfigure
  extract_lets swaps dfc t u sys v
  have hu : u.calm = t.calm := (foldl_refuse swaps id .state false t).1
  have hv : v.calm = { t with sys := { t.sys with rate := 0 }, pair := { t.pair with switchAt := none } }.calm :=
    (dropIllegal_calm _).trans
      (congrArg (fun w : State => { w with sys := { w.sys with rate := 0 }, pair := { w.pair with switchAt := none } }) hu :)
  have hset := (calm_of_core (setRunState_core .config 6 v)).trans
    (congrArg (fun w : State => { w with sys := { w.sys with runState := .config } }) hv :)
  exact (congrArg (fun w : State => { w with ala := (drivePins (setRunState .config 6 v)).ala }) hset :)

theorem unconfigure_sched (s : State) : (unconfigure s).hif.sched = s.hif.sched.filter fun c => c.cmd.inMaint := by
  unfold unconfigure
  extract_lets swaps dfc t u sys v
  show (setRunState .config 6 v).hif.sched = _
  rw [setRunState_sched, show v = dropIllegal _ from rfl, dropIllegal_sched]
  exact congrArg (List.filter fun c => c.cmd.inMaint) (foldl_refuse swaps id .state false t).2

theorem unconfigure_rings {s : State} (hsched : s.hif.sched = []) (hswaps : ∀ c ∈ s.dfc.chains, c.2.swap = none) (hswitch : s.pair.switchAt = none) :
    (unconfigure s).hif.rings = s.hif.rings := by
  have hnone : (s.dfc.chains.filterMap fun c => c.2.swap.bind Swap.ctx) = [] :=
    List.filterMap_eq_nil_iff.mpr fun c hc => by rw [hswaps c hc, Option.bind_none]
  unfold unconfigure
  extract_lets swaps dfc t u sys v
  have hu : u = t := by
    show List.foldl _ t swaps = t
    rw [show swaps = [] from hnone, List.foldl_nil]
  have hv : v.hif.rings = s.hif.rings := by
    show (dropIllegal { u with sys := { u.sys with rate := 0 } }).hif.rings = _
    rw [hu]
    simp [dropIllegal, t, hsched, hswitch]
  exact (setRunState_rings .config 6 v).trans hv

/-- Settles O12: what UNCONFIGURE leaves is said up to the host interface, the Logbook, the output and the chains' counts by `unconfigure_calm`. -/
theorem unconfigureCompletes : Obligations.UnconfigureCompletes := by
  unfold Obligations.UnconfigureCompletes
  intro dt d s s0 h
  have hexec : exec (.unconfigure dt d) s = .next (live (unconfigureCmd d) s0) := rfl
  rw [live, if_pos h.1, unconfigureCmd, plainDesc_of_canRun h] at hexec
  refine ⟨_, hexec, ?_⟩
  have hstart : (mirror .unconfigure (taken .unconfigure d s0)).rest = s0.rest := mirror_rest ..
  generalize hv : mirror .unconfigure (taken .unconfigure d s0) = v at hstart
  have hhif : v.hif = (taken .unconfigure d s0).hif := by rw [← hv, mirror_hif]
  have hbus : busOn v = busOn s0 := by rw [← hv, busOn_of_fixed (mirror_fixed ..), busOn_taken]
  have hext := rest_ext hstart
  have hcompletes : s0.hif.sched = [] → (∀ c ∈ s0.dfc.chains, c.2.swap = none) → s0.pair.switchAt = none →
      Completes s0 (noteWaits (complete (headCtx .unconfigure d s0) .ok (unconfigure v))) d 0x06 .ok 0 := by
    intro hsched hswaps hswitch
    have hstate : v.sys.runState ≠ .init := by
      rw [sys_of_rest hstart]
      exact canRun_ne h (by decide)
    refine noteWaits_completes (completeWith_completes_of_rings h ?_ ((busOn_of_fixed (unconfigure_fixed v hstate)).trans hbus) _ _ _ _)
    rw [unconfigure_rings, hhif]
    · rw [hhif]
      exact hsched
    · rw [hext]
      exact hswaps
    · rw [hext]
      exact hswitch
  have hsched : (noteWaits (complete (headCtx .unconfigure d s0) .ok (unconfigure v))).hif.sched = s0.hif.sched.filter fun c => c.cmd.inMaint := by
    rw [noteWaits_sched, complete_sched, unconfigure_sched, hhif]
    rfl
  have hcalm := calm_ext ((calm_of_core (core_of_rest ((noteWaits_rest _).trans (complete_rest (headCtx .unconfigure d s0) .ok _)))).trans (unconfigure_calm v))
  generalize noteWaits (complete (headCtx .unconfigure d s0) .ok (unconfigure v)) = t at hcalm hsched hcompletes ⊢
  generalize (unconfigure v).ala = ala at hcalm
  have hchains : ∀ c ∈ (noSwaps v).dfc.chains, c.2.swap = none := by
    intro c hc
    obtain ⟨e, -, rfl⟩ := List.mem_map.mp hc
    rfl
  generalize (noSwaps v).dfc.chains = chains at hcalm hchains
  rw [hext] at hcalm
  refine ⟨(congrArg State.sys hcalm :), ?_, hsched, (congrArg (fun w => w.pair.switchAt) hcalm :), ?_, hcompletes⟩
  · rw [hcalm]
    exact hchains
  · obtain ⟨⟩ := t
    simp only [State.mk.injEq] at hcalm ⊢
    simp [hcalm]

end Sys2Proof.Machine
end

section
/-! SUPPORT. START (R32, R42, R43, R385, R491). -/

namespace Sys2Proof.Machine

/-! The ports' settings change nothing but the ports, the host interface and the output -/

/-- A state without its ports, its host interface, its Logbook and its output. -/
def State.ashore (s : State) : State := { s.core with net := Net.reset }

theorem ashore_of_core {s t : State} (h : t.core = s.core) : t.ashore = s.ashore :=
  show t.core.ashore = s.core.ashore from congrArg State.ashore h

theorem ite_ashore (c : Prop) [Decidable c] (s t : State) : (if c then s else t).ashore = if c then s.ashore else t.ashore := apply_ite ..

theorem foldl_ashore {α : Type} (f : State → α → State) (l : List α) (s : State) (h : ∀ s a, (f s a).ashore = s.ashore) :
    (l.foldl f s).ashore = s.ashore := by
  induction l generalizing s with
  | nil => rfl
  | cons a l ih => exact (ih _).trans (h s a)

@[simp] theorem modPort_ashore (p : Nat) (f : Port → Port) (s : State) : (modPort p f s).ashore = s.ashore := rfl

@[simp] theorem netCnt_ashore (p k n : Nat) (s : State) : (netCnt p k n s).ashore = s.ashore := rfl

@[simp] theorem netEvent_ashore (k : Nat) (s : State) : (netEvent k s).ashore = s.ashore := by
  unfold netEvent
  extract_lets up net t
  split
  · exact (ashore_of_core (core_of_rest (raiseBlock_rest 3 t))).trans rfl
  · rfl

@[simp] theorem dropHeld_ashore (p g : Nat) (s : State) : (dropHeld p g s).ashore = s.ashore := by simp [dropHeld]

@[simp] theorem settlePause_ashore (p upTo : Nat) (s : State) : (settlePause p upTo s).ashore = s.ashore := rfl

@[simp] theorem flushDown_ashore (p : Nat) (s : State) : (flushDown p s).ashore = s.ashore := rfl

@[simp] theorem linkDown_ashore (p : Nat) (s : State) : (linkDown p s).ashore = s.ashore := by
  unfold linkDown
  extract_lets q t u v
  split
  · rfl
  · have ht : t.ashore = s.ashore := settlePause_ashore p _ s
    have hu : u.ashore = t.ashore := foldl_ashore _ _ t fun _ g => dropHeld_ashore p g _
    rw [netEvent_ashore, flushDown_ashore]
    exact (modPort_ashore p _ u).trans (hu.trans ht)

@[simp] theorem dsShift_ashore (p : Nat) (down : Bool) (s : State) : (dsShift p down s).ashore = s.ashore := by simp [dsShift, renegotiate, ite_ashore]

@[simp] theorem dsRevoke_ashore (p : Nat) (s : State) : (dsRevoke p s).ashore = s.ashore := by simp [dsRevoke, apply_ite State.ashore]

theorem loadPorts_ashore (i : Image) (s : State) : (loadPorts i s).ashore = s.ashore :=
  foldl_ashore _ _ s fun _ p => by simp [ite_ashore]

/-! What START loads -/

/-- A state without the blocks that START loads. -/
def State.berth (s : State) : State := { s with
  hif := Hif.reset, log := Log.reset, swm := Swm.reset, tkx := Tkx.reset, net := Net.reset, ing := Ing.reset, aln := Aln.reset, dfc := Dfc.reset
  lse := Lse.reset, osm := Osm.reset, sep := Sep.reset, ge := Ge.reset, ala := Ala.reset, out := [] }

theorem berth_of_ashore {s t : State} (h : t.ashore = s.ashore) : t.berth = s.berth :=
  show t.ashore.berth = s.ashore.berth from congrArg State.berth h

theorem loadDfc_berth (i : Image) (s : State) : (loadDfc i s).berth = s.berth := by
  unfold loadDfc
  split <;> rfl

theorem loadAla_berth (i : Image) (s : State) : (loadAla i s).berth = s.berth := rfl

theorem loadSep_berth (i : Image) (s : State) : (loadSep i s).berth = s.berth := rfl

theorem loadOsm_berth (i : Image) (s : State) : (loadOsm i s).berth = s.berth := rfl

theorem loadLse_berth (i : Image) (s : State) : (loadLse i s).berth = s.berth := rfl

theorem loadAln_berth (i : Image) (s : State) : (loadAln i s).berth = s.berth := rfl

theorem loadIng_berth (i : Image) (role : Nat) (s : State) : (loadIng i role s).berth = s.berth := rfl

theorem loadTkx_berth (i : Image) (mode : Nat) (s : State) : (loadTkx i mode s).berth = s.berth := rfl

/-- The engines and tables that START loads, before the ports and the window. -/
def loadBlocks (i : Image) (role : Nat) (s : State) : State :=
  loadAla i (loadSep i (loadOsm i (loadLse i (loadDfc i (loadTkx i (modeReg s) (loadAln i (loadIng i role (loadSys i (modeReg s) s))))))))

theorem loadBlocks_berth (i : Image) (role : Nat) (s : State) : (loadBlocks i role s).berth = (loadSys i (modeReg s) s).berth := by
  rw [loadBlocks, loadAla_berth, loadSep_berth, loadOsm_berth, loadLse_berth, loadDfc_berth, loadTkx_berth, loadAln_berth, loadIng_berth]

theorem loadDfc_tkx (i : Image) (s : State) : (loadDfc i s).tkx = s.tkx := by
  unfold loadDfc
  split <;> rfl

theorem loadAla_tkx (i : Image) (s : State) : (loadAla i s).tkx = s.tkx := rfl

theorem loadSep_tkx (i : Image) (s : State) : (loadSep i s).tkx = s.tkx := rfl

theorem loadOsm_tkx (i : Image) (s : State) : (loadOsm i s).tkx = s.tkx := rfl

theorem loadLse_tkx (i : Image) (s : State) : (loadLse i s).tkx = s.tkx := rfl

theorem loadAll_eq (i : Image) (role : Nat) (s : State) : loadAll i role s = resetChains (openWindow (loadPorts i (loadBlocks i role s))) := rfl

/-- What START does (R32, R42, R43, R385) to what lies outside the blocks it loads, and to the window and the Helm. -/
structure Loaded (i : Image) (s t : State) : Prop where
  berth   : t.berth = (loadSys i (modeReg s) s).berth
  placing : t.aln.placing = true
  ticks   : t.aln.ticks = []
  next    : t.aln.next = firstAfter t (discTime t)
  lastSeq : t.tkx.lastSeq = none
  nextSeq : t.tkx.nextSeq = 0
  cur     : t.tkx.cur = none

theorem tkx_of_ashore {s t : State} (h : t.ashore = s.ashore) : t.tkx = s.tkx := (congrArg State.tkx h :)

theorem loadBlocks_tkx (i : Image) (role : Nat) (s : State) :
    (loadBlocks i role s).tkx = (loadTkx i (modeReg s) (loadAln i (loadIng i role (loadSys i (modeReg s) s)))).tkx := by
  rw [loadBlocks, loadAla_tkx, loadSep_tkx, loadOsm_tkx, loadLse_tkx, loadDfc_tkx]

/-- The window opens on what START loaded. -/
theorem openWindow_loaded {i : Image} {s v : State} (hberth : v.berth = (loadSys i (modeReg s) s).berth) (hlast : v.tkx.lastSeq = none)
    (hnext : v.tkx.nextSeq = 0) : Loaded i s (resetChains (openWindow v)) where
  berth := hberth
  placing := rfl
  ticks := rfl
  next := rfl
  lastSeq := hlast
  nextSeq := hnext
  cur := rfl

theorem loadAll_loaded (i : Image) (role : Nat) (s : State) : Loaded i s (loadAll i role s) := by
  have hports := loadPorts_ashore i (loadBlocks i role s)
  have htkx : (loadPorts i (loadBlocks i role s)).tkx = (loadTkx i (modeReg s) (loadAln i (loadIng i role (loadSys i (modeReg s) s)))).tkx :=
    (tkx_of_ashore hports).trans (loadBlocks_tkx i role s)
  rw [loadAll_eq]
  refine openWindow_loaded ((berth_of_ashore hports).trans (loadBlocks_berth i role s)) ?_ ?_
  · rw [htkx]
    rfl
  · rw [htkx]
    rfl

/-- What START leaves of a module whose image is `i` (R32, R42, R43, R385, R491): `s` before, `t` after. -/
structure Began (i : Image) (s t : State) : Prop where
  run     : t.sys.runState = .run
  rate    : t.sys.rate = i.hier.rate
  guar    : t.sys.guarEff = modeReg s
  placing : t.aln.placing = true
  ticks   : t.aln.ticks = []
  lastSeq : t.tkx.lastSeq = none
  nextSeq : t.tkx.nextSeq = 0
  cur     : t.tkx.cur = none
  next    : t.aln.next = firstAfter t (discTime t)
  tbu     : t.tbu = s.tbu
  flt     : t.flt = s.flt
  kst     : t.kst = s.kst
  mbx     : t.mbx = s.mbx
  image   : t.image = s.image

/-- The state in which START goes to RUN, from `v` as it was loaded. -/
def startReady (role : Nat) (v : State) : State :=
  { v with
      sys := { v.sys with exclusive := false }
      pair := { v.pair with
        role := role, startAt := some v.tbu.free, startPend := none, lastEmit := none, frameSt := List.replicate 8 0, own := [], peer := [],
        finOwn := [], finPeer := [], idOwn := [], idPeer := [], mismatch := 0, idMismatch := List.replicate 8 0, marks := [],
        mirrored := [], frames := [], toMark := [], switchAt := none, st := if role = 0 then .unpaired else v.pair.st } }

/-- START in CONFIG with an image. -/
theorem finishStart_eq {i : Image} {s : State} (himage : s.image = some i) (hrun : s.sys.runState = .config) (c : Ctx) (role : Nat) :
    finishStart c role s =
      let u := startReady role (loadAll i role s)
      completeWith c .ok false (some 0) (u.sys.dp / 1000 * 2 ^ 64) (drivePins (setRunState .run 2 u)) := by
  unfold finishStart
  rw [if_neg (not_not_intro hrun), himage]
  rfl

theorem frate_of_sys {s t : State} (h : t.sys.rate = s.sys.rate) : frate t = frate s := by simp only [frate, h]

theorem discTime_of_tbu {s t : State} (h : t.tbu = s.tbu) : discTime t = discTime s := by
  rw [discTime, discTime, selDom, selDom, selB, selB, h]

theorem firstAfter_of_rate {s t : State} (h : t.sys.rate = s.sys.rate) (x : Int) : firstAfter t x = firstAfter s x := by
  simp only [firstAfter, frate_of_sys h]

/-- What was loaded stands in RUN. -/
theorem Loaded.began {i : Image} {s v w : State} (h : Loaded i s v) {p : Pair} {a : Ala}
    (hw : w.core = { v with sys := { v.sys with exclusive := false, runState := .run }, pair := p, ala := a }.core) : Began i s w := by
  obtain ⟨hberth, hplacing, hticks, hnext, hlast, hseq, hcur⟩ := h
  have hvsys : v.sys = (loadSys i (modeReg s) s).sys := (congrArg State.sys hberth :)
  have hsys : w.sys = { v.sys with exclusive := false, runState := .run } := (congrArg State.sys hw :)
  have htbu : w.tbu = v.tbu := (congrArg State.tbu hw :)
  have haln : w.aln = v.aln := (congrArg State.aln hw :)
  have htkx : w.tkx = v.tkx := (congrArg State.tkx hw :)
  have hrate : w.sys.rate = v.sys.rate := (congrArg Sys.rate hsys :)
  exact {
    run := (congrArg Sys.runState hsys :)
    rate := hrate.trans (congrArg Sys.rate hvsys :)
    guar := (congrArg Sys.guarEff hsys :).trans (congrArg Sys.guarEff hvsys :)
    placing := haln ▸ hplacing
    ticks := haln ▸ hticks
    lastSeq := htkx ▸ hlast
    nextSeq := htkx ▸ hseq
    cur := htkx ▸ hcur
    next := by rw [haln, hnext, firstAfter_of_rate hrate, discTime_of_tbu htbu]
    tbu := htbu.trans (congrArg State.tbu hberth :)
    flt := (congrArg State.flt hw :).trans (congrArg State.flt hberth :)
    kst := (congrArg State.kst hw :).trans (congrArg State.kst hberth :)
    mbx := (congrArg State.mbx hw :).trans (congrArg State.mbx hberth :)
    image := (congrArg State.image hw :).trans (congrArg State.image hberth :) }

theorem Began.of_rest {i : Image} {s s' t t' : State} (h : Began i s t) (hs : s'.rest = s.rest) (ht : t'.rest = t.rest) : Began i s' t' := by
  have hs' := rest_ext hs
  have ht' := rest_ext ht
  generalize s'.hif = hif, s'.out = out at hs'
  generalize t'.hif = hif', t'.out = out' at ht'
  subst hs' ht'
  obtain ⟨hrun, hrate, hguar, hplacing, hticks, hlast, hseq, hcur, hnext, htbu, hflt, hkst, hmbx, himage⟩ := h
  exact ⟨hrun, hrate, hguar, hplacing, hticks, hlast, hseq, hcur, hnext, htbu, hflt, hkst, hmbx, himage⟩

theorem startReady_core (role : Nat) (v : State) :
    (drivePins (setRunState .run 2 (startReady role v))).core = { v with
      sys := { v.sys with exclusive := false, runState := .run }, pair := (startReady role v).pair
      ala := (drivePins (setRunState .run 2 (startReady role v))).ala }.core :=
  (congrArg (fun x : State => { x with ala := (drivePins (setRunState .run 2 (startReady role v))).ala }) (setRunState_core .run 2 (startReady role v)) :)

theorem startReady_began (i : Image) (role : Nat) (s : State) : Began i s (drivePins (setRunState .run 2 (startReady role (loadAll i role s)))) :=
  (loadAll_loaded i role s).began (startReady_core role (loadAll i role s))

theorem startReady_pair (role : Nat) (v : State) : (drivePins (setRunState .run 2 (startReady role v))).pair = (startReady role v).pair :=
  (congrArg State.pair (startReady_core role v) :)

/-! START's checks at intake -/

theorem Ring.size_congr {r q : Ring} (h : r.plan = q.plan) : r.size = q.size := by
  have hcfg : r.cfg = q.cfg := congrArg Prod.fst h
  simp only [Ring.size, hcfg]

theorem Ring.quotaMiB_congr {r q : Ring} (h : r.plan = q.plan) : r.quotaMiB = q.quotaMiB := by
  have hquota : r.quota = q.quota := congrArg Prod.snd h
  simp only [Ring.quotaMiB, hquota]

theorem Ring.enabled_congr {r q : Ring} (h : r.plan = q.plan) : r.enabled = q.enabled := by
  have hcfg : r.cfg = q.cfg := congrArg Prod.fst h
  simp only [Ring.enabled, hcfg]

theorem ringsOk_taken (o : Opcode) (d : Desc) (s : State) (i : Image) (mode : Nat) : ringsOk (taken o d s) i mode = ringsOk s i mode := by
  have hsize := fun n => Ring.size_congr (taken_plan o d s n)
  have hquota := fun n => Ring.quotaMiB_congr (taken_plan o d s n)
  have htype : ∀ n, decide ((ringOf (taken o d s) n).type = .stream) = decide ((ringOf s n).type = .stream) :=
    fun n => congrArg (fun t => decide (t = .stream)) (ring_type_congr (taken_cfg o d s n))
  have henabled := fun n => Ring.enabled_congr (taken_plan o d s n)
  simp only [ringsOk, streamRings, hsize, hquota, htype, henabled]
  -- The two sides differ in their instances of decidability only.
  congr!

theorem judgeStart_taken (o : Opcode) (d : Desc) (s : State) : judgeStart (taken o d s) = judgeStart s := by
  unfold judgeStart
  simp only [ringsOk_taken]
  rfl

/-- Settles O15: what START loads is said by `startReady_began`; a paired module asks its peer, and a check that fails completes at once. -/
theorem startCompletes : Obligations.StartCompletes := by
  unfold Obligations.StartCompletes
  intro dt d s s0 h
  have hexec : exec (.start dt d) s = .next (live (startDesc d) s0) := rfl
  rw [live, if_pos h.1, startDesc, plainDesc_of_canRun h] at hexec
  have hrest : (taken .start d s0).rest = s0.rest := taken_rest ..
  have hconfig : (taken .start d s0).sys.runState = .config := by
    have hstates := canRun_runState h
    rw [sys_of_rest hrest]
    simpa [Opcode.states] using hstates
  refine ⟨?_, ?_, ?_⟩
  · intro i himage hjudge hrole
    rw [startCmd, judgeStart_taken, hjudge] at hexec
    have hrole' : fld (taken .start d s0).pair.cfg.toNat 1 0 = 0 := hrole
    have himage' : (taken .start d s0).image = some i := himage
    simp only [hrole', if_true] at hexec
    rw [finishStart_eq himage' hconfig] at hexec
    refine ⟨_, hexec, ?_⟩
    have hafter : ∀ u : State, (noteWaits (completeWith (headCtx .start d s0) .ok false (some 0) (u.sys.dp / 1000 * 2 ^ 64) 
        (drivePins (setRunState .run 2 u)))).rest = (drivePins (setRunState .run 2 u)).rest := fun u => by simp
    have hpair := congrArg State.pair (hafter (startReady 0 (loadAll i 0 (taken .start d s0))))
    have hpair' := startReady_pair 0 (loadAll i 0 (taken .start d s0))
    obtain ⟨hrun, hrate, hguar, hplacing, hticks, hlast, hseq, hcur, hnext, htbu, hflt, hkst, hmbx, himg⟩ :=
      (startReady_began i 0 (taken .start d s0)).of_rest hrest.symm (hafter _)
    exact ⟨hrun, hrate, hguar, congrArg Pair.st (hpair.trans hpair'), hplacing, hticks, hlast, hseq, hcur, hnext, htbu, hflt, hkst, hmbx, himg⟩
  · intro hjudge hrole
    rw [startCmd, judgeStart_taken, hjudge] at hexec
    have hrole' : fld (taken .start d s0).pair.cfg.toNat 1 0 ≠ 0 := hrole
    simp only [hrole', if_false] at hexec
    refine ⟨_, hexec, ?_⟩
    have hafter : ∀ u : State, (noteWaits (sendHello true u)).rest = u.rest := fun u => by simp [sendHello]
    have hext := rest_ext (hafter { taken .start d s0 with
      sys := { (taken .start d s0).sys with exclusive := true }
      pair := { (taken .start d s0).pair with startPend := some (headCtx .start d s0), askAt := (taken .start d s0).tbu.free } })
    generalize noteWaits (sendHello true _) = t at hext ⊢
    have hsys : t.sys = { s0.sys with exclusive := true } := (congrArg State.sys hext :)
    have hpair : t.pair.startPend = some (headCtx .start d s0) := (congrArg (fun u : State => u.pair.startPend) hext :)
    refine ⟨hsys, ?_, ?_⟩
    · rw [hpair]
      rfl
    · rw [hext]
      rfl
  · intro hjudge
    have hfails : startCmd (headCtx .start d s0) (taken .start d s0) = complete (headCtx .start d s0) (judgeStart s0) (taken .start d s0) := by
      rw [startCmd, judgeStart_taken]
      split
      next hok => exact absurd hok hjudge
      next => rfl
    rw [hfails] at hexec
    exact ⟨_, hexec, onlyHost_of_rest ((noteWaits_rest _).trans (complete_rest ..)),
      noteWaits_completes (completeWith_completes_of_rings h rfl (busOn_taken ..) _ _ _ _)⟩

end Sys2Proof.Machine
end

section
/-! SUPPORT. What a fault enters, marks, restarts and ends, and what it leaves alone (R428 to R439). -/

namespace Sys2Proof.Machine

/-! What records of faults leave alone: all but the Fault Collector, the Logbook and the host interface -/

/-- A state without its Fault Collector, its Logbook, its host interface and its output. -/
def State.quiet (s : State) : State := { s.core with flt := Flt.reset }

theorem quiet_of_core {s t : State} (h : t.core = s.core) : t.quiet = s.quiet :=
  show t.core.quiet = s.core.quiet from congrArg State.quiet h

theorem flt_of_core {s t : State} (h : t.core = s.core) : t.flt = s.flt := (congrArg State.flt h :)

@[simp] theorem raiseBlock_core (b : Nat) (s : State) : (raiseBlock b s).core = s.core := core_of_rest (raiseBlock_rest b s)

/-- An event bit of the Fault Collector. -/
theorem fltEvent_core (k : Nat) (s : State) : (fltEvent k s).core = { s with flt := { s.flt with event := setBit s.flt.event k } }.core := by
  unfold fltEvent
  extract_lets up flt t
  split
  · exact raiseBlock_core 11 t
  · rfl

theorem fltEvent_flt (k : Nat) (s : State) : (fltEvent k s).flt = { s.flt with event := setBit s.flt.event k } := flt_of_core (fltEvent_core k s)

theorem fltEvent_quiet (k : Nat) (s : State) : (fltEvent k s).quiet = s.quiet := (congrArg State.quiet (fltEvent_core k s) :)

theorem logFault_core (r : FaultRec) (s : State) : (logFault r s).core = s.core := logEv_core ..

@[simp] theorem logFault_flt (r : FaultRec) (s : State) : (logFault r s).flt = s.flt := flt_of_core (logFault_core r s)

@[simp] theorem logFault_quiet (r : FaultRec) (s : State) : (logFault r s).quiet = s.quiet := quiet_of_core (logFault_core r s)

@[simp] theorem updFault_quiet (id : Nat) (f : FaultRec → FaultRec) (s : State) : (updFault id f s).quiet = s.quiet := rfl

@[simp] theorem fltCnt_quiet (k : Nat) (s : State) : (fltCnt k s).quiet = s.quiet := rfl

@[simp] theorem driveLow_quiet (s : State) : (driveLow s).quiet = s.quiet := rfl

@[simp] theorem tryRelease_quiet (s : State) : (tryRelease s).quiet = s.quiet := by
  unfold tryRelease
  extract_lets t
  split <;> rfl

/-- The Fault Collector is no part of what `quiet` shows. -/
theorem quiet_flt (s : State) (f : Flt) : { s with flt := f }.quiet = s.quiet := rfl

theorem enterFault_quiet (r : FaultRec) (s : State) : (enterFault r s).quiet = s.quiet := by
  unfold enterFault
  extract_lets p first flt t
  split
  · exact (fltEvent_quiet 5 t).trans (quiet_flt s _)
  · exact quiet_flt s _

theorem clearFault_quiet (id : Nat) (s : State) : (clearFault id s).quiet = s.quiet := (quiet_flt (updFault id _ s) _).trans (updFault_quiet ..)

theorem closeWindow_quiet (id : Nat) (s : State) : (closeWindow id s).quiet = s.quiet := by
  unfold closeWindow
  split
  · rfl
  next r hr =>
    extract_lets t u v
    have hu : u.quiet = s.quiet := (logFault_quiet _ t).trans (updFault_quiet ..)
    have hv : v.quiet = s.quiet := by
      show (if isCondition r.code then u else clearFault id u).quiet = _
      split
      · exact hu
      · exact (clearFault_quiet id u).trans hu
    exact (tryRelease_quiet _).trans ((quiet_flt v _).trans hv)

/-! Identities of faults -/

theorem enterFault_flt (r : FaultRec) (s : State) : (enterFault r s).flt.nextId = s.flt.nextId + 1 ∧ (enterFault r s).flt.cnt = s.flt.cnt ∧
    (enterFault r s).flt.wins = s.flt.wins := by
  unfold enterFault
  extract_lets p first flt t
  split
  · rw [fltEvent_flt]
    exact ⟨rfl, rfl, rfl⟩
  · exact ⟨rfl, rfl, rfl⟩

theorem tryRelease_nextId (s : State) : (tryRelease s).flt.nextId = s.flt.nextId := by
  unfold tryRelease
  extract_lets t
  split <;> rfl

theorem tryRelease_cnt (s : State) : (tryRelease s).flt.cnt = s.flt.cnt := by
  unfold tryRelease
  extract_lets t
  split <;> rfl

/-- FAULT_N stays low while its minimum runs (R432). -/
theorem tryRelease_low {s : State} (hlow : s.flt.low = true) (hmin : s.sys.aon < s.flt.minEnd) : (tryRelease s).flt.low = true := by
  have hnot : decide (s.flt.minEnd ≤ s.sys.aon) = false := decide_eq_false (Nat.not_le.mpr hmin)
  simp [tryRelease, hnot, hlow]

/-- What the closing of a window leaves of the Fault Collector. -/
theorem closeWindow_flt (id : Nat) (s : State) : (closeWindow id s).flt.nextId = s.flt.nextId ∧ (closeWindow id s).flt.cnt = s.flt.cnt ∧
    (s.flt.low = true → s.sys.aon < s.flt.minEnd → (closeWindow id s).flt.low = true) := by
  unfold closeWindow
  split
  · exact ⟨rfl, rfl, fun h _ => h⟩
  next r hr =>
    extract_lets t u v
    have hu : u.flt = t.flt := logFault_flt _ t
    have husys : u.sys = s.sys := (congrArg State.sys (logFault_quiet _ t :) :)
    have hv : v.sys = s.sys ∧ v.flt.nextId = s.flt.nextId ∧ v.flt.cnt = s.flt.cnt ∧ v.flt.low = s.flt.low ∧ v.flt.minEnd = s.flt.minEnd := by
      show (if isCondition r.code then u else clearFault id u).sys = _ ∧ (if isCondition r.code then u else clearFault id u).flt.nextId = _ ∧
        (if isCondition r.code then u else clearFault id u).flt.cnt = _ ∧ (if isCondition r.code then u else clearFault id u).flt.low = _ ∧
        (if isCondition r.code then u else clearFault id u).flt.minEnd = _
      split <;>
        exact ⟨husys, (congrArg Flt.nextId hu :), (congrArg Flt.cnt hu :), (congrArg Flt.low hu :), (congrArg Flt.minEnd hu :)⟩
    obtain ⟨hsys, hid, hcnt, hlow, hmin⟩ := hv
    refine ⟨(tryRelease_nextId _).trans hid, (tryRelease_cnt _).trans hcnt, fun hl hm => tryRelease_low ?_ ?_⟩
    · exact hlow.trans hl
    · show v.sys.aon < v.flt.minEnd
      rw [hsys, hmin]
      exact hm

/-! A fault that is entered (R428, R434, R439) -/

/-- The domain of a fault. -/
def faultDom (x : FaultIn) : Nat := (homeDomain x.code).getD (x.domain % 16)

/-- The fault escalates: it meets another of its domain (R439). -/
def escalates (x : FaultIn) (s : State) : Bool := decide (2 ≤ classOf x.code (faultDom x)) && meets (faultDom x) s

/-- The class a fault is entered with. -/
def classNow (x : FaultIn) (s : State) : Nat := if escalates x s then 3 else classOf x.code (faultDom x)

/-- The record of a fault as it is entered. -/
def faultRecord (x : FaultIn) (s : State) : FaultRec :=
  { id := s.flt.nextId, detail := x.detail, code := x.code, domain := faultDom x, cls := classNow x s, escalated := escalates x s, cleared := false,
    conseq := false, reaction := if escalates x s then rSafe else reactionFor x (faultDom x), result := 0, mode := s.sys.guarEff, mergeCnt := 0,
    mergeSrc := 0, epoch := s.tbu.epoch, tickSeq := s.tkx.lastSeq.getD 0, ts32 := ts32 s, at_ := s.tbu.free }

/-- The Fault Collector with a fault entered and counted, FAULT_N driven as its class asks. -/
def entered (x : FaultIn) (s : State) : State :=
  let t := fltEvent (classNow x s - 1) (fltCnt (classNow x s - 1) (enterFault (faultRecord x s) s))
  let u := if escalates x s then fltEvent 4 (fltCnt 4 t) else t
  if 2 ≤ classNow x s then driveLow u else u

/-- No check before entry holds a fault back. -/
structure Enters (x : FaultIn) (s : State) : Prop where
  init  : s.sys.runState ≠ .init
  code  : faultCodes.contains x.code = true
  safe  : s.sys.runState ≠ .safe ∨ x.code ≠ 0x0A
  mask  : (maskedNow s (faultDom x) && !(outsideDetector x.code) && x.reactionOf.isNone) = false
  apart : mergeInto x (faultDom x) s = none

theorem raiseFault_enters {x : FaultIn} {s : State} (h : Enters x s) :
    raiseFault x s = react x (faultRecord x s) (faultEffect x (entered x s)) := by
  obtain ⟨hinit, hcode, hsafe, hmask, hmerge⟩ := h
  have hfirst : ¬ (s.sys.runState = .init ∨ !(faultCodes.contains x.code)) := by
    rintro (h | h)
    · exact hinit h
    · rw [hcode] at h
      cases h
  have hcounted : ¬ (s.sys.runState = .safe ∧ x.code = 0x0A) := fun h => hsafe.elim (fun k => k h.1) fun k => k h.2
  have hmasked : (maskedNow s (faultDom x) && !(outsideDetector x.code) && x.reactionOf.isNone) ≠ true := by simp [hmask]
  unfold raiseFault
  rw [if_neg hfirst, if_neg hcounted]
  show (if (maskedNow s (faultDom x) && !(outsideDetector x.code) && x.reactionOf.isNone) = true then s else _) = _
  rw [if_neg hmasked]
  show (match mergeInto x (faultDom x) s with | some (w, conseq) => mergeFault w conseq (faultDom x) (classOf x.code (faultDom x)) s | none => _) = _
  rw [hmerge]
  rfl

theorem entered_quiet (x : FaultIn) (s : State) : (entered x s).quiet = s.quiet := by
  simp [entered, apply_ite State.quiet, fltEvent_quiet, enterFault_quiet]

theorem entered_nextId (x : FaultIn) (s : State) : (entered x s).flt.nextId = s.flt.nextId + 1 := by
  have hentered := (enterFault_flt (faultRecord x s) s).1
  unfold entered
  extract_lets t u
  have ht : t.flt.nextId = s.flt.nextId + 1 := by
    show (fltEvent _ _).flt.nextId = _
    rw [fltEvent_flt]
    exact hentered
  have hu : u.flt.nextId = s.flt.nextId + 1 := by
    show (if escalates x s then fltEvent 4 (fltCnt 4 t) else t).flt.nextId = _
    split
    · rw [fltEvent_flt]
      exact ht
    · exact ht
  split <;> exact hu

/-- A CONTAINED or FATAL fault drives FAULT_N low for its minimum (R432). -/
theorem entered_low {x : FaultIn} {s : State} (h : 2 ≤ classNow x s) :
    (entered x s).flt.low = true ∧ (entered x s).flt.minEnd = (entered x s).sys.aon + 256000000 := by
  unfold entered
  extract_lets t u
  rw [if_pos h]
  exact ⟨rfl, rfl⟩

/-! What a fault marks, restarts and discards leaves the Fault Collector alone -/

@[simp] theorem raiseBlock_flt (b : Nat) (s : State) : (raiseBlock b s).flt = s.flt := flt_of_core (raiseBlock_core b s)

@[simp] theorem logEv_flt (event source cls arg : Nat) (s : State) : (logEv event source cls arg s).flt = s.flt := flt_of_core (logEv_core ..)

@[simp] theorem complete_flt (c : Ctx) (st : Status) (s : State) : (complete c st s).flt = s.flt := flt_of_core (core_of_rest (complete_rest ..))

theorem foldl_flt {α : Type} (f : State → α → State) (l : List α) (s : State) (h : ∀ s a, (f s a).flt = s.flt) : (l.foldl f s).flt = s.flt := by
  induction l generalizing s with
  | nil => rfl
  | cons a l ih => exact (ih _).trans (h s a)

@[simp] theorem tbuEvent_flt (k : Nat) (s : State) : (tbuEvent k s).flt = s.flt := by simp [tbuEvent, apply_ite State.flt]

@[simp] theorem ingEvent_flt (k : Nat) (s : State) : (ingEvent k s).flt = s.flt := by simp [ingEvent, apply_ite State.flt]

@[simp] theorem alaEvent_flt (k : Nat) (s : State) : (alaEvent k s).flt = s.flt := by simp [alaEvent, apply_ite State.flt]

@[simp] theorem lseEvent_flt (k : Nat) (s : State) : (lseEvent k s).flt = s.flt := by simp [lseEvent, apply_ite State.flt]

@[simp] theorem kstEvent_flt (k : Nat) (s : State) : (kstEvent k s).flt = s.flt := by simp [kstEvent, apply_ite State.flt]

@[simp] theorem tkxEvent_flt (k : Nat) (s : State) : (tkxEvent k s).flt = s.flt := by simp [tkxEvent, apply_ite State.flt]

@[simp] theorem hifEvent_flt (k : Nat) (s : State) : (hifEvent k s).flt = s.flt := flt_of_core (core_of_rest (hifEvent_rest k s))

theorem evalSuspect_flt (check pairBad : Bool) (s : State) : (evalSuspect check pairBad s).flt = s.flt := by
  simp [evalSuspect, logSuspect, apply_ite State.flt]

/-! The Key Store -/

@[simp] theorem dropRolls_flt (k : Nat) (s : State) : (dropRolls k s).flt = s.flt := foldl_flt _ _ _ fun _ _ => complete_flt ..

@[simp] theorem orphan_flt (by_ cause : Nat) (s : State) (j : Nat) : (orphan by_ cause s j).flt = s.flt := by simp [orphan, kstCnt]

@[simp] theorem revokeOne_flt (k cause : Nat) (s : State) : (revokeOne k cause s).flt = s.flt := by simp [revokeOne, kstCnt, apply_ite State.flt]

theorem revokeSlot_flt (k cause : Nat) (s : State) : (revokeSlot k cause s).flt = s.flt :=
  (foldl_flt _ _ _ fun _ _ => orphan_flt ..).trans (revokeOne_flt k cause s)

theorem keyCell_flt (detail : Nat) (s : State) : (keyCell detail s).flt = s.flt := by
  unfold keyCell
  extract_lets t on l pair u
  have ht : t.flt = s.flt := kstEvent_flt 5 s
  split
  · rw [revokeSlot_flt]
    exact (foldl_flt _ l u fun _ _ => complete_flt ..).trans ht
  · split <;> exact ht

theorem faultEffect_flt (x : FaultIn) (s : State) : (faultEffect x s).flt = s.flt := by
  unfold faultEffect
  split
  · split
    · split
      · exact ingEvent_flt 11 _
      · rfl
    · rfl
  · exact ingEvent_flt 11 _
  · exact lseEvent_flt 6 _
  · rfl
  · exact alaEvent_flt 7 _
  · exact evalSuspect_flt ..
  · rfl
  · rfl
  · exact keyCell_flt ..
  · rfl

/-! Restarts -/

@[simp] theorem traceTask_flt (e : TrEv) (arg : Nat) (t : TEntry) (s : State) : (traceTask e arg t s).flt = s.flt := by
  simp [traceTask, traceRaw, apply_ite State.flt]

theorem flowEnd_flt (result : Bool) (t : TEntry) (s : State) : (flowEnd result t s).flt = s.flt := by
  unfold flowEnd
  split
  · rfl
  · split <;> rfl

theorem cancelOne_flt (arg : Nat) (t : TEntry) (s : State) : (cancelOne arg t s).flt = s.flt := (flowEnd_flt ..).trans (traceTask_flt ..)

theorem cancelWhere_flt (p : TEntry → Bool) (arg : Nat) (s : State) : (cancelWhere p arg s).flt = s.flt := foldl_flt _ _ _ fun _ _ => cancelOne_flt ..

theorem removeEngine_flt (dom : Nat) (inv : Bool) (s : State) : (removeEngine dom inv s).flt = s.flt := by
  unfold removeEngine
  split
  · rfl
  · extract_lets left t
    split <;> exact cancelWhere_flt ..

theorem coldEngine_flt (dom : Nat) (s : State) : (coldEngine dom s).flt = s.flt := by
  unfold coldEngine
  split <;> rfl

theorem unplace_flt (s : State) (h : Nat × Nat) : (unplace s h).flt = s.flt := by
  unfold unplace
  split
  · rfl
  · split
    · rfl
    · split <;> rfl

theorem restartCore_flt (k : Nat) (s : State) : (restartCore k s).flt = s.flt := foldl_flt _ _ _ fun _ _ => rfl

/-- A restart changes of the Fault Collector at most the count of discarded units. -/
theorem restartDomain_nextId (x : FaultIn) (dom : Nat) (s : State) : (restartDomain x dom s).2.flt.nextId = s.flt.nextId := by
  unfold restartDomain
  split
  · rfl
  · split
    · exact congrArg Flt.nextId (foldl_flt _ _ _ unplace_flt)
    · split <;> rfl
  · exact congrArg Flt.nextId (congrArg State.flt (linkDown_ashore x.unit s) :)
  · exact congrArg Flt.nextId (restartCore_flt ..)
  · rfl
  · split
    · rfl
    · show (rerunEngine dom (if inProgress s then coldEngine dom (removeEngine dom (x.code = 8) s) else s)).flt.nextId = _
      show (if inProgress s then coldEngine dom (removeEngine dom (x.code = 8) s) else s).flt.nextId = _
      split
      · exact congrArg Flt.nextId ((coldEngine_flt ..).trans (removeEngine_flt ..))
      · rfl

theorem fifoDrop_flt (n k m : Nat) (flush : Option Nat) (s : State) : (fifoDrop n k m flush s).flt = s.flt := by
  simp [fifoDrop, fifoDrive, apply_ite State.flt]

theorem discarded_nextId {s t : State} (h : t.flt = s.flt) : (discarded t).flt.nextId = s.flt.nextId := (congrArg Flt.nextId h :)

theorem discardUnit_nextId (x : FaultIn) (s : State) : (discardUnit x s).flt.nextId = s.flt.nextId := by
  unfold discardUnit
  split
  · rfl
  · split
    · exact discarded_nextId (flt_of_core (core_of_rest (countLost_rest ..)))
    · rfl
  · extract_lets f
    split
    · rfl
    · exact discarded_nextId (fifoDrop_flt ..)
  · rfl

/-! SAFE (R431) -/

/-- A state without what the entry to SAFE changes beside the run state: what pends, what is placed, ports, balls and frames, open windows. -/
def State.wreck (s : State) : State := { s.ashore with
  sys := { s.sys with runState := .init, maintPend := none, exclusive := false }, flt := { s.flt with wins := [] }, aln := { s.aln with placing := false }
  dfc := Dfc.reset, ala := Ala.reset, pair := { s.pair with startPend := none, keyPend := [], switchAt := none }
  kst := { s.kst with event := 0#32, cnt := [] } }

theorem wreck_of_ashore {s t : State} (h : t.ashore = s.ashore) : t.wreck = s.wreck :=
  show t.ashore.wreck = s.ashore.wreck from congrArg State.wreck h

theorem wreck_of_core {s t : State} (h : t.core = s.core) : t.wreck = s.wreck := wreck_of_ashore (ashore_of_core h)

theorem foldl_wreck {α : Type} (f : State → α → State) (l : List α) (s : State) (h : ∀ s a, (f s a).wreck = s.wreck) :
    (l.foldl f s).wreck = s.wreck := by
  induction l generalizing s with
  | nil => rfl
  | cons a l ih => exact (ih _).trans (h s a)

@[simp] theorem wakePort_ashore (p : Nat) (s : State) : (wakePort p s).ashore = s.ashore := by simp [wakePort, apply_ite State.ashore]

@[simp] theorem queueFrame_ashore (p : Nat) (express : Bool) (f : TxFrame) (s : State) : (queueFrame p express f s).ashore = s.ashore := by
  simp [queueFrame, ite_ashore]

theorem handFrame_ashore (p : Nat) (express : Bool) (f : TxFrame) (s : State) : (handFrame p express f s).ashore = s.ashore := by
  have hcopies : (copies p f s).2.ashore = s.ashore := by
    unfold copies
    split <;> rfl
  exact (foldl_ashore _ _ _ fun _ _ => queueFrame_ashore ..).trans hcopies

/-- A state without what a frame group that sends changes: ports, groups, the Key Store's events and counts. -/
def State.bell (s : State) : State := { s.ashore with ala := Ala.reset, kst := { s.kst with event := 0#32, cnt := [] } }

theorem bell_of_ashore {s t : State} (h : t.ashore = s.ashore) : t.bell = s.bell :=
  show t.ashore.bell = s.ashore.bell from congrArg State.bell h

theorem bell_of_core {s t : State} (h : t.core = s.core) : t.bell = s.bell := bell_of_ashore (ashore_of_core h)

theorem foldl_bell {α : Type} (f : State → α → State) (l : List α) (s : State) (h : ∀ s a, (f s a).bell = s.bell) :
    (l.foldl f s).bell = s.bell := by
  induction l generalizing s with
  | nil => rfl
  | cons a l ih => exact (ih _).trans (h s a)

theorem kstEvent_bell (k : Nat) (s : State) : (kstEvent k s).bell = s.bell := by
  unfold kstEvent
  extract_lets up kst t
  split
  · exact (bell_of_core (raiseBlock_core 13 t)).trans rfl
  · rfl

theorem yokeSend_bell (m : YokeOut) (s : State) : (yokeSend m s).bell = s.bell := bell_of_core (core_of_rest (yokeSend_rest m s))

theorem modGroup_bell (k : Nat) (f : Group → Group) (s : State) : (modGroup k f s).bell = s.bell := rfl

theorem alaCnt_bell (k n : Nat) (s : State) : (alaCnt k n s).bell = s.bell := rfl

theorem setNext_bell (k : Nat) (s : State) : (setNext k s).bell = s.bell := modGroup_bell ..

theorem kstCnt_bell (k n : Nat) (s : State) : (kstCnt k n s).bell = s.bell := rfl

theorem handGroup_bell (k : Nat) (g : Group) (s : State) : (handGroup k g s).bell = s.bell := by
  unfold handGroup
  extract_lets frame t
  have ht : t.bell = s.bell := (alaCnt_bell 6 1 _).trans ((modGroup_bell ..).trans (setNext_bell k s))
  refine (foldl_bell _ _ t fun u p => ?_).trans ht
  split
  · exact bell_of_ashore (handFrame_ashore ..)
  · rfl

theorem sendGroup_bell (k : Nat) (s : State) : (sendGroup k s).bell = s.bell := by
  unfold sendGroup
  split
  · rfl
  · split
    · exact handGroup_bell ..
    · rw [kstEvent_bell, kstCnt_bell, setNext_bell]

theorem newState_bell (k st t : Nat) (s : State) : (newState k st t s).bell = s.bell := by
  unfold newState
  split
  · rfl
  · extract_lets u v
    have hu : u.bell = s.bell := modGroup_bell ..
    have hv : v.bell = s.bell := by
      show (if inPair u && u.sys.runState ≠ .safe then yokeSend (.frameMark k (st % 2 ^ 32)) u else u).bell = _
      split
      · exact (yokeSend_bell _ u).trans hu
      · exact hu
    split
    · exact hv
    · exact (sendGroup_bell k v).trans hv

theorem wreck_of_bell {s t : State} (h : t.bell = s.bell) : t.wreck = s.wreck :=
  show t.bell.wreck = s.bell.wreck from congrArg State.wreck h

theorem newState_wreck (k st t : Nat) (s : State) : (newState k st t s).wreck = s.wreck := wreck_of_bell (newState_bell ..)

theorem yokeSend_wreck (m : YokeOut) (s : State) : (yokeSend m s).wreck = s.wreck := wreck_of_core (core_of_rest (yokeSend_rest m s))

theorem invalidFrames_wreck (s : State) : (invalidFrames s).wreck = s.wreck := by
  unfold invalidFrames
  split
  · rfl
  · refine foldl_wreck _ _ s fun t k => ?_
    split
    · exact newState_wreck ..
    · rfl

theorem completeWith_wreck (c : Ctx) (st : Status) (late : Bool) (tick : Option Nat) (r : Nat) (s : State) :
    (completeWith c st late tick r s).wreck = s.wreck := wreck_of_core (core_of_rest (completeWith_rest ..))

theorem refuse_wreck (c : Ctx) (st : Status) (late : Bool) (s : State) : (refuse c st late s).wreck = s.wreck := by
  rw [refuse, completeWith_wreck]
  split <;> rfl

/-- The MAINT_ENTER that waits completes. -/
def failMaint (s : State) : State :=
  match s.sys.maintPend with
  | some (some c, late) => completeWith c .internal late none 0 { s with sys := { s.sys with maintPend := none } }
  | some (none, _) => { s with sys := { s.sys with maintPend := none } }
  | none => s

/-- The START that waits completes. -/
def failStart (s : State) : State :=
  match s.pair.startPend with
  | some c => complete c .internal { s with sys := { s.sys with exclusive := false }, pair := { s.pair with startPend := none } }
  | none => s

/-- What is scheduled completes. -/
def failSched (s : State) : State :=
  s.hif.sched.foldl (fun s c => refuse c.ctx .internal false s) { s with hif := { s.hif with sched := [] } }

/-- The coefficient swaps that pend complete. -/
def failSwaps (s : State) : State :=
  (s.dfc.chains.filterMap fun c => c.2.swap.bind Swap.ctx).foldl (fun s c => refuse c .internal false s) (noSwaps s)

/-- The key commands that wait complete. -/
def failKeys (s : State) : State :=
  s.pair.keyPend.foldl (fun s k => complete k.ctx .internal s) { s with pair := { s.pair with keyPend := [] } }

/-- The switchover that waits completes. -/
def failSwitch (s : State) : State :=
  match s.pair.switchAt with
  | some c => complete c.1 .internal { s with pair := { s.pair with switchAt := none } }
  | none => s

theorem failPending_eq (s : State) : failPending s = failSwitch (failKeys (failSwaps (failSched (failStart (failMaint s))))) := by
  unfold failPending failSwitch failKeys failSwaps failSched failStart failMaint noSwaps
  rfl

theorem failMaint_wreck (s : State) : (failMaint s).wreck = s.wreck := by
  unfold failMaint
  split
  · exact completeWith_wreck ..
  · rfl
  · rfl

theorem failStart_wreck (s : State) : (failStart s).wreck = s.wreck := by
  unfold failStart
  split
  · exact completeWith_wreck ..
  · rfl

theorem failSched_wreck (s : State) : (failSched s).wreck = s.wreck := (foldl_wreck _ _ _ fun _ _ => refuse_wreck ..).trans rfl

theorem failSwaps_wreck (s : State) : (failSwaps s).wreck = s.wreck := (foldl_wreck _ _ _ fun _ _ => refuse_wreck ..).trans rfl

theorem failKeys_wreck (s : State) : (failKeys s).wreck = s.wreck := (foldl_wreck _ _ _ fun _ _ => completeWith_wreck ..).trans rfl

theorem failSwitch_wreck (s : State) : (failSwitch s).wreck = s.wreck := by
  unfold failSwitch
  split
  · exact completeWith_wreck ..
  · rfl

theorem failPending_wreck (s : State) : (failPending s).wreck = s.wreck := by
  rw [failPending_eq, failSwitch_wreck, failKeys_wreck, failSwaps_wreck, failSched_wreck, failStart_wreck, failMaint_wreck]

theorem dropData_wreck (s : State) : (dropData s).wreck = s.wreck := by
  unfold dropData
  split <;> rfl

theorem setRunState_wreck (r : RunState) (cause : Nat) (s : State) : (setRunState r cause s).wreck = s.wreck :=
  (wreck_of_core (setRunState_core r cause s)).trans rfl

theorem wreck_wins (s : State) (l : List Win) : { s with flt := { s.flt with wins := l } }.wreck = s.wreck := rfl

theorem wreck_placing (s : State) (b : Bool) : { s with aln := { s.aln with placing := b } }.wreck = s.wreck := rfl

theorem drivePins_wreck (s : State) : (drivePins s).wreck = s.wreck := rfl

/-- What the entry to SAFE ends, beside FAULT_N. -/
theorem enterSafe_wreck (s : State) : (enterSafe s).wreck = { s with flt := { s.flt with fatal := true, low := true } }.wreck := by
  unfold enterSafe
  extract_lets flt b aln d e f g opens flt'
  show _ = b.wreck
  split
  · rfl
  have he : e.wreck = b.wreck := by rw [invalidFrames_wreck, drivePins_wreck, setRunState_wreck, wreck_placing]
  have hf : f.wreck = b.wreck := by
    show (if isActive e && inPair e then yokeSend .peerFatal e else if inPair e then sendHello false e else e).wreck = _
    split
    · exact (yokeSend_wreck _ e).trans he
    · split
      · exact (yokeSend_wreck _ e).trans he
      · exact he
  have hg : g.wreck = b.wreck := (dropData_wreck _).trans ((failPending_wreck f).trans hf)
  exact (foldl_wreck _ opens _ fun _ _ => wreck_of_core (logFault_core ..)).trans ((wreck_wins g _).trans hg)

/-- What SAFE leaves beside the Fault Collector. -/
def State.hulk (s : State) : State := { s.wreck with flt := Flt.reset }

theorem hulk_of_wreck {s t : State} (h : t.wreck = s.wreck) : t.hulk = s.hulk :=
  show t.wreck.hulk = s.wreck.hulk from congrArg State.hulk h

theorem hulk_of_quiet {s t : State} (h : t.quiet = s.quiet) : t.hulk = s.hulk :=
  show t.quiet.hulk = s.quiet.hulk from congrArg State.hulk h

theorem hulk_flt (s : State) (f : Flt) : { s with flt := f }.hulk = s.hulk := rfl

theorem enterSafe_hulk (s : State) : (enterSafe s).hulk = s.hulk := (hulk_of_wreck (enterSafe_wreck s)).trans (hulk_flt s _)

/-- FAULT_N after the entry to SAFE. -/
theorem enterSafe_flt (s : State) : (enterSafe s).flt.fatal = true ∧ (enterSafe s).flt.low = true ∧ (enterSafe s).flt.nextId = s.flt.nextId :=
  ⟨(congrArg (fun w : State => w.flt.fatal) (enterSafe_wreck s) :), (congrArg (fun w : State => w.flt.low) (enterSafe_wreck s) :),
    (congrArg (fun w : State => w.flt.nextId) (enterSafe_wreck s) :)⟩

theorem setRunState_run (r : RunState) (cause : Nat) (s : State) : (setRunState r cause s).course = ⟨r⟩ :=
  congrArg Course.mk (congrArg (fun w : State => w.sys.runState) (setRunState_core r cause s) :)

theorem course_flt (s : State) (f : Flt) : { s with flt := f }.course = s.course := rfl

theorem enterSafe_run {s : State} (h : s.sys.runState ≠ .init) : (enterSafe s).sys.runState = .safe := by
  rw [← course_safe]
  unfold enterSafe
  extract_lets flt b aln d e f g opens flt'
  split
  next hstop =>
    rcases hstop with hinit | hsafe
    · exact absurd hinit h
    · exact (course_safe b).mpr hsafe
  have he : e.course = ⟨.safe⟩ := by
    rw [invalidFrames_course, drivePins_course]
    exact setRunState_run ..
  have hf : f.course = ⟨.safe⟩ := by
    show (if isActive e && inPair e then yokeSend .peerFatal e else if inPair e then sendHello false e else e).course = _
    split
    · exact (yokeSend_course _ e).trans he
    · split
      · exact (sendHello_course _ e).trans he
      · exact he
  have hg : g.course = ⟨.safe⟩ := (dropData_course _).trans ((failPending_course f).trans hf)
  exact (foldl_course _ opens _ fun _ _ => logFault_course ..).trans ((course_flt g _).trans hg)

/-- A fault that ends FATAL: SAFE, FAULT_N low (R431, R432). -/
structure Wrecked (s t : State) : Prop where
  run    : t.sys.runState = .safe
  fatal  : t.flt.fatal = true
  low    : t.flt.low = true
  nextId : t.flt.nextId = s.flt.nextId
  hulk   : t.hulk = s.hulk

theorem enterSafe_wrecked {s : State} (h : s.sys.runState ≠ .init) : Wrecked s (enterSafe s) :=
  ⟨enterSafe_run h, (enterSafe_flt s).1, (enterSafe_flt s).2.1, (enterSafe_flt s).2.2, enterSafe_hulk s⟩

/-- The record of a fault that ends FATAL, before SAFE. -/
theorem endFatal_eq (id : Nat) (s : State) : ∃ u, endFatal id s = enterSafe u ∧ u.quiet = s.quiet ∧ u.flt.nextId = s.flt.nextId := by
  unfold endFatal
  extract_lets t flt u v
  refine ⟨v, rfl, ?_, ?_⟩
  · show (match liveFault u id with | some r => logFault r u | none => u).quiet = _
    have hu : u.quiet = s.quiet := (quiet_flt t _).trans (updFault_quiet ..)
    split
    · exact (logFault_quiet _ u).trans hu
    · exact hu
  · show (match liveFault u id with | some r => logFault r u | none => u).flt.nextId = _
    split
    · exact (congrArg Flt.nextId (logFault_flt _ u) :)
    · rfl

theorem sys_of_quiet {s t : State} (h : t.quiet = s.quiet) : t.sys = s.sys := (congrArg State.sys h :)

theorem endFatal_wrecked {s : State} (h : s.sys.runState ≠ .init) (id : Nat) : Wrecked s (endFatal id s) := by
  obtain ⟨u, heq, hquiet, hid⟩ := endFatal_eq id s
  have hu : u.sys.runState ≠ .init := by rwa [sys_of_quiet hquiet]
  obtain ⟨hrun, hfatal, hlow, hnext, hhulk⟩ := enterSafe_wrecked hu
  rw [heq]
  exact ⟨hrun, hfatal, hlow, hnext.trans hid, hhulk.trans (hulk_of_quiet hquiet)⟩

/-! Identities over any detection -/

theorem endFatal_nextId (id : Nat) (s : State) : (endFatal id s).flt.nextId = s.flt.nextId := by
  obtain ⟨u, heq, -, hid⟩ := endFatal_eq id s
  rw [heq]
  exact (enterSafe_flt u).2.2.trans hid

theorem mergeFault_nextId (w : Win) (conseq : Bool) (dom cls : Nat) (s : State) : (mergeFault w conseq dom cls s).flt.nextId = s.flt.nextId := by
  unfold mergeFault
  extract_lets t u
  have hu : u.flt.nextId = s.flt.nextId := (congrArg Flt.nextId (fltEvent_flt 3 _) :)
  split
  · exact (endFatal_nextId w.id u).trans hu
  · exact hu

theorem react_nextId (x : FaultIn) (r : FaultRec) (s : State) : (react x r s).flt.nextId = s.flt.nextId := by
  unfold react
  split
  · exact endFatal_nextId ..
  · split
    · extract_lets now w flt t
      have ht : (restartDomain x r.domain t).2.flt.nextId = s.flt.nextId := restartDomain_nextId ..
      generalize restartDomain x r.domain t = y at ht
      show (if y.1 then y.2 else endFatal r.id y.2).flt.nextId = _
      split
      · exact ht
      · exact (endFatal_nextId ..).trans ht
    · split
      · exact (closeWindow_flt ..).1.trans (discardUnit_nextId x s)
      · exact (closeWindow_flt ..).1

/-- A detection is dropped, counted only, merged, or entered (R428, R437, R438, R549). -/
theorem raiseFault_cases (x : FaultIn) (s : State) :
    raiseFault x s = s ∨ (x.code = 0x0A ∧ raiseFault x s = countReadback s) ∨
      (∃ w conseq dom cls, mergeInto x (faultDom x) s = some (w, conseq) ∧ raiseFault x s = mergeFault w conseq dom cls s) ∨ Enters x s := by
  by_cases hstop : s.sys.runState = .init ∨ !(faultCodes.contains x.code)
  · exact .inl (if_pos hstop)
  by_cases hcount : s.sys.runState = .safe ∧ x.code = 0x0A
  · exact .inr (.inl ⟨hcount.2, (if_neg hstop).trans (if_pos hcount)⟩)
  by_cases hmask : (maskedNow s (faultDom x) && !(outsideDetector x.code) && x.reactionOf.isNone) = true
  · exact .inl ((if_neg hstop).trans ((if_neg hcount).trans (if_pos hmask)))
  obtain ⟨hinit, hcode⟩ := not_or.mp hstop
  cases hmerge : mergeInto x (faultDom x) s with
  | some m =>
    refine .inr (.inr (.inl ⟨m.1, m.2, faultDom x, classOf x.code (faultDom x), rfl, ?_⟩))
    refine (if_neg hstop).trans ((if_neg hcount).trans ((if_neg hmask).trans ?_))
    show (match mergeInto x (faultDom x) s with | some (w, conseq) => mergeFault w conseq (faultDom x) (classOf x.code (faultDom x)) s | none => _) = _
    rw [hmerge]
  | none =>
    refine .inr (.inr (.inr ⟨hinit, by simpa using hcode, ?_, Bool.eq_false_iff.mpr hmask, hmerge⟩))
    by_cases hsafe : s.sys.runState = .safe
    · exact .inr fun hc => hcount ⟨hsafe, hc⟩
    · exact .inl hsafe

/-- A detection is one new fault, or none. -/
theorem raiseFault_nextId (x : FaultIn) (s : State) : s.flt.nextId ≤ (raiseFault x s).flt.nextId ∧ (raiseFault x s).flt.nextId ≤ s.flt.nextId + 1 := by
  rcases raiseFault_cases x s with h | ⟨-, h⟩ | ⟨w, conseq, dom, cls, -, h⟩ | h
  · rw [h]
    omega
  · rw [h, show (countReadback s).flt = s.flt from rfl]
    omega
  · rw [h, mergeFault_nextId]
    omega
  · rw [raiseFault_enters h, react_nextId, faultEffect_flt, entered_nextId]
    omega

/-! Faults that concern no word: of the Safety Watch, the Helm, the cores and the pair -/

/-- A fault that is met in no reaction and on no input is entered where no restart masks its detector. -/
theorem enters_plain {x : FaultIn} {s : State} (hreaction : x.reactionOf = none) (hinput : x.inputOf = none) (hinit : s.sys.runState ≠ .init)
    (hcode : faultCodes.contains x.code = true) (hsafe : s.sys.runState ≠ .safe ∨ x.code ≠ 0x0A)
    (hmask : maskedNow s (faultDom x) = false ∨ outsideDetector x.code = true) : Enters x s where
  init := hinit
  code := hcode
  safe := hsafe
  mask := by
    rcases hmask with h | h
    · rw [h, Bool.false_and, Bool.false_and]
    · rw [h, Bool.not_true, Bool.and_false, Bool.false_and]
  apart := by rw [mergeInto, hreaction, hinput]; rfl

/-- A FATAL fault of a module that runs leads to SAFE with FAULT_N low (R429, R431). -/
theorem raiseFault_fatal {x : FaultIn} {s : State} (h : Enters x s) (hreaction : (faultRecord x s).reaction = rSafe)
    (hstate : (faultEffect x (entered x s)).sys.runState ≠ .init) : Wrecked (faultEffect x (entered x s)) (raiseFault x s) := by
  rw [raiseFault_enters h, react, if_pos hreaction]
  exact endFatal_wrecked hstate _

theorem faultRecord_reaction {x : FaultIn} {s : State} (h : escalates x s = true ∨ classOf x.code (faultDom x) = 3) :
    (faultRecord x s).reaction = rSafe := by
  unfold faultRecord
  rcases h with h | h
  · exact if_pos h
  · show (if escalates x s then rSafe else reactionFor x (faultDom x)) = rSafe
    split
    · rfl
    · exact if_pos h

theorem swm_of_hulk {s t : State} (h : t.hulk = s.hulk) : t.swm = s.swm := (congrArg State.swm h :)

theorem swm_of_quiet {s t : State} (h : t.quiet = s.quiet) : t.swm = s.swm := (congrArg State.swm h :)

end Sys2Proof.Machine
end

section
/-! SUPPORT. The Safety Watch (R30, R93, R428, R447, R448). -/

namespace Sys2Proof.Machine

theorem exec_onTick {i : Instr} {dt : Nat} {s : State} {op : State → State} (hexec : exec i s = run dt (onTick op) s)
    (hready : (elapse dt s).sys.ready = true) : exec i s = .next (drainMirrored (settle (op (elapse dt s)))) := by
  rw [hexec, run, onTick, live, if_pos hready]

/-! FATAL faults of the Safety Watch -/

section
variable {s : State} (hinit : s.sys.runState ≠ .init)
include hinit

theorem entered_state (x : FaultIn) : (entered x s).sys.runState ≠ .init := by rwa [sys_of_quiet (entered_quiet x s)]

/-- A FATAL fault that marks nothing beside its record. -/
theorem raiseFault_wrecked {code dom : Nat} (hcode : faultCodes.contains code = true) (hsafe : s.sys.runState ≠ .safe ∨ code ≠ 0x0A)
    (hout : outsideDetector code = true) (hclass : classOf code (faultDom (FaultIn.plain code dom)) = 3)
    (heffect : ∀ t : State, (faultEffect (FaultIn.plain code dom) t).sys = t.sys) :
    Wrecked (faultEffect (FaultIn.plain code dom) (entered (FaultIn.plain code dom) s)) (raiseFault (FaultIn.plain code dom) s) :=
  raiseFault_fatal (enters_plain rfl rfl hinit hcode hsafe (.inr hout)) (faultRecord_reaction (.inr hclass)) (by
    rw [heffect]
    exact entered_state hinit _)

end

theorem toggleLost_wrecked {k : Nat} {s : State} (hinit : s.sys.runState ≠ .init) :
    let t := toggleLost k s
    t.sys.runState = .safe ∧ t.flt.fatal = true ∧ t.flt.low = true ∧ t.swm.hb = setAt s.swm.hb k false ∧
      t.swm.cnt = modAt s.swm.cnt 2 (satAdd · 1) := by
  obtain ⟨hrun, hfatal, hlow, -, hhulk⟩ := raiseFault_wrecked (s := { s with swm := { s.swm with hb := setAt s.swm.hb k false } }) (code := 0x0C)
    (dom := heartDomain k) hinit (by decide) (.inr (by decide)) (by decide) rfl fun _ => rfl
  have hswm := swm_of_hulk hhulk
  have hentered := swm_of_quiet (entered_quiet (FaultIn.plain 0x0C (heartDomain k)) { s with swm := { s.swm with hb := setAt s.swm.hb k false } })
  refine ⟨hrun, hfatal, hlow, (congrArg Swm.hb hswm :).trans (congrArg Swm.hb hentered :), (congrArg Swm.cnt hswm :).trans ?_⟩
  exact congrArg (fun c => modAt c 2 (satAdd · 1)) (congrArg Swm.cnt hentered :)

theorem commitWatch_wrecked {s : State} (hinit : s.sys.runState ≠ .init) (htick : ticking s = true)
    (hreached : tmReached (frate s) s.aln.next ((s.swm.waitMax * fr + msFr : Nat) : Int) (discTime s - jumped s) = true) :
    (commitWatch s).sys.runState = .safe ∧ (commitWatch s).flt.fatal = true ∧ (commitWatch s).flt.low = true := by
  rw [commitWatch, htick, hreached]
  obtain ⟨hrun, hfatal, hlow, -, -⟩ := raiseFault_wrecked (s := s) (code := 0x0D) (dom := 5) hinit (by decide) (.inr (by decide)) (by decide) rfl fun _ => rfl
  exact ⟨hrun, hfatal, hlow⟩

theorem commitWatch_quiet {s : State}
    (h : ticking s = false ∨ tmReached (frate s) s.aln.next ((s.swm.waitMax * fr + msFr : Nat) : Int) (discTime s - jumped s) = false) :
    commitWatch s = s := by
  refine if_neg ?_
  rcases h with h | h
  · rw [h, Bool.false_and]
    exact Bool.false_ne_true
  · rw [h, Bool.and_false]
    exact Bool.false_ne_true

theorem phaseWatch_none {s : State} (hcur : s.tkx.cur = none) : phaseWatch s = s := by rw [phaseWatch, hcur]

theorem phaseWatch_wrecked {s : State} {c : Cur} (hcur : s.tkx.cur = some c) (hrun : s.sys.runState = .run)
    (hmarks : (c.d1 && c.d2 && !c.lateMark) = false) (hlimit : c.at_ + markLimit s ≤ s.tbu.free) :
    (phaseWatch s).sys.runState = .safe ∧ (phaseWatch s).flt.fatal = true ∧ (phaseWatch s).flt.low = true := by
  have hlate : (!(c.d1 && c.d2) || c.lateMark) = true := by
    rw [← Bool.not_eq_false', ← hmarks]
    simp
  have hinit : s.sys.runState ≠ .init := by
    rw [hrun]
    decide
  rw [phaseWatch, hcur]
  simp only [hrun, hlate, hlimit, decide_true, Bool.and_self, if_true]
  obtain ⟨hrun, hfatal, hlow, -, -⟩ := raiseFault_wrecked (s := s) (code := 0x0E) (dom := 10) hinit (by decide) (.inr (by decide)) (by decide) rfl fun _ => rfl
  exact ⟨hrun, hfatal, hlow⟩

theorem phaseWatch_quiet {s : State} {c : Cur} (hcur : s.tkx.cur = some c)
    (h : (c.d1 && c.d2 && !c.lateMark) = true ∨ s.tbu.free < c.at_ + markLimit s) : phaseWatch s = s := by
  rw [phaseWatch, hcur]
  refine if_neg ?_
  simp only [Bool.and_eq_true, decide_eq_true_eq]
  rintro ⟨⟨-, hlate⟩, hlimit⟩
  rcases h with h | h
  · simp only [Bool.and_eq_true, Bool.not_eq_true'] at h
    obtain ⟨⟨h1, h2⟩, h3⟩ := h
    simp [h1, h2, h3] at hlate
  · omega

theorem selfTest_pass (s : State) :
    selfTest true true s = { s with swm := { s.swm with selfPass := true, lockOk := true, selfTs := ts32 s, cnt := modAt s.swm.cnt 0 (satAdd · 1) } } := rfl

theorem selfTest_wrecked {a b : Bool} {s : State} (hinit : s.sys.runState ≠ .init) (hfail : (a && b) = false) :
    let t := selfTest a b s
    t.sys.runState = .safe ∧ t.flt.fatal = true ∧ t.flt.low = true ∧ t.swm.selfPass = false ∧ t.swm.lockOk = a := by
  obtain ⟨hrun, hfatal, hlow, -, hhulk⟩ := raiseFault_wrecked (s := { s with swm := { s.swm with selfPass := false, lockOk := a } }) (code := 0x16)
    (dom := 0) hinit (by decide) (.inr (by decide)) (by decide) rfl fun _ => rfl
  have hswm := (swm_of_hulk hhulk).trans (swm_of_quiet (entered_quiet (FaultIn.plain 0x16 0) { s with swm := { s.swm with selfPass := false, lockOk := a } }))
  rw [selfTest, hfail]
  exact ⟨hrun, hfatal, hlow, (congrArg Swm.selfPass hswm :), (congrArg Swm.lockOk hswm :)⟩

/-! The time clock's window (R93) -/

/-- A state without its Sextant's judgement of time, its Logbook, its host interface and its output. -/
def State.clocked (s : State) : State := { s.core with tbu := { s.tbu with event := 0#32, suspect := false, lastBad := none } }

theorem clocked_of_core {s t : State} (h : t.core = s.core) : t.clocked = s.clocked :=
  show t.core.clocked = s.core.clocked from congrArg State.clocked h

theorem tbuEvent_clocked (k : Nat) (s : State) : (tbuEvent k s).clocked = s.clocked := by
  unfold tbuEvent
  extract_lets up tbu t
  have ht : t.clocked = s.clocked := rfl
  split
  · exact (clocked_of_core (raiseBlock_core 2 t)).trans ht
  · exact ht

theorem clocked_suspect (s : State) (b : Bool) (n : Option Nat) : { s with tbu := { s.tbu with suspect := b, lastBad := n } }.clocked = s.clocked := rfl

theorem clocked_good (s : State) : { s with tbu := { s.tbu with suspect := false } }.clocked = s.clocked := rfl

theorem evalSuspect_clocked (check pairBad : Bool) (s : State) : (evalSuspect check pairBad s).clocked = s.clocked := by
  unfold evalSuspect
  split
  · extract_lets was tbu t
    split
    · exact clocked_suspect ..
    · exact (clocked_of_core (logEv_core ..)).trans ((tbuEvent_clocked 4 t).trans (clocked_suspect ..))
  · split
    · exact (clocked_of_core (logEv_core ..)).trans ((tbuEvent_clocked 5 _).trans (clocked_good s))
    · rfl

theorem clockFault_clocked {s t : State} (h : t.clocked = s.clocked) : t.tbu.clockFault = s.tbu.clockFault :=
  (congrArg (fun u : State => u.tbu.clockFault) h :)

theorem clockFault_hulk {s t : State} (h : t.hulk = s.hulk) : t.tbu.clockFault = s.tbu.clockFault :=
  (congrArg (fun u : State => u.tbu.clockFault) h :)

/-- A failed window of the time clock marks its fault and drives FAULT_N low. -/
theorem raiseFault_clock {s : State} (hinit : s.sys.runState ≠ .init) :
    let t := raiseFault (FaultIn.plain 0x0B 2) s
    t.swm = s.swm ∧ t.tbu.clockFault = true ∧ t.flt.low = true := by
  intro t
  have henters : Enters (FaultIn.plain 0x0B 2) s := enters_plain rfl rfl hinit (by decide) (.inr (by decide)) (.inr (by decide))
  have hclass : 2 ≤ classNow (FaultIn.plain 0x0B 2) s := by
    unfold classNow
    split <;> decide
  obtain ⟨hlow, hmin⟩ := entered_low hclass
  have hquiet := entered_quiet (FaultIn.plain 0x0B 2) s
  have heq : t = react (FaultIn.plain 0x0B 2) (faultRecord (FaultIn.plain 0x0B 2) s)
      (faultEffect (FaultIn.plain 0x0B 2) (entered (FaultIn.plain 0x0B 2) s)) := raiseFault_enters henters
  generalize entered (FaultIn.plain 0x0B 2) s = u at hlow hmin hquiet heq
  have heffect : (faultEffect (FaultIn.plain 0x0B 2) u).clocked = { u with tbu := { u.tbu with clockFault := true } }.clocked := evalSuspect_clocked ..
  generalize faultEffect (FaultIn.plain 0x0B 2) u = v at heffect heq
  have hmark : v.tbu.clockFault = true := clockFault_clocked heffect
  have hvswm : v.swm = u.swm := (congrArg State.swm heffect :)
  have hswm : v.swm = s.swm := hvswm.trans (swm_of_quiet hquiet)
  have hsys : v.sys = u.sys := (congrArg State.sys heffect :)
  have hflt : v.flt = u.flt := (congrArg State.flt heffect :)
  have hstate : v.sys.runState ≠ .init := by rwa [hsys, sys_of_quiet hquiet]
  by_cases hesc : escalates (FaultIn.plain 0x0B 2) s = true
  · rw [react, if_pos (faultRecord_reaction (.inl hesc))] at heq
    obtain ⟨-, -, hlow', -, hhulk⟩ := endFatal_wrecked hstate (faultRecord (FaultIn.plain 0x0B 2) s).id
    rw [← heq] at hlow' hhulk
    exact ⟨(swm_of_hulk hhulk).trans hswm, (clockFault_hulk hhulk).trans hmark, hlow'⟩
  · have hmarks : (faultRecord (FaultIn.plain 0x0B 2) s).reaction = rMark := by
      unfold faultRecord
      exact if_neg hesc
    have hclose : t = closeWindow (faultRecord (FaultIn.plain 0x0B 2) s).id v := by
      rw [heq, react, hmarks]
      rfl
    have hquiet' := closeWindow_quiet (faultRecord (FaultIn.plain 0x0B 2) s).id v
    rw [← hclose] at hquiet'
    refine ⟨(swm_of_quiet hquiet').trans hswm, (congrArg (fun w : State => w.tbu.clockFault) hquiet' :).trans hmark, ?_⟩
    rw [hclose]
    refine (closeWindow_flt _ v).2.2 ?_ ?_
    · rw [hflt]
      exact hlow
    · rw [hflt, hsys, hmin]
      omega

/-- How far a window of the SAFE clock is off, by TBU_FREE. -/
def windowOff (s : State) : Nat := ((s.tbu.free : Int) - s.swm.winAt - ((50 * msFr : Nat) : Int)).natAbs

theorem clockWindow_eq {s : State} (hrunning : s.tbu.running = true) :
    clockWindow s = (let t := { s with swm := { s.swm with winAt := s.tbu.free } }
      if 50 * msFr < windowOff s * 1000 then raiseFault (FaultIn.plain 0x0B 2) t else t) := by
  rw [clockWindow, hrunning, windowOff, Nat.cast_mul]
  rfl

theorem clockWindow_good {s : State} (hrunning : s.tbu.running = true) (h : windowOff s * 1000 ≤ 50 * msFr) :
    clockWindow s = { s with swm := { s.swm with winAt := s.tbu.free } } := by
  rw [clockWindow_eq hrunning, if_neg (Nat.not_lt.mpr h)]

theorem clockWindow_bad {s : State} (hinit : s.sys.runState ≠ .init) (hrunning : s.tbu.running = true)
    (h : 50 * msFr < windowOff s * 1000) :
    (clockWindow s).swm.winAt = s.tbu.free ∧ (clockWindow s).tbu.clockFault = true ∧ (clockWindow s).flt.low = true := by
  have hraised : clockWindow s = raiseFault (FaultIn.plain 0x0B 2) { s with swm := { s.swm with winAt := s.tbu.free } } := by
    rw [clockWindow_eq hrunning, if_pos h]
  obtain ⟨hswm, hfault, hlow⟩ := raiseFault_clock (s := { s with swm := { s.swm with winAt := s.tbu.free } }) hinit
  rw [hraised]
  exact ⟨congrArg Swm.winAt hswm, hfault, hlow⟩

/-! A control core's watchdog (R447) -/

theorem restartCore_sys (k : Nat) (s : State) : (restartCore k s).sys = s.sys := by
  unfold restartCore
  induction coreChans k generalizing s with
  | nil => rfl
  | cons c l ih => exact ih (modChan c clearChan s)

theorem fwWatch_restarts {k : Nat} {s : State} (hinit : s.sys.runState ≠ .init) (hmask : maskedNow s 12 = false) (hmeets : meets 12 s = false) :
    let t := fwWatch k s
    t.flt.low = true ∧ t.sys = s.sys ∧ ∃ w ∈ t.flt.wins, w.domain = 12 ∧ w.unit = k % 4 ∧ w.id = s.flt.nextId := by
  intro t
  have henters : Enters { FaultIn.plain 0x11 12 with unit := k % 4 } s := enters_plain rfl rfl hinit rfl (.inr (by show (0x11 : Nat) ≠ 0x0A; decide)) (.inl hmask)
  have hesc : escalates { FaultIn.plain 0x11 12 with unit := k % 4 } s = false := by
    show (decide (2 ≤ classOf 0x11 12) && meets 12 s) = false
    rw [hmeets, Bool.and_false]
  have hclass : 2 ≤ classNow { FaultIn.plain 0x11 12 with unit := k % 4 } s := by
    rw [classNow, hesc]
    show 2 ≤ classOf 0x11 12
    decide
  have hreaction : (faultRecord { FaultIn.plain 0x11 12 with unit := k % 4 } s).reaction = rRestart := by
    unfold faultRecord
    rw [hesc]
    rfl
  have hid : (faultRecord { FaultIn.plain 0x11 12 with unit := k % 4 } s).id = s.flt.nextId := rfl
  have hdom : (faultRecord { FaultIn.plain 0x11 12 with unit := k % 4 } s).domain = 12 := rfl
  obtain ⟨hlow, -⟩ := entered_low hclass
  have hquiet := entered_quiet { FaultIn.plain 0x11 12 with unit := k % 4 } s
  have heq : t = react { FaultIn.plain 0x11 12 with unit := k % 4 } (faultRecord { FaultIn.plain 0x11 12 with unit := k % 4 } s)
      (entered { FaultIn.plain 0x11 12 with unit := k % 4 } s) := raiseFault_enters henters
  generalize entered { FaultIn.plain 0x11 12 with unit := k % 4 } s = u at hlow hquiet heq
  generalize faultRecord { FaultIn.plain 0x11 12 with unit := k % 4 } s = r at hreaction hid hdom heq
  have hrestart : ∃ v, t = restartCore (k % 4) v ∧ v.sys = u.sys ∧ v.flt.low = u.flt.low ∧
      { id := r.id, domain := r.domain, unit := k % 4, resetEnd := u.tbu.free + resetLen r.domain, waits := false } ∈ v.flt.wins := by
    rw [heq, react, hreaction, hdom]
    exact ⟨_, rfl, rfl, rfl, List.mem_append_right _ (List.mem_singleton_self _)⟩
  obtain ⟨v, htv, hsys, hvlow, hwin⟩ := hrestart
  have hflt := restartCore_flt (k % 4) v
  rw [← htv] at hflt
  refine ⟨by rw [hflt, hvlow, hlow], ?_, _, hflt ▸ hwin, hdom, rfl, hid⟩
  rw [htv, restartCore_sys, hsys, sys_of_quiet hquiet]

/-! A scrub pass (R30) -/

theorem scrubPass_nextId (l : List FaultIn) (s : State) :
    s.flt.nextId ≤ (scrubPass l s).flt.nextId ∧ (scrubPass l s).flt.nextId ≤ s.flt.nextId + l.length := by
  induction l generalizing s with
  | nil => exact ⟨Nat.le_refl _, Nat.le_refl _⟩
  | cons x l ih =>
    have hfirst := raiseFault_nextId x s
    have hrest := ih (raiseFault x s)
    show s.flt.nextId ≤ (scrubPass l (raiseFault x s)).flt.nextId ∧ (scrubPass l (raiseFault x s)).flt.nextId ≤ s.flt.nextId + (x :: l).length
    rw [List.length_cons]
    omega

/-- Settles O55: each watch is one fault of the Fault Collector, or none. -/
theorem safetyWatchRows : Obligations.SafetyWatchRows := by
  unfold Obligations.SafetyWatchRows
  intro dt k a b l x s s0 hready hinit now ends safe nothing
  refine ⟨fun hsafe => ⟨fun hk => ?_, fun htick hreached => ?_, fun c hcur hrun hmarks hlimit => ?_, fun hfail => ?_⟩, fun hk => ?_, fun hnot => ?_, fun hcur => ?_,
    fun c hcur hnot => ?_, fun hrunning => ⟨fun hin => ?_, fun hout => ?_⟩, ?_, fun hmask hmeets => ?_, ?_, ?_⟩
  · obtain ⟨hrun, hfatal, hlow, hhb, hcnt⟩ := toggleLost_wrecked (k := k) hinit
    refine ⟨toggleLost k s0, ?_, ⟨hrun, hfatal, hlow⟩, hhb, hcnt⟩
    exact (exec_onTick (op := fun s => if k < 3 then toggleLost k s else s) rfl hready).trans (by rw [if_pos hk])
  · exact ⟨commitWatch s0, exec_onTick rfl hready, commitWatch_wrecked hinit htick hreached⟩
  · exact ⟨phaseWatch s0, exec_onTick rfl hready, phaseWatch_wrecked hcur hrun hmarks hlimit⟩
  · obtain ⟨hrun, hfatal, hlow, hpass, hlock⟩ := selfTest_wrecked hinit hfail
    exact ⟨selfTest a b s0, exec_onTick rfl hready, ⟨hrun, hfatal, hlow⟩, hpass, hlock⟩
  · exact (exec_onTick (op := fun s => if k < 3 then toggleLost k s else s) rfl hready).trans (by rw [if_neg (Nat.not_lt.mpr hk)])
  · exact (exec_onTick (op := commitWatch) rfl hready).trans (by rw [commitWatch_quiet hnot])
  · exact (exec_onTick (op := phaseWatch) rfl hready).trans (by rw [phaseWatch_none hcur])
  · exact (exec_onTick (op := phaseWatch) rfl hready).trans (by rw [phaseWatch_quiet hcur hnot])
  · exact (exec_onTick (op := clockWindow) rfl hready).trans (by rw [clockWindow_good hrunning hin])
  · exact ⟨clockWindow s0, exec_onTick rfl hready, clockWindow_bad hinit hrunning hout⟩
  · exact (exec_onTick (op := selfTest true true) rfl hready).trans (by rw [selfTest_pass])
  · exact ⟨fwWatch k s0, exec_onTick rfl hready, fwWatch_restarts hinit hmask hmeets⟩
  · rfl
  · exact ⟨scrubPass l s0, exec_onTick rfl hready, scrubPass_nextId l s0⟩

end Sys2Proof.Machine
end

section
/-! SUPPORT. Records on a stream ring, and events of the Pair Controller (R361, R487 to R510). -/

namespace Sys2Proof.Machine

/-! Records handed to a stream ring: the ring engine and the intake of scheduled commands -/

@[simp] theorem placeUnits_sched (n typ : Nat) (us : List Unit512) (s : State) : (placeUnits n typ us s).hif.sched = s.hif.sched := by
  unfold placeUnits
  extract_lets r u0 t v w
  have hv : v.hif.sched = s.hif.sched := (hifCnt_sched ..).trans ((hifCnt_sched ..).trans (modRing_sched ..))
  refine (ringSignal_sched n _ w).trans ?_
  show (if typ = 3 then hifCnt 5 1 (modRing n (fun r => { r with refAt := some (discTime v) }) v) else v).hif.sched = _
  split
  · exact (hifCnt_sched ..).trans ((modRing_sched ..).trans hv)
  · exact hv

@[simp] theorem placeRec_sched (n : Nat) (r : Rec) (s : State) : (placeRec n r s).hif.sched = s.hif.sched := placeUnits_sched ..

@[simp] theorem drainQueue_sched (n k : Nat) (s : State) : (drainQueue n k s).hif.sched = s.hif.sched := by
  induction k generalizing s with
  | zero => rfl
  | succ k ih =>
    unfold drainQueue
    extract_lets r
    split
    · split <;> simp [ih]
    · split
      · simp [ih]
      · rfl
    · rfl

@[simp] theorem drainRing_sched (n : Nat) (s : State) : (drainRing n s).hif.sched = s.hif.sched := drainQueue_sched ..

@[simp] theorem countLost_sched (n k : Nat) (s : State) : (countLost n k s).hif.sched = s.hif.sched := by
  unfold countLost
  split
  · rfl
  · exact hifEvent_sched ..

@[simp] theorem loseNew_sched (n : Nat) (r : Rec) (c : Loss) (s : State) : (loseNew n r c s).hif.sched = s.hif.sched := by
  unfold loseNew
  extract_lets t
  have ht : t.hif.sched = s.hif.sched := countLost_sched ..
  split
  · exact (hifEvent_sched 3 t).trans ht
  · exact ht

@[simp] theorem handRaw_sched (n : Nat) (r : Rec) (s : State) : (handRaw n r s).hif.sched = s.hif.sched := by
  unfold handRaw
  extract_lets g t waits gapN u
  have ht : t.hif.sched = s.hif.sched := by
    show (if r.typ = 1 ∨ r.typ = 2 ∨ r.typ = 5 then modRing n (fun g => { g with refAt := some (discTime s) }) s else s).hif.sched = _
    split <;> rfl
  split
  · exact loseNew_sched ..
  · split
    · exact (drainRing_sched ..).trans ht
    · split
      · split
        · exact ht
        · exact (hifEvent_sched 6 u).trans ht
      · exact (loseNew_sched ..).trans ht

@[simp] theorem handRec_sched (n typ : Nat) (us : List Unit512) (stamp tick : Option Nat) (s : State) :
    (handRec n typ us stamp tick s).hif.sched = s.hif.sched := by
  unfold handRec
  split
  · rfl
  · extract_lets us isRef t
    refine (handRaw_sched n _ t).trans ?_
    show (ite _ _ s).hif.sched = _
    split
    · exact handRaw_sched ..
    · rfl

@[simp] theorem loseNew_rest (n : Nat) (r : Rec) (c : Loss) (s : State) : (loseNew n r c s).rest = s.rest := by
  unfold loseNew
  extract_lets t
  have ht : t.rest = s.rest := countLost_rest ..
  split
  · exact (hifEvent_rest 3 t).trans ht
  · exact ht

@[simp] theorem handRaw_rest (n : Nat) (r : Rec) (s : State) : (handRaw n r s).rest = s.rest := by
  unfold handRaw
  extract_lets g t waits gapN u
  have ht : t.rest = s.rest := by
    show (if r.typ = 1 ∨ r.typ = 2 ∨ r.typ = 5 then modRing n (fun g => { g with refAt := some (discTime s) }) s else s).rest = _
    split <;> rfl
  split
  · exact loseNew_rest ..
  · split
    · exact (drainRing_rest ..).trans ht
    · split
      · split
        · exact ht
        · exact (hifEvent_rest 6 u).trans ht
      · exact (loseNew_rest ..).trans ht

@[simp] theorem handRec_rest (n typ : Nat) (us : List Unit512) (stamp tick : Option Nat) (s : State) :
    (handRec n typ us stamp tick s).rest = s.rest := by
  unfold handRec
  split
  · rfl
  · extract_lets us isRef t
    refine (handRaw_rest n _ t).trans ?_
    show (ite _ _ s).rest = _
    split
    · exact handRaw_rest ..
    · rfl

/-! Events of the Pair Controller (R487 to R510) -/

/-- The state of the pair with an event bit set. -/
def Pair.mark (c : Nat) (p : Pair) : Pair := { p with event := setBit p.event c }

theorem pairSticky_core (c : Nat) (s : State) : (pairSticky c s).core = { s with pair := s.pair.mark c }.core := by
  unfold pairSticky
  extract_lets up pair t
  split
  · exact raiseBlock_core 15 t
  · rfl

theorem pairSticky_sched (c : Nat) (s : State) : (pairSticky c s).hif.sched = s.hif.sched := by
  unfold pairSticky
  extract_lets up pair t
  split
  · exact raiseBlock_sched 15 t
  · rfl

/-- The pair is no part of what the intake changes. -/
theorem core_pair {s t : State} (h : t.core = s.core) (c : Nat) : { t with pair := t.pair.mark c }.core = { s with pair := s.pair.mark c }.core :=
  show { t.core with pair := t.core.pair.mark c } = { s.core with pair := s.core.pair.mark c } from congrArg (fun u : State => { u with pair := u.pair.mark c }) h

theorem pairEvt_core (e : PairEv) (n : PairNote) (s : State) : (pairEvt e n s).core = { s with pair := s.pair.mark e.code }.core := by
  unfold pairEvt
  extract_lets id u t v
  have ht : t.core = s.core := logEv_core ..
  refine (pairSticky_core _ v).trans (core_pair ?_ _)
  show (match (if bitOf t.pair.outRing 6 then some (fld t.pair.outRing.toNat 5 0) else none) with
    | some r => handRec r 0x71 [u] none (some (lastTickSeq t)) t
    | none => t).core = _
  split
  · exact (core_of_rest (handRec_rest ..)).trans ht
  · exact ht

theorem pairEvt_sched (e : PairEv) (n : PairNote) (s : State) : (pairEvt e n s).hif.sched = s.hif.sched := by
  unfold pairEvt
  extract_lets id u t v
  refine (pairSticky_sched _ v).trans ?_
  show (match (if bitOf t.pair.outRing 6 then some (fld t.pair.outRing.toNat 5 0) else none) with
    | some r => handRec r 0x71 [u] none (some (lastTickSeq t)) t
    | none => t).hif.sched = _
  split
  · exact (handRec_sched ..).trans (logEv_sched ..)
  · exact logEv_sched ..

theorem noteStill_core (e : PairEv) (s : State) : (noteStill e s).core = { s with pair := s.pair.mark e.code }.core := pairEvt_core ..

theorem noteStill_pair (e : PairEv) (s : State) : (noteStill e s).pair = s.pair.mark e.code := (congrArg State.pair (noteStill_core e s) :)

theorem sys_of_core {s t : State} (h : t.core = s.core) : t.sys = s.sys := (congrArg State.sys h :)

theorem pair_of_core {s t : State} (h : t.core = s.core) : t.pair = s.pair := (congrArg State.pair h :)

theorem sendHello_core (query : Bool) (s : State) : (sendHello query s).core = s.core := core_of_rest (yokeSend_rest ..)

theorem core_ala {s t : State} (h : t.core = s.core) (a : Ala) : { t with ala := a }.core = { s with ala := a }.core :=
  show { t.core with ala := a } = { s.core with ala := a } from congrArg (fun u : State => { u with ala := a }) h

theorem drivePins_core {s t : State} (h : t.core = s.core) : (drivePins t).core = { s with ala := (drivePins t).ala }.core := core_ala h _

/-- A change of the pair's state: its event, and the pins it may drive. -/
theorem setPair_core (new : PairSt) (e : PairEv) (last : Nat) (s : State) :
    ∃ a, (setPair new e last s).core = { s with pair := { s.pair with st := new }.mark e.code, ala := a }.core :=
  ⟨_, drivePins_core ((sendHello_core ..).trans (pairEvt_core ..))⟩

theorem setPair_sched (new : PairSt) (e : PairEv) (last : Nat) (s : State) : (setPair new e last s).hif.sched = s.hif.sched := by
  have hhello : ∀ u : State, (drivePins (sendHello false u)).hif.sched = u.hif.sched := fun u => congrArg Hif.sched (yokeSend_hif _ u)
  exact (hhello _).trans (pairEvt_sched ..)

end Sys2Proof.Machine
end

section
/-! SUPPORT. Takeover (R505): what it sends, and what it takes over. -/

namespace Sys2Proof.Machine

/-! Takeover (R505): frames, marks and datasets -/

/-- A state without what takeover sends: groups, frames, and the marks that wait. -/
def State.knell (s : State) : State := { s.bell with pair := { s.pair with toMark := [] } }

theorem knell_of_bell {s t : State} (h : t.bell = s.bell) : t.knell = s.knell :=
  show t.bell.knell = s.bell.knell from congrArg State.knell h

theorem knell_of_ashore {s t : State} (h : t.ashore = s.ashore) : t.knell = s.knell := knell_of_bell (bell_of_ashore h)

theorem knell_of_core {s t : State} (h : t.core = s.core) : t.knell = s.knell := knell_of_bell (bell_of_core h)

theorem foldl_knell {α : Type} (f : State → α → State) (l : List α) (s : State) (h : ∀ s a, (f s a).knell = s.knell) :
    (l.foldl f s).knell = s.knell := by
  induction l generalizing s with
  | nil => rfl
  | cons a l ih => exact (ih _).trans (h s a)

theorem knell_toMark (s : State) (l : List (Nat × Nat)) : { s with pair := { s.pair with toMark := l } }.knell = s.knell := rfl

theorem emitMark_core (seq : Nat) (s : State) : (emitMark seq s).core = s.core := by
  unfold emitMark
  split
  · exact core_of_rest (yokeSend_rest ..)
  · rfl

theorem sendMarks_knell (k : Nat) (s : State) : (sendMarks k s).knell = s.knell := by
  induction k generalizing s with
  | zero => rfl
  | succ k ih =>
    unfold sendMarks
    split
    · rfl
    · split
      · rfl
      · exact (ih _).trans ((knell_of_core (emitMark_core ..)).trans (knell_toMark ..))

/-- The pair holds no frame back. -/
def noFrames (s : State) : State := { s with pair := { s.pair with frames := [] } }

theorem knell_noFrames {s t : State} (h : t.knell = s.knell) : (noFrames t).knell = (noFrames s).knell :=
  show noFrames t.knell = noFrames s.knell from congrArg noFrames h

theorem releaseFrames_knell (s : State) : (releaseFrames s).knell = (noFrames s).knell := by
  unfold releaseFrames
  extract_lets l pair t g
  have ht : t.knell = (noFrames s).knell :=
    foldl_knell _ l _ fun _ _ => foldl_knell _ _ _ fun _ _ => knell_of_ashore (handFrame_ashore ..)
  exact (sendMarks_knell ..).trans ((knell_toMark t _).trans ht)

theorem reissueGroups_bell (s : State) : (reissueGroups s).bell = s.bell := foldl_bell _ _ _ fun _ _ => newState_bell ..

/-- The pair as takeover leaves it, but for the marks that wait. -/
def Pair.tookOver (p : Pair) : Pair :=
  { ({ p with peerSt := 0, verified := false, cnt := modAt p.cnt 7 (satAdd · 1), st := .solo }.mark 10) with schedMir := [], frames := [] }

/-- The change of state by which takeover begins. -/
def goSolo (s : State) : State :=
  setPair .solo .takeover (s.pair.lastEmit.getD 0xFFFFFFFF) (pairCnt 7 1 { s with pair := { s.pair with peerSt := 0, verified := false } })

theorem takeover_eq (s : State) : takeover s = reissueGroups (releaseFrames (ownSched (goSolo s))) := rfl

theorem goSolo_core (s : State) :
    ∃ a, (goSolo s).core =
      { s with pair := { s.pair with peerSt := 0, verified := false, cnt := modAt s.pair.cnt 7 (satAdd · 1), st := .solo }.mark 10, ala := a }.core :=
  setPair_core ..

theorem knell_ala (s : State) (p : Pair) (a : Ala) : { s with pair := p, ala := a }.knell = { s with pair := p }.knell := rfl

theorem knell_ownSched {s t : State} (h : t.knell = s.knell) : (ownSched t).knell = (ownSched s).knell :=
  (congrArg (fun u : State => { u with pair := { u.pair with schedMir := [] } }) h :)

theorem takeover_knell (s : State) : (takeover s).knell = { s with pair := s.pair.tookOver }.knell := by
  obtain ⟨a, ha⟩ := goSolo_core s
  have hsolo := (knell_of_core ha).trans (knell_ala s _ a)
  exact (knell_of_bell (reissueGroups_bell _)).trans ((releaseFrames_knell _).trans (knell_noFrames (knell_ownSched hsolo)))

theorem sys_of_knell {s t : State} (h : t.knell = s.knell) : t.sys = s.sys := (congrArg State.sys h :)

theorem tkx_of_knell {s t : State} (h : t.knell = s.knell) : t.tkx = s.tkx := (congrArg State.tkx h :)

theorem pair_of_knell {s t : State} (h : t.knell = s.knell) : t.pair = { s.pair with toMark := t.pair.toMark } := by
  have hpair : { t.pair with toMark := [] } = { s.pair with toMark := [] } := congrArg State.pair h
  generalize t.pair = q, s.pair = p at hpair
  obtain ⟨⟩ := p
  obtain ⟨⟩ := q
  simp only [Pair.mk.injEq] at hpair ⊢
  simp [hpair]

/-! The pending commands a takeover adopts -/

theorem netEvent_sched (k : Nat) (s : State) : (netEvent k s).hif.sched = s.hif.sched := by
  unfold netEvent
  extract_lets up net t
  split
  · exact raiseBlock_sched 3 t
  · rfl

theorem kstEvent_sched (k : Nat) (s : State) : (kstEvent k s).hif.sched = s.hif.sched := by
  unfold kstEvent
  extract_lets up kst t
  split
  · exact raiseBlock_sched 13 t
  · rfl

theorem foldl_sched {α : Type} (f : State → α → State) (l : List α) (s : State) (h : ∀ s a, (f s a).hif.sched = s.hif.sched) :
    (l.foldl f s).hif.sched = s.hif.sched := by
  induction l generalizing s with
  | nil => rfl
  | cons a l ih => exact (ih _).trans (h s a)

theorem yokeSend_sched (m : YokeOut) (s : State) : (yokeSend m s).hif.sched = s.hif.sched := congrArg Hif.sched (yokeSend_hif m s)

theorem netCnt_sched (p k n : Nat) (s : State) : (netCnt p k n s).hif.sched = s.hif.sched := rfl

theorem wakePort_sched (p : Nat) (s : State) : (wakePort p s).hif.sched = s.hif.sched := by
  unfold wakePort
  extract_lets q w
  split <;> rfl

theorem queueFrame_sched (p : Nat) (express : Bool) (f : TxFrame) (s : State) : (queueFrame p express f s).hif.sched = s.hif.sched := by
  simp [queueFrame, apply_ite State.hif, apply_ite Hif.sched, netEvent_sched, netCnt_sched, wakePort_sched]

theorem handFrame_sched (p : Nat) (express : Bool) (f : TxFrame) (s : State) : (handFrame p express f s).hif.sched = s.hif.sched := by
  have hcopies : (copies p f s).2.hif.sched = s.hif.sched := by
    unfold copies
    split <;> rfl
  exact (foldl_sched _ _ _ fun _ _ => queueFrame_sched ..).trans hcopies

theorem handGroup_sched (k : Nat) (g : Group) (s : State) : (handGroup k g s).hif.sched = s.hif.sched := by
  unfold handGroup
  extract_lets frame t
  refine (foldl_sched _ _ t fun u p => ?_).trans rfl
  split
  · exact handFrame_sched ..
  · rfl

theorem sendGroup_sched (k : Nat) (s : State) : (sendGroup k s).hif.sched = s.hif.sched := by
  unfold sendGroup
  split
  · rfl
  · split
    · exact handGroup_sched ..
    · exact kstEvent_sched ..

theorem newState_sched (k st t : Nat) (s : State) : (newState k st t s).hif.sched = s.hif.sched := by
  unfold newState
  split
  · rfl
  · extract_lets u v
    have hv : v.hif.sched = s.hif.sched := by
      show (if inPair u && u.sys.runState ≠ .safe then yokeSend (.frameMark k (st % 2 ^ 32)) u else u).hif.sched = _
      split
      · exact yokeSend_sched _ u
      · rfl
    split
    · exact hv
    · exact (sendGroup_sched k v).trans hv

theorem sendMarks_sched (k : Nat) (s : State) : (sendMarks k s).hif.sched = s.hif.sched := by
  induction k generalizing s with
  | zero => rfl
  | succ k ih =>
    unfold sendMarks
    split
    · rfl
    · split
      · rfl
      · refine (ih _).trans ?_
        unfold emitMark
        split
        · exact yokeSend_sched ..
        · rfl

theorem releaseFrames_sched (s : State) : (releaseFrames s).hif.sched = s.hif.sched := by
  unfold releaseFrames
  extract_lets l pair t g
  exact (sendMarks_sched ..).trans (foldl_sched _ l _ fun _ _ => foldl_sched _ _ _ fun _ _ => handFrame_sched ..)

theorem reissueGroups_sched (s : State) : (reissueGroups s).hif.sched = s.hif.sched := foldl_sched _ _ _ fun _ _ => newState_sched ..

theorem goSolo_sched (s : State) : (goSolo s).hif.sched = s.hif.sched := setPair_sched ..

theorem goSolo_schedMir (s : State) : (goSolo s).pair.schedMir = s.pair.schedMir := by
  obtain ⟨a, ha⟩ := goSolo_core s
  exact (congrArg (fun u : State => u.pair.schedMir) ha :)

theorem takeover_sched (s : State) : (takeover s).hif.sched = s.hif.sched ++ s.pair.schedMir := by
  rw [takeover_eq, reissueGroups_sched, releaseFrames_sched, ownSched, goSolo_sched, goSolo_schedMir]

end Sys2Proof.Machine
end

section
/-! SUPPORT. Lanes, the faults of the Yoke, and the pair's changes of state (R487, R492, R504, R505, R508). -/

namespace Sys2Proof.Machine

/-! Bits and entries -/

theorem bitOf_setBit_same (w : Word) {k : Nat} (h : k < 32) : bitOf (setBit w k) k = true := by
  simp [bitOf, setBit, h]

theorem bitOf_setBit {w : Word} {k : Nat} (h : bitOf w k = true) (j : Nat) : bitOf (setBit w j) k = true := by
  simp only [bitOf, setBit, BitVec.getLsbD_or, Bool.or_eq_true] at h ⊢
  exact .inl h

theorem nth_modAt_same {α : Type} {l : List α} {k : Nat} (h : k < l.length) (f : α → α) (d : α) : nth (modAt l k f) k d = f (nth l k d) := by
  simp [nth, modAt_get, List.getElem?_eq_getElem h]

theorem nth_modAt_ne {α : Type} {k j : Nat} (h : k ≠ j) (l : List α) (f : α → α) (d : α) : nth (modAt l k f) j d = nth l j d := by
  simp [nth, modAt_get, h]

/-! Lanes (R487) -/

/-- A lane of the Yoke. -/
def laneOf (s : State) (k : Nat) : Bool := if k = 0 then s.pair.lane0 else s.pair.lane1

/-- Both lanes. -/
def State.lanes (s : State) : Bool × Bool := (s.pair.lane0, s.pair.lane1)

theorem lanes_of_core {s t : State} (h : t.core = s.core) : t.lanes = s.lanes := (congrArg State.lanes h :)

theorem lanes_of_rest {s t : State} (h : t.rest = s.rest) : t.lanes = s.lanes := lanes_of_core (core_of_rest h)

theorem mbxCarry_core (c : Nat) (w : Word) (s : State) : (mbxCarry c w s).core = s.core := by
  unfold mbxCarry
  split <;> rfl

theorem foldl_core {α : Type} (f : State → α → State) (l : List α) (s : State) (h : ∀ s a, (f s a).core = s.core) : (l.foldl f s).core = s.core := by
  induction l generalizing s with
  | nil => rfl
  | cons a l ih => exact (ih _).trans (h s a)

theorem mbxYokeUp_core (s : State) : (mbxYokeUp s).core = s.core := foldl_core _ _ _ fun _ _ => foldl_core _ _ _ fun _ _ => mbxCarry_core ..

theorem foldl_modChan (l : List Nat) (f : MChan → MChan) (s : State) : ∃ m, l.foldl (fun s c => modChan c f s) s = { s with mbx := m } := by
  induction l generalizing s with
  | nil => exact ⟨s.mbx, rfl⟩
  | cons c l ih => exact ih (modChan c f s)

/-- The Yoke's mailbox channels lose their words with the last lane. -/
theorem mbxYokeLost_eq (s : State) : ∃ m, mbxYokeLost s = { s with mbx := m } := foldl_modChan ..

theorem mbxYokeLost_empty {s : State} (hlen : s.mbx.chans.length = 14) {c : Nat} (hlow : 10 ≤ c) (hhigh : c < 14) :
    (chanOf (mbxYokeLost s) c).fwd.q = [] ∧ (chanOf (mbxYokeLost s) c).back.q = [] := by
  have hget : s.mbx.chans[c]? = some (s.mbx.chans[c]'(by omega)) := List.getElem?_eq_getElem _
  interval_cases c <;> simp [chanOf, mbxYokeLost, modChan, nth, modAt_get, hget]

/-- A lane without its link. -/
def dropLane (k : Nat) (s : State) : State :=
  { s with pair := { s.pair with lane0 := s.pair.lane0 && k ≠ 0, lane1 := s.pair.lane1 && k = 0 } }

theorem laneDown_of_down {k : Nat} {s : State} (h : laneOf s k = false) : laneDown k s = s := by
  unfold laneOf at h
  unfold laneDown
  extract_lets up
  have hup : up = false := h
  rw [hup]
  rfl

theorem laneDown_of_up {k : Nat} {s : State} (h : laneOf s k = true) :
    laneDown k s = noteStill .laneDown (if yokeUp (dropLane k s) then dropLane k s else mbxYokeLost (dropLane k s)) := by
  unfold laneOf at h
  unfold laneDown
  extract_lets up
  have hup : up = true := h
  rw [hup]
  rfl

theorem dropLane_laneOf_same (k : Nat) (s : State) : laneOf (dropLane k s) k = false := by
  by_cases hk : k = 0 <;> simp [laneOf, dropLane, hk]

theorem dropLane_laneOf_other {k : Nat} (hk : k < 2) (s : State) : laneOf (dropLane k s) (1 - k) = laneOf s (1 - k) := by
  interval_cases k <;> simp [laneOf, dropLane]

theorem laneOf_of_core {s t : State} (h : t.core = s.core) (k : Nat) : laneOf t k = laneOf s k := (congrArg (laneOf · k) h :)

theorem mbx_of_core {s t : State} (h : t.core = s.core) : t.mbx = s.mbx := (congrArg State.mbx h :)

/-- Whether the last lane is gone or not, the pair and the rest of the module keep what they are. -/
theorem lastLane_pair (s : State) : (if yokeUp s then s else mbxYokeLost s).pair = s.pair ∧ (if yokeUp s then s else mbxYokeLost s).sys = s.sys := by
  split
  · exact ⟨rfl, rfl⟩
  · obtain ⟨m, hm⟩ := mbxYokeLost_eq s
    rw [hm]
    exact ⟨rfl, rfl⟩

theorem laneDown_completes {k : Nat} {s : State} (hk : k < 2) (hup : laneOf s k = true) (hlen : s.mbx.chans.length = 14) :
    let t := laneDown k s
    laneOf t k = false ∧ laneOf t (1 - k) = laneOf s (1 - k) ∧ bitOf t.pair.event 6 = true ∧ t.pair.st = s.pair.st ∧ t.sys = s.sys ∧
      (laneOf s (1 - k) = false → ∀ c, 10 ≤ c → c < 14 → (chanOf t c).fwd.q = [] ∧ (chanOf t c).back.q = []) := by
  intro t
  obtain ⟨hpair, hsys⟩ := lastLane_pair (dropLane k s)
  have ht : t = _ := laneDown_of_up hup
  have hcore : t.core = _ := (congrArg State.core ht).trans (noteStill_core ..)
  have htpair : t.pair = _ := pair_of_core hcore
  rw [hpair] at htpair
  refine ⟨?_, ?_, ?_, ?_, ?_, ?_⟩
  · rw [laneOf, htpair]
    exact dropLane_laneOf_same k s
  · rw [laneOf, htpair]
    exact dropLane_laneOf_other hk s
  · rw [htpair]
    exact bitOf_setBit_same _ (by decide)
  · rw [htpair]
    rfl
  · exact (sys_of_core hcore).trans hsys
  · intro hlast c hlow hhigh
    have hdark : yokeUp (dropLane k s) = false := by
      have hother := (dropLane_laneOf_other hk s).trans hlast
      have hsame := dropLane_laneOf_same k s
      interval_cases k <;> simp_all [laneOf, yokeUp]
    have hmbx : t.mbx = _ := mbx_of_core hcore
    rw [hdark] at hmbx
    have hempty := mbxYokeLost_empty (s := dropLane k s) hlen hlow hhigh
    rw [chanOf] at hempty ⊢
    rw [hmbx]
    exact hempty

/-- A lane with its link, its watch begun anew. -/
def raiseLane (k : Nat) (s : State) : State := { s with pair := { s.pair with
  lane0 := s.pair.lane0 || k = 0, lane1 := s.pair.lane1 || k ≠ 0, hbAt := setAt s.pair.hbAt k s.tbu.free, missed := setAt s.pair.missed k 0 } }

theorem laneUp_of_up {k : Nat} {s : State} (h : laneOf s k = true) : laneUp k s = s := by
  unfold laneOf at h
  unfold laneUp
  extract_lets up first
  have hup : up = true := h
  rw [hup]
  rfl

theorem laneUp_core {k : Nat} {s : State} (h : laneOf s k = false) : (laneUp k s).core = { raiseLane k s with pair := (raiseLane k s).pair.mark 7 }.core := by
  unfold laneOf at h
  unfold laneUp
  extract_lets up first pair
  have hup : up = false := h
  rw [hup]
  refine (noteStill_core ..).trans (core_pair (s := raiseLane k s) ?_ 7)
  split
  · exact mbxYokeUp_core (raiseLane k s)
  · rfl

/-! Faults that are only marked -/

theorem lanes_of_hulk {s t : State} (h : t.hulk = s.hulk) : t.lanes = s.lanes := (congrArg State.lanes h :)

theorem fltEvent_sched (k : Nat) (s : State) : (fltEvent k s).hif.sched = s.hif.sched := by
  unfold fltEvent
  extract_lets up flt t
  split
  · exact raiseBlock_sched 11 t
  · rfl

theorem enterFault_sched (r : FaultRec) (s : State) : (enterFault r s).hif.sched = s.hif.sched := by
  unfold enterFault
  extract_lets p first flt t
  split
  · exact fltEvent_sched 5 t
  · rfl

theorem entered_sched (x : FaultIn) (s : State) : (entered x s).hif.sched = s.hif.sched := by
  unfold entered
  extract_lets t u
  have ht : t.hif.sched = s.hif.sched := (fltEvent_sched ..).trans (enterFault_sched ..)
  have hu : u.hif.sched = s.hif.sched := by
    show (if escalates x s then fltEvent 4 (fltCnt 4 t) else t).hif.sched = _
    split
    · exact (fltEvent_sched ..).trans ht
    · exact ht
  split <;> exact hu

theorem tryRelease_sched (s : State) : (tryRelease s).hif.sched = s.hif.sched := by
  unfold tryRelease
  extract_lets flt t
  split <;> rfl

theorem closeWindow_sched (id : Nat) (s : State) : (closeWindow id s).hif.sched = s.hif.sched := by
  unfold closeWindow
  split
  · rfl
  next r hr =>
    extract_lets t u v
    have hv : v.hif.sched = s.hif.sched := by
      show (if isCondition r.code then u else clearFault id u).hif.sched = _
      split <;> exact logEv_sched ..
    exact (tryRelease_sched _).trans hv

theorem raiseFault_kept {x : FaultIn} {s : State} (h : Enters x s) (heffect : ∀ u, faultEffect x u = u) (hesc : escalates x s = false)
    (hreaction : reactionFor x (faultDom x) = rMark ∨ reactionFor x (faultDom x) = rCorrect) :
    ∃ id, raiseFault x s = closeWindow id (entered x s) := by
  refine ⟨(faultRecord x s).id, ?_⟩
  have hrec : (faultRecord x s).reaction = reactionFor x (faultDom x) := by
    unfold faultRecord
    exact if_neg (by simp [hesc])
  rw [raiseFault_enters h, heffect, react, hrec]
  rcases hreaction with h | h <;> rw [h] <;> rfl

/-- A fault of one place that nothing answers but its mark: the module goes on, or the fault escalates and ends in SAFE. -/
theorem raiseFault_marked {code dom : Nat} (hA : code ≠ 0x0A) (heffect : ∀ u, faultEffect (FaultIn.plain code dom) u = u)
    (hreaction : reactionFor (FaultIn.plain code dom) (faultDom (FaultIn.plain code dom)) = rMark) (s : State) :
    let t := raiseFault (FaultIn.plain code dom) s
    (t.quiet = s.quiet ∧ t.hif.sched = s.hif.sched) ∨ (t.sys.runState = .safe ∧ t.hulk = s.hulk) := by
  intro t
  rcases raiseFault_cases (FaultIn.plain code dom) s with h | ⟨h, -⟩ | ⟨w, conseq, d, cls, h, -⟩ | h
  · exact .inl ⟨congrArg State.quiet h, congrArg (fun u : State => u.hif.sched) h⟩
  · exact absurd h hA
  · cases h
  · cases hesc : escalates (FaultIn.plain code dom) s with
    | false =>
      obtain ⟨id, hid⟩ := raiseFault_kept h heffect hesc (.inl hreaction)
      exact .inl ⟨(congrArg State.quiet hid).trans ((closeWindow_quiet ..).trans (entered_quiet ..)),
        (congrArg (fun u : State => u.hif.sched) hid).trans ((closeWindow_sched ..).trans (entered_sched ..))⟩
    | true =>
      have hquiet := entered_quiet (FaultIn.plain code dom) s
      have hstate : (entered (FaultIn.plain code dom) s).sys.runState ≠ .init := by
        rw [sys_of_quiet hquiet]
        exact h.init
      have hwreck := raiseFault_fatal h (faultRecord_reaction (.inl hesc)) (by rwa [heffect])
      rw [heffect] at hwreck
      exact .inr ⟨hwreck.run, hwreck.hulk.trans (hulk_of_quiet hquiet)⟩

theorem entered_cnt {x : FaultIn} {s : State} (h : escalates x s = false) :
    (entered x s).flt.cnt = modAt s.flt.cnt (classOf x.code (faultDom x) - 1) (satAdd · 1) := by
  have hclass : classNow x s = classOf x.code (faultDom x) := if_neg (by simp [h])
  have hcnt := (enterFault_flt (faultRecord x s) s).2.1
  unfold entered
  extract_lets t u
  have ht : t.flt.cnt = modAt s.flt.cnt (classOf x.code (faultDom x) - 1) (satAdd · 1) := by
    show (fltEvent _ _).flt.cnt = _
    rw [fltEvent_flt, ← hcnt, ← hclass]
    rfl
  have hu : u = t := if_neg (by simp [h])
  split <;> exact hu ▸ ht

/-- A message that fails its check is a CORRECTED fault of the Yoke (R487). -/
theorem yokeCrc_completes {s : State} (hinit : s.sys.runState ≠ .init) (hmask : maskedNow s 15 = false) :
    (yokeCrc s).sys = s.sys ∧ (yokeCrc s).flt.nextId = s.flt.nextId + 1 ∧ (yokeCrc s).pair = s.pair ∧
      (yokeCrc s).flt.cnt = modAt s.flt.cnt 0 (satAdd · 1) := by
  have hesc : escalates (FaultIn.plain 0x30 15) s = false := rfl
  obtain ⟨id, hid⟩ := raiseFault_kept (x := FaultIn.plain 0x30 15) (s := s) (enters_plain rfl rfl hinit (by decide) (.inr (by decide)) (.inl hmask)) (fun _ => rfl) hesc (.inr rfl)
  have hquiet := (closeWindow_quiet id _).trans (entered_quiet (FaultIn.plain 0x30 15) s)
  obtain ⟨hnext, hcnt, -⟩ := closeWindow_flt id (entered (FaultIn.plain 0x30 15) s)
  rw [yokeCrc, hid]
  exact ⟨sys_of_quiet hquiet, hnext.trans (entered_nextId ..), (congrArg State.pair hquiet :), hcnt.trans (entered_cnt hesc)⟩

/-! The pair's changes of state -/

/-- The pair with a challenge of its own out. -/
def Pair.asking (c : BitVec 256) (p : Pair) : Pair := { p with challenge := c, verified := false }

theorem challengePeer_core (s : State) :
    (challengePeer s).core = { s with freeCtr := s.freeCtr + 1, pair := s.pair.asking (Config.freeBits s.freeCtr) }.core := core_of_rest (yokeSend_rest ..)

/-- The pair as a join begins. -/
def Pair.joining (cold : Bool) (p : Pair) : Pair :=
  { { p with
      cold := cold, verified := false, gs := none, retryAt := none, catching := false, own := [], peer := [], mismatch := 0
      idMismatch := List.replicate 8 0 } with st := .syncing }.mark 2

/-- A state without what a change of the pair's state drives or draws. -/
def State.apart (s : State) : State := { s.core with ala := Ala.reset, freeCtr := 0 }

theorem apart_of_core {s t : State} (h : t.core = s.core) : t.apart = s.apart :=
  show t.core.apart = s.core.apart from congrArg State.apart h

theorem apart_ala (s : State) (p : Pair) (a : Ala) : { s with pair := p, ala := a }.apart = { s with pair := p }.apart := rfl

theorem apart_freeCtr (s : State) (n : Nat) (p : Pair) : { s with freeCtr := n, pair := p }.apart = { s with pair := p }.apart := rfl

/-- The pair is no part of what the rest of a state shows. -/
theorem apart_pair {s t : State} (h : t.apart = s.apart) (f : Pair → Pair) : { t with pair := f t.pair }.apart = { s with pair := f s.pair }.apart :=
  (congrArg (fun u : State => { u with pair := f u.pair }) h :)

theorem setPair_apart (new : PairSt) (e : PairEv) (last : Nat) (s : State) :
    (setPair new e last s).apart = { s with pair := { s.pair with st := new }.mark e.code }.apart := by
  obtain ⟨a, ha⟩ := setPair_core new e last s
  exact (apart_of_core ha).trans (apart_ala ..)

theorem noteStill_apart (e : PairEv) (s : State) : (noteStill e s).apart = { s with pair := s.pair.mark e.code }.apart := apart_of_core (noteStill_core e s)

theorem challengePeer_apart (s : State) : (challengePeer s).apart = { s with pair := s.pair.asking (Config.freeBits s.freeCtr) }.apart :=
  (apart_of_core (challengePeer_core s)).trans (apart_freeCtr ..)

theorem beginJoin_apart (cold : Bool) (s : State) : ∃ c, (beginJoin cold s).apart = { s with pair := (s.pair.joining cold).asking c }.apart := by
  unfold beginJoin
  extract_lets pair
  exact ⟨_, (challengePeer_apart _).trans (apart_pair (setPair_apart ..) (Pair.asking _))⟩

theorem pair_of_apart {s t : State} (h : t.apart = s.apart) : t.pair = s.pair := (congrArg State.pair h :)

theorem sys_of_apart {s t : State} (h : t.apart = s.apart) : t.sys = s.sys := (congrArg State.sys h :)

/-- The pair without its peer. -/
def Pair.bereft (p : Pair) : Pair := { p with peerSt := 0, verified := false, gs := none }

/-- The pair whose peer is gone: an ACTIVE module is SOLO. -/
def Pair.left (p : Pair) : Pair := if p.st = .active then { p.bereft with st := .solo }.mark 15 else p.bereft

theorem Pair.left_st (p : Pair) : p.left.st = if p.st = .active then .solo else p.st := by
  unfold left
  split <;> rfl

theorem Pair.left_heard (p : Pair) : p.left.heard = p.heard := by
  unfold left
  split <;> rfl

theorem Pair.left_cnt (p : Pair) : p.left.cnt = p.cnt := by
  unfold left
  split <;> rfl

theorem Pair.left_event (p : Pair) {k : Nat} (h : bitOf p.event k = true) : bitOf p.left.event k = true := by
  unfold left
  split
  · exact bitOf_setBit h 15
  · exact h

theorem peerGone_apart (s : State) : (peerGone s).apart = { s with pair := s.pair.left }.apart := by
  unfold peerGone Pair.left
  extract_lets pair t
  show (if s.pair.st = .active then setPair .solo .peerLost 0 t else t).apart = _
  split
  · exact setPair_apart ..
  · rfl

theorem peerGone_pair (s : State) : (peerGone s).pair = s.pair.left := (congrArg State.pair (peerGone_apart s) :)

theorem peerGone_sys (s : State) : (peerGone s).sys = s.sys := (congrArg State.sys (peerGone_apart s) :)

theorem takeover_pair (s : State) : (takeover s).pair = { s.pair.tookOver with toMark := (takeover s).pair.toMark } :=
  (pair_of_knell (takeover_knell s) :)

theorem takeover_sys (s : State) : (takeover s).sys = s.sys := (sys_of_knell (takeover_knell s) :)

theorem takeover_tkx (s : State) : (takeover s).tkx = s.tkx := (tkx_of_knell (takeover_knell s) :)

theorem noteStill_sys (e : PairEv) (s : State) : (noteStill e s).sys = s.sys := (congrArg State.sys (noteStill_core e s) :)

/-! The peer is lost, or ends (R504, R505, R508) -/

/-- What follows the loss of the peer: takeover, or the module on its own. -/
def partWays (s : State) : State := if s.pair.st = .standby && autoTakeover s && s.sys.runState ≠ .safe then takeover s else peerGone s

/-- The state a pair goes to when it parts. -/
def aloneOf (s : State) : PairSt :=
  if (s.pair.st = .standby ∧ bitOf s.pair.cfg 4 = true ∧ s.sys.runState ≠ .safe) ∨ s.pair.st = .active then .solo else s.pair.st

/-- What parting leaves, from `s` to `t`. -/
structure Parted (s t : State) : Prop where
  sys   : t.sys = s.sys
  st    : t.pair.st = aloneOf s
  heard : t.pair.heard = s.pair.heard
  event : ∀ k, bitOf s.pair.event k = true → bitOf t.pair.event k = true
  cnt   : ∀ k, k ≠ 7 → nth t.pair.cnt k 0 = nth s.pair.cnt k 0

theorem takeover_parted {s : State} (h : s.pair.st = .standby ∧ bitOf s.pair.cfg 4 = true ∧ s.sys.runState ≠ .safe) : Parted s (takeover s) := by
  refine ⟨takeover_sys s, ?_, ?_, fun k hk => ?_, fun k hk => ?_⟩ <;> rw [takeover_pair]
  · rw [aloneOf, if_pos (.inl h)]
    rfl
  · rfl
  · exact bitOf_setBit hk 10
  · exact nth_modAt_ne hk.symm ..

theorem peerGone_parted {s : State} (h : ¬ (s.pair.st = .standby ∧ bitOf s.pair.cfg 4 = true ∧ s.sys.runState ≠ .safe)) : Parted s (peerGone s) := by
  refine ⟨peerGone_sys s, ?_, ?_, fun k hk => ?_, fun k _ => ?_⟩ <;> rw [peerGone_pair]
  · rw [Pair.left_st, aloneOf]
    by_cases hact : s.pair.st = .active
    · rw [if_pos hact, if_pos (Or.inr hact)]
    · rw [if_neg hact, if_neg (not_or.mpr ⟨h, hact⟩)]
  · exact Pair.left_heard _
  · exact Pair.left_event _ hk
  · rw [Pair.left_cnt]

theorem partWays_parted (s : State) : Parted s (partWays s) := by
  unfold partWays autoTakeover
  split
  next h =>
    simp only [Bool.and_eq_true, decide_eq_true_eq] at h
    exact takeover_parted ⟨h.1.1, h.1.2, h.2⟩
  next h =>
    simp only [Bool.and_eq_true, decide_eq_true_eq, and_assoc] at h
    exact peerGone_parted h

/-- The module as it loses its last heartbeat, before it parts. -/
def silenced (s : State) : State := noteStill .heartbeatLost (pairCnt 12 1 (mbxYokeLost { s with pair := { s.pair with heard := false } }))

theorem heartbeatLost_eq (s : State) : heartbeatLost s = partWays (silenced s) := rfl

theorem silenced_sys (s : State) : (silenced s).sys = s.sys := by
  obtain ⟨m, hm⟩ := mbxYokeLost_eq { s with pair := { s.pair with heard := false } }
  rw [silenced, noteStill_sys, hm]
  rfl

theorem silenced_pair (s : State) : (silenced s).pair = { s.pair with heard := false, cnt := modAt s.pair.cnt 12 (satAdd · 1) }.mark 8 := by
  obtain ⟨m, hm⟩ := mbxYokeLost_eq { s with pair := { s.pair with heard := false } }
  rw [silenced, noteStill_pair, hm]
  rfl

theorem heartbeatLost_completes {s : State} (hlen : s.pair.cnt.length = 16) :
    let t := heartbeatLost s
    t.pair.heard = false ∧ t.sys = s.sys ∧ bitOf t.pair.event 8 = true ∧ nth t.pair.cnt 12 0 = satAdd (nth s.pair.cnt 12 0) 1 ∧
      t.pair.st = aloneOf s := by
  have hpair := silenced_pair s
  have hsys := silenced_sys s
  have hparted := partWays_parted (silenced s)
  rw [heartbeatLost_eq]
  refine ⟨?_, hparted.sys.trans hsys, hparted.event 8 ?_, ?_, ?_⟩
  · rw [hparted.heard, hpair]
    rfl
  · rw [hpair]
    exact bitOf_setBit_same _ (by decide)
  · rw [hparted.cnt 12 (by decide), hpair]
    exact nth_modAt_same (by omega) ..
  · rw [hparted.st, aloneOf, aloneOf, hpair, hsys]
    rfl

/-- The notice of a FATAL peer (R508). -/
theorem peerFatal_completes {s : State} (h : s.pair.st = .syncing ∨ s.pair.st = .standby) :
    let t := peerFatal s
    bitOf t.pair.event 9 = true ∧ t.pair.st = aloneOf s ∧ t.sys = s.sys := by
  have hfollows : follows s = true := by simpa [follows] using h
  have heq : peerFatal s = partWays (noteStill .peerFatal s) := by
    unfold peerFatal
    rw [hfollows]
    rfl
  have hparted := partWays_parted (noteStill .peerFatal s)
  rw [heq]
  refine ⟨hparted.event 9 ?_, ?_, hparted.sys.trans (noteStill_sys ..)⟩
  · rw [noteStill_pair]
    exact bitOf_setBit_same _ (by decide)
  · rw [hparted.st, aloneOf, aloneOf, noteStill_pair, noteStill_sys]
    rfl

theorem peerFatal_quiet {s : State} (hsyncing : s.pair.st ≠ .syncing) (hstandby : s.pair.st ≠ .standby) : peerFatal s = s := by
  have hfollows : follows s = false := by simp [follows, hsyncing, hstandby]
  unfold peerFatal
  rw [hfollows]
  rfl

/-- FORCE_ACTIVE on a STANDBY module (R504, R505). -/
theorem forceActive_completes {v : Word} {s : State} (hlen : s.pair.cnt.length = 16)
    (h : bitOf v 0 = true ∧ s.pair.st = .standby ∧ s.sys.runState ≠ .safe) :
    let t := forceActive v s
    t.pair.st = .solo ∧ t.sys = s.sys ∧ t.tkx = s.tkx ∧ nth t.pair.cnt 7 0 = satAdd (nth s.pair.cnt 7 0) 1 ∧ bitOf t.pair.event 10 = true ∧
      t.pair.frames = [] ∧ t.pair.schedMir = [] ∧ t.hif.sched = s.hif.sched ++ s.pair.schedMir := by
  have heq : forceActive v s = takeover s := if_pos (by simpa [and_assoc] using h)
  rw [heq]
  refine ⟨?_, takeover_sys s, takeover_tkx s, ?_, ?_, ?_, ?_, takeover_sched s⟩ <;> rw [takeover_pair]
  · rfl
  · exact nth_modAt_same (by omega) ..
  · exact bitOf_setBit_same _ (by decide)
  · rfl
  · rfl

theorem forceActive_quiet {v : Word} {s : State} (h : ¬ (bitOf v 0 = true ∧ s.pair.st = .standby ∧ s.sys.runState ≠ .safe)) : forceActive v s = s :=
  if_neg (by simpa [and_assoc] using h)

end Sys2Proof.Machine
end

section
/-! SUPPORT. The Yoke: heartbeats, state messages, a START that waits for the peer (R41, R488 to R492, R508 to R510). -/

namespace Sys2Proof.Machine

/-! Heartbeats (R488) -/

theorem yokeSend_eq (m : YokeOut) (s : State) : yokeSend m s = { s with out := if yokeUp s then s.out ++ [.yoke m] else s.out } := by
  unfold yokeSend
  split <;> rfl

theorem yokeSend_out (m : YokeOut) (s : State) : yokeSend m s = { s with out := (yokeSend m s).out } := by
  unfold yokeSend
  split <;> rfl

theorem hbSend_waits {s : State} (h : s.tbu.free < s.pair.hbNext) : hbSend s = s := if_pos (by simp [h])

theorem hbSend_sends {s : State} (hready : s.sys.ready = true) (h : s.pair.hbNext ≤ s.tbu.free) :
    hbSend s = { s with
      pair := { s.pair with hbNext := s.tbu.free + secFr / 1000 }
      out := if s.pair.lane0 || s.pair.lane1 then s.out ++ [.yoke (.heartbeat (discTime s))] else s.out } := by
  refine (if_neg (by simp [hready, h])).trans ?_
  exact yokeSend_eq ..

/-- The next heartbeat of a lane has not come within its 1.05 ms. -/
def hbLate (k : Nat) (s : State) : Prop := nth s.pair.hbAt k 0 + (nth s.pair.missed k 0 + 1) * (secFr / 100000 * 105) ≤ s.tbu.free

/-- The misses of every lane, with one more on lane `k`. -/
def missedMore (k : Nat) (s : State) : List Nat := setAt s.pair.missed k (nth s.pair.missed k 0 + 1)

theorem hbMissed_quiet {k : Nat} {s : State} (h : s.pair.heard = false ∨ ¬ hbLate k s) : hbMissed k s = s := by
  unfold hbLate at h
  unfold hbMissed
  extract_lets n due
  refine if_pos ?_
  rcases h with h | h
  · simp [h]
  · simpa using .inr (Nat.lt_of_not_le h)

theorem hbMissed_eq {k : Nat} {s : State} (hheard : s.pair.heard = true) (hlate : hbLate k s) :
    hbMissed k s = (let u := { s with pair := { s.pair with missed := missedMore k s } }
      if (missedMore k s).all fun n => decide (3 ≤ n) then heartbeatLost u else u) := by
  unfold hbLate at hlate
  unfold hbMissed
  extract_lets n due pair
  exact if_neg (by simpa [hheard] using hlate)

theorem hbMissed_counts {k : Nat} {s : State} (hheard : s.pair.heard = true) (hlate : hbLate k s) (hfew : ∃ n ∈ missedMore k s, n < 3) :
    hbMissed k s = { s with pair := { s.pair with missed := missedMore k s } } := by
  rw [hbMissed_eq hheard hlate]
  exact if_neg (by simpa using hfew)

theorem hbMissed_lost {k : Nat} {s : State} (hheard : s.pair.heard = true) (hlate : hbLate k s) (hall : ∀ n ∈ missedMore k s, 3 ≤ n) :
    hbMissed k s = heartbeatLost { s with pair := { s.pair with missed := missedMore k s } } := by
  rw [hbMissed_eq hheard hlate]
  exact if_pos (by simpa using hall)

/-! The peer's state message (R490 to R492, R508) -/

/-- The module that has taken note of its peer's state, and answered a query. -/
def noted (h : PairHello) (s : State) : State :=
  let u := { s with pair := { s.pair with peerSt := h.st, peerRole := h.role } }
  if h.query then sendHello false u else u

theorem noted_eq (h : PairHello) (s : State) : noted h s = { s with pair := { s.pair with peerSt := h.st, peerRole := h.role }, out := (noted h s).out } := by
  unfold noted sendHello
  extract_lets pair u
  split
  · exact yokeSend_out _ u
  · rfl

theorem stateExchange_quiet {h : PairHello} {s : State} (hcfg : fld s.pair.cfg.toNat 1 0 = 0) (hrole : s.pair.role = 0) : stateExchange h s = s :=
  if_pos (by simp [hcfg, hrole])

theorem stateExchange_eq {s : State} (hpaired : fld s.pair.cfg.toNat 1 0 ≠ 0 ∨ s.pair.role ≠ 0) (h : PairHello) :
    stateExchange h s = match (noted h s).pair.startPend with
      | some c => answerStart c h (noted h s)
      | none => if paired2 (noted h s) && (noted h s).sys.runState ≠ .safe then judgePeer s.pair.peerSt h (noted h s) else noted h s := by
  refine if_neg ?_
  rcases hpaired with h | h <;> simp [h]

theorem noted_pair (h : PairHello) (s : State) : (noted h s).pair = { s.pair with peerSt := h.st, peerRole := h.role } := (congrArg State.pair (noted_eq h s) :)

theorem noted_sys (h : PairHello) (s : State) : (noted h s).sys = s.sys := (congrArg State.sys (noted_eq h s) :)

theorem noted_image (h : PairHello) (s : State) : (noted h s).image = s.image := (congrArg State.image (noted_eq h s) :)

theorem stateExchange_start {h : PairHello} {s : State} {c : Ctx} (hcfg : fld s.pair.cfg.toNat 1 0 ≠ 0) (hpend : s.pair.startPend = some c) :
    stateExchange h s = answerStart c h (noted h s) := by
  rw [stateExchange_eq (.inl hcfg), noted_pair, hpend]

theorem stateExchange_idle {h : PairHello} {s : State} (hpaired : fld s.pair.cfg.toNat 1 0 ≠ 0 ∨ s.pair.role ≠ 0) (hpend : s.pair.startPend = none)
    (hidle : s.pair.role = 0 ∨ s.pair.st = .unpaired ∨ s.sys.runState = .safe) : stateExchange h s = noted h s := by
  rw [stateExchange_eq hpaired, noted_pair, hpend]
  refine if_neg ?_
  rw [paired2, inPair, noted_pair, noted_sys]
  rcases hidle with h | h | h <;> simp [h]

theorem stateExchange_judge {h : PairHello} {s : State} (hpend : s.pair.startPend = none) (hrole : s.pair.role ≠ 0) (hst : s.pair.st ≠ .unpaired)
    (hrun : s.sys.runState ≠ .safe) : stateExchange h s = judgePeer s.pair.peerSt h (noted h s) := by
  rw [stateExchange_eq (.inr hrole), noted_pair, hpend]
  refine if_pos ?_
  rw [paired2, inPair, noted_pair, noted_sys]
  simp [hrole, hst, hrun]

/-! Judging the peer's state -/

theorem judgePeer_standby {h : PairHello} {s : State} (hst : s.pair.st = .solo) (hpeer : h.st = 3) (was : Nat) :
    (judgePeer was h s).pair = { s.pair with st := .active } := by
  have hactive : isActive s = true := by simp [isActive, hst]
  have heq : judgePeer was h s = drivePins (sendHello false { s with pair := { s.pair with st := .active } }) := by
    simp [judgePeer, hactive, codeActive, hpeer, hst]
  rw [heq]
  exact pair_of_core (sendHello_core false { s with pair := { s.pair with st := .active } })

/-- The pair of an active module whose peer is SYNCING. -/
def Pair.peerSyncing (was : Nat) (cold : Bool) (p : Pair) : Pair :=
  { p with cold := cold, gs := if p.cold && !cold then none else p.gs, verified := p.verified && was = 2 }

theorem judgePeer_syncing {h : PairHello} {s : State} (hst : s.pair.st = .active) (hpeer : h.st = 2) (was : Nat) :
    (judgePeer was h s).pair = { s.pair.peerSyncing was h.cold with st := .solo } := by
  have hactive : isActive s = true := by simp [isActive, hst]
  have heq : judgePeer was h s = sendHello false { s with pair := { s.pair.peerSyncing was h.cold with st := .solo } } := by
    simp only [judgePeer, hactive, codeActive, hpeer, hst, if_true]
    rfl
  rw [heq]
  exact pair_of_core (sendHello_core false { s with pair := { s.pair.peerSyncing was h.cold with st := .solo } })

theorem judgePeer_gone {h : PairHello} {s : State} (hst : s.pair.st = .active) (hpeer : h.st = 0) (was : Nat) : judgePeer was h s = peerGone s := by
  simp [judgePeer, isActive, hst, codeActive, hpeer]

theorem judgePeer_dual {h : PairHello} {s : State} {was : Nat} (hst : s.pair.st = .solo ∨ s.pair.st = .active) (hwas : was ≠ 1 ∧ was ≠ 4)
    (hpeer : h.st = 1 ∨ h.st = 4) (hsince : h.since = none) : judgePeer was h s = dualActive h s := by
  have hactive : isActive s = true := by simpa [isActive] using hst
  have hcode : codeActive h.st = true := by simpa [codeActive] using hpeer
  have hcode' : codeActive was = false := by simpa [codeActive] using hwas
  have hnear : startsNear h s = false := by simp [startsNear, hsince]
  simp [judgePeer, hactive, hcode, hcode', hnear]

theorem beginJoin_pair (cold : Bool) (s : State) : ∃ c, (beginJoin cold s).pair = (s.pair.joining cold).asking c := by
  obtain ⟨c, hc⟩ := beginJoin_apart cold s
  exact ⟨c, pair_of_apart hc⟩

theorem beginJoin_sys (cold : Bool) (s : State) : (beginJoin cold s).sys = s.sys := by
  obtain ⟨c, hc⟩ := beginJoin_apart cold s
  exact (sys_of_apart hc :)

theorem dualFault_marked (s : State) :
    let t := raiseFault (FaultIn.plain 0x32 15) s
    t.quiet = s.quiet ∨ (t.sys.runState = .safe ∧ t.hulk = s.hulk) :=
  (raiseFault_marked (by decide) (fun _ => rfl) rfl s).imp_left And.left

theorem dualFault_st (s : State) (h : (raiseFault (FaultIn.plain 0x32 15) s).sys.runState ≠ .safe) : (raiseFault (FaultIn.plain 0x32 15) s).quiet = s.quiet :=
  (dualFault_marked s).resolve_right fun k => h k.1

theorem pair_of_quiet {s t : State} (h : t.quiet = s.quiet) : t.pair = s.pair := (congrArg State.pair h :)

/-- Two active modules (R492): the fault may end in SAFE; else the one of role 2 joins. -/
theorem dualActive_completes {h : PairHello} {s : State} (hrole : h.role ≠ s.pair.role) :
    bitOf (dualActive h s).pair.event 13 = true ∧
      ((dualActive h s).sys.runState = .safe ∨
        ((dualActive h s).sys.runState = s.sys.runState ∧ (dualActive h s).pair.st = if s.pair.role = 2 then .syncing else s.pair.st)) := by
  unfold dualActive
  extract_lets u
  have hupair : u.pair = (raiseFault (FaultIn.plain 0x32 15) s).pair.mark 13 := noteStill_pair ..
  have husys : u.sys = (raiseFault (FaultIn.plain 0x32 15) s).sys := noteStill_sys ..
  have hbit : bitOf u.pair.event 13 = true := by
    rw [hupair]
    exact bitOf_setBit_same _ (by decide)
  by_cases hsafe : u.sys.runState = .safe
  · rw [if_pos hsafe]
    exact ⟨hbit, .inl hsafe⟩
  have hquiet := dualFault_st s (husys ▸ hsafe)
  have hsys : u.sys = s.sys := husys.trans (sys_of_quiet hquiet)
  have hpair : u.pair = s.pair.mark 13 := hupair.trans (congrArg (Pair.mark 13) (pair_of_quiet hquiet))
  have hsame : u.pair.role = s.pair.role := by
    rw [hpair]
    rfl
  rw [if_neg hsafe, if_neg (hsame ▸ hrole), hsame]
  by_cases htwo : s.pair.role = 2
  · rw [if_pos htwo, if_pos htwo, beginJoin_sys, hsys]
    obtain ⟨c, hc⟩ := beginJoin_pair false u
    rw [hc]
    exact ⟨bitOf_setBit hbit 2, .inr ⟨rfl, rfl⟩⟩
  · rw [if_neg htwo, if_neg htwo, hsys]
    refine ⟨hbit, .inr ⟨rfl, ?_⟩⟩
    rw [hpair]
    rfl

/-! A START that waits for the peer (R41, R491) -/

/-- A START in CONFIG with an image leads to RUN, in the role it was given. -/
theorem finishStart_run {i : Image} {s : State} (himage : s.image = some i) (hrun : s.sys.runState = .config) (c : Ctx) (role : Nat) :
    (finishStart c role s).sys.runState = .run ∧ (finishStart c role s).pair = (startReady role (loadAll i role s)).pair := by
  have heq := finishStart_eq himage hrun c role
  have hbegan := (startReady_began i role s).run
  have hpair := startReady_pair role (loadAll i role s)
  rw [heq]
  have hrest := completeWith_rest c .ok false (some 0) ((startReady role (loadAll i role s)).sys.dp / 1000 * 2 ^ 64)
    (drivePins (setRunState .run 2 (startReady role (loadAll i role s))))
  exact ⟨(congrArg Sys.runState (sys_of_rest hrest)).trans hbegan, (congrArg State.pair hrest).trans hpair⟩

theorem loadAll_pair (i : Image) (role : Nat) (s : State) : (loadAll i role s).pair = s.pair := (congrArg State.pair (loadAll_loaded i role s).berth :)

/-- A START that waited and now runs on its own. -/
theorem soloStart_completes {i : Image} {s : State} (himage : s.image = some i) (hrun : s.sys.runState = .config) (c : Ctx) (role : Nat) :
    let t := setPair .solo .soloStart 0 (finishStart c role s)
    t.sys.runState = .run ∧ t.pair.st = .solo ∧ t.pair.startPend = none ∧ t.pair.role = role := by
  obtain ⟨hstate, hpair⟩ := finishStart_run himage hrun c role
  have hsolo := setPair_apart .solo .soloStart 0 (finishStart c role s)
  have hsys := sys_of_apart hsolo
  have hpair' := pair_of_apart hsolo
  simp only [hpair] at hpair'
  intro t
  refine ⟨(congrArg Sys.runState hsys).trans hstate, ?_, ?_, ?_⟩ <;> rw [hpair'] <;> rfl

/-- The START that waits completes with E_PARAM. -/
def startFails (c : Ctx) (s : State) : State :=
  complete c .param { s with sys := { s.sys with exclusive := false }, pair := { s.pair with startPend := none } }

theorem startFails_rest (c : Ctx) (s : State) :
    (startFails c s).rest = { s with sys := { s.sys with exclusive := false }, pair := { s.pair with startPend := none } }.rest := complete_rest ..

theorem answerStart_fails {h : PairHello} {i : Image} {s : State} (himage : s.image = some i) (hsince : h.since ≠ none) (hst : h.st ≠ 0)
    (hmatch : pairMatches s i h = false) (c : Ctx) : answerStart c h s = startFails c s := by
  have hsome : h.since.isSome = true := Option.isSome_iff_ne_none.mpr hsince
  have hcheck : (h.since.isSome && h.st ≠ 0 && !(pairMatches s i h)) = true := by simp [hsome, hst, hmatch]
  unfold answerStart
  rw [himage]
  exact if_pos hcheck

theorem answerStart_solo {h : PairHello} {i : Image} {s : State} (himage : s.image = some i) (hsince : h.since = none) (hst : h.st = 0) (c : Ctx) :
    answerStart c h s = setPair .solo .soloStart 0 (finishStart c (fld s.pair.cfg.toNat 1 0) s) := by
  have hcheck : ¬ (h.since.isSome && h.st ≠ 0 && !(pairMatches s i h)) = true := by simp [hsince]
  unfold answerStart
  rw [himage]
  refine (if_neg hcheck).trans ?_
  exact if_neg (by simp [codeActive, hst])

theorem pairMatches_congr {s t : State} (h : t.sys = s.sys) (i : Image) (x : PairHello) : pairMatches t i x = pairMatches s i x := by
  unfold pairMatches modeReg
  rw [h]

theorem queryTimeout_quiet {s : State} (h : s.pair.startPend = none ∨ s.tbu.free < s.pair.askAt + secFr / 100) : queryTimeout s = s := by
  unfold queryTimeout
  split
  · rfl
  next c hc =>
    rcases h with h | h
    · rw [hc] at h
      cases h
    · exact if_pos h

theorem queryTimeout_solo {c : Ctx} {s : State} (hpend : s.pair.startPend = some c) (h : s.pair.askAt + secFr / 100 ≤ s.tbu.free) :
    queryTimeout s = setPair .solo .soloStart 0 (finishStart c (fld s.pair.cfg.toNat 1 0) s) := by
  unfold queryTimeout
  rw [hpend]
  exact if_neg (Nat.not_lt.mpr h)

/-! What a state message never does: it moves no lane -/

theorem lanes_of_apart {s t : State} (h : t.apart = s.apart) : t.lanes = s.lanes := (congrArg State.lanes h :)

theorem setPair_lanes (new : PairSt) (e : PairEv) (last : Nat) (s : State) : (setPair new e last s).lanes = s.lanes :=
  (lanes_of_apart (setPair_apart new e last s) :)

theorem noteStill_lanes (e : PairEv) (s : State) : (noteStill e s).lanes = s.lanes := (lanes_of_apart (noteStill_apart e s) :)

theorem beginJoin_lanes (cold : Bool) (s : State) : (beginJoin cold s).lanes = s.lanes := by
  obtain ⟨c, hc⟩ := beginJoin_apart cold s
  exact (lanes_of_apart hc :)

theorem Pair.left_lanes (p : Pair) : (p.left.lane0, p.left.lane1) = (p.lane0, p.lane1) := by
  unfold left
  split <;> rfl

theorem peerGone_lanes (s : State) : (peerGone s).lanes = s.lanes := by
  rw [State.lanes, peerGone_pair]
  exact Pair.left_lanes _

theorem finishStart_lanes (c : Ctx) (role : Nat) (s : State) : (finishStart c role s).lanes = s.lanes := by
  by_cases hrun : s.sys.runState = .config
  · cases himage : s.image with
    | none =>
      unfold finishStart
      rw [if_neg (not_not_intro hrun), himage]
      exact lanes_of_rest (complete_rest ..)
    | some i =>
      rw [State.lanes, (finishStart_run himage hrun c role).2]
      show (loadAll i role s).lanes = _
      rw [State.lanes, loadAll_pair]
      rfl
  · unfold finishStart
    rw [if_pos hrun]
    exact lanes_of_rest (complete_rest ..)

theorem answerStart_lanes (c : Ctx) (h : PairHello) (s : State) : (answerStart c h s).lanes = s.lanes := by
  have hfails : (startFails c s).lanes = s.lanes := (lanes_of_rest (startFails_rest c s) :)
  unfold answerStart
  split
  · exact hfails
  · split
    · exact hfails
    · extract_lets _ role u near
      have hu : u.lanes = s.lanes := finishStart_lanes c role s
      split
      · exact (beginJoin_lanes near u).trans hu
      · exact (setPair_lanes _ _ _ u).trans hu

theorem dualActive_lanes (h : PairHello) (s : State) : (dualActive h s).lanes = s.lanes := by
  unfold dualActive
  extract_lets u
  have hu : u.lanes = s.lanes := by
    refine (noteStill_lanes ..).trans ?_
    rcases dualFault_marked s with h | ⟨-, h⟩
    · exact (congrArg State.lanes h :)
    · exact lanes_of_hulk h
  split
  · exact hu
  · split
    · exact (noteStill_lanes ..).trans hu
    · split
      · exact (beginJoin_lanes false u).trans hu
      · exact hu

theorem sendHello_lanes (query : Bool) (s : State) : (sendHello query s).lanes = s.lanes := lanes_of_core (sendHello_core query s)

theorem judgePeer_lanes (was : Nat) (h : PairHello) (s : State) : (judgePeer was h s).lanes = s.lanes := by
  unfold judgePeer
  split
  · split
    · split
      · rfl
      · split
        · split
          · exact beginJoin_lanes true s
          · rfl
        · exact dualActive_lanes h s
    · split
      · split
        · exact sendHello_lanes ..
        · rfl
      · split
        · extract_lets pair u
          split
          · exact sendHello_lanes ..
          · rfl
        · exact peerGone_lanes s
  · rfl

theorem noted_lanes (h : PairHello) (s : State) : (noted h s).lanes = s.lanes := by
  rw [State.lanes, noted_pair]
  rfl

theorem stateExchange_lanes (h : PairHello) (s : State) : (stateExchange h s).lanes = s.lanes := by
  by_cases hcfg : fld s.pair.cfg.toNat 1 0 = 0 ∧ s.pair.role = 0
  · rw [stateExchange_quiet hcfg.1 hcfg.2]
  · rw [stateExchange_eq (by tauto)]
    split
    · exact (answerStart_lanes ..).trans (noted_lanes h s)
    · split
      · exact (judgePeer_lanes ..).trans (noted_lanes h s)
      · exact noted_lanes h s

theorem laneUp_lanes (k : Nat) (s : State) : (laneUp k s).lanes = (s.pair.lane0 || k = 0, s.pair.lane1 || k ≠ 0) := by
  cases hup : laneOf s k with
  | true =>
    rw [laneUp_of_up hup]
    by_cases hk : k = 0 <;> simp_all [laneOf, State.lanes]
  | false => exact lanes_of_core (laneUp_core hup)

theorem laneUp_sys (k : Nat) (s : State) : (laneUp k s).sys = s.sys := by
  cases hup : laneOf s k with
  | true => rw [laneUp_of_up hup]
  | false => exact (sys_of_core (laneUp_core hup) :)

/-- The lanes whose calibration was good come up (R487). -/
theorem yokeComesUp_lanes (h : PairHello) (s : State) :
    (yokeComesUp h s).lanes = (s.pair.lane0 || laneGood 0 s, s.pair.lane1 || laneGood 1 s) := by
  unfold yokeComesUp
  extract_lets u v
  have hu : u.lanes = (s.pair.lane0 || laneGood 0 s, s.pair.lane1) := by
    show (if laneGood 0 s then laneUp 0 s else s).lanes = _
    cases hgood : laneGood 0 s
    · simp [State.lanes]
    · simp [laneUp_lanes]
  have hugood : laneGood 1 u = laneGood 1 s := by
    show laneGood 1 (if laneGood 0 s then laneUp 0 s else s) = _
    split
    · rw [laneGood, laneUp_sys, laneGood]
    · rfl
  have hv : v.lanes = (u.pair.lane0, u.pair.lane1 || laneGood 1 u) := by
    show (if laneGood 1 u then laneUp 1 u else u).lanes = _
    cases hgood : laneGood 1 u
    · simp [State.lanes]
    · simp [laneUp_lanes]
  have hboth : v.lanes = (s.pair.lane0 || laneGood 0 s, s.pair.lane1 || laneGood 1 s) := by
    obtain ⟨h0, h1⟩ := Prod.mk.inj hu
    rw [hv, h0, h1, hugood]
  split
  · exact (stateExchange_lanes ..).trans ((sendHello_lanes false v).trans hboth)
  · exact hboth

/-! The commands of the Yoke -/

section

variable {dt : Nat} {i : Instr} {s : State} {op : State → State}

theorem exec_live (hexec : exec i s = run dt (live op) s) (hready : (elapse dt s).sys.ready = true) : exec i s = .next (op (elapse dt s)) := by
  rw [hexec, run, live, if_pos hready]

theorem exec_onYoke (hexec : exec i s = run dt (onYoke op) s) (hready : (elapse dt s).sys.ready = true) (hup : yokeUp (elapse dt s) = true) :
    exec i s = .next (op (elapse dt s)) := (exec_live hexec hready).trans (congrArg Host.Outcome.next (if_pos hup))

theorem exec_onYoke_dark (hexec : exec i s = run dt (onYoke op) s) (hready : (elapse dt s).sys.ready = true) (hup : yokeUp (elapse dt s) = false) :
    exec i s = .next (elapse dt s) := (exec_live hexec hready).trans (congrArg Host.Outcome.next (if_neg (hup ▸ Bool.false_ne_true)))

theorem exec_onBar (hexec : exec i s = run dt (onBar op) s) (hopen : barOpen (elapse dt s) = true) : exec i s = .next (op (elapse dt s)) := by
  rw [hexec, run, onBar, if_pos hopen]

end

theorem result_eq {i : Instr} {s t u : State} (hexec : exec i s = .next t) (h : t = u) : exec i s = .next u := h ▸ hexec

theorem laneUp_completes {k : Nat} {s : State} (hk : k < 2) (hdown : laneOf s k = false) (hhb : s.pair.hbAt.length = 2) (hmiss : s.pair.missed.length = 2) :
    let t := laneUp k s
    laneOf t k = true ∧ laneOf t (1 - k) = laneOf s (1 - k) ∧ nth t.pair.hbAt k 0 = s.tbu.free ∧ nth t.pair.missed k 0 = 0 ∧
      bitOf t.pair.event 7 = true ∧ t.pair.st = s.pair.st ∧ t.sys = s.sys := by
  have hcore := laneUp_core hdown
  have hpair : (laneUp k s).pair = (raiseLane k s).pair.mark 7 := (pair_of_core hcore :)
  have hlane : ∀ j, laneOf (laneUp k s) j = laneOf (raiseLane k s) j := fun j => (laneOf_of_core hcore j :)
  refine ⟨?_, ?_, ?_, ?_, ?_, ?_, laneUp_sys k s⟩
  · rw [hlane]
    interval_cases k <;> simp [laneOf, raiseLane]
  · rw [hlane]
    interval_cases k <;> simp [laneOf, raiseLane]
  · rw [hpair]
    exact nth_modAt_same (by omega) ..
  · rw [hpair]
    exact nth_modAt_same (by omega) ..
  · rw [hpair]
    exact bitOf_setBit_same _ (by decide)
  · rw [hpair]
    rfl

theorem noted_st (h : PairHello) (s : State) : (noted h s).pair.st = s.pair.st := (congrArg Pair.st (noted_pair h s) :)

theorem noted_role (h : PairHello) (s : State) : (noted h s).pair.role = s.pair.role := (congrArg Pair.role (noted_pair h s) :)

theorem noted_cfg (h : PairHello) (s : State) : (noted h s).pair.cfg = s.pair.cfg := (congrArg Pair.cfg (noted_pair h s) :)

section

variable {h : PairHello} {s : State}

/-! A SOLO or ACTIVE module follows its peer's state (R490, R492, R508) -/

section

variable (hpend : s.pair.startPend = none) (hrole : s.pair.role ≠ 0) (hrun : s.sys.runState ≠ .safe)

include hpend hrole hrun

theorem stateExchange_judged (hst : s.pair.st = .solo ∨ s.pair.st = .active) : stateExchange h s = judgePeer s.pair.peerSt h (noted h s) :=
  stateExchange_judge hpend hrole (by rcases hst with h | h <;> rw [h] <;> decide) hrun

theorem stateExchange_standby (hst : s.pair.st = .solo) (hpeer : h.st = 3) :
    (stateExchange h s).pair.st = .active ∧ (stateExchange h s).pair.peerSt = 3 ∧ (stateExchange h s).pair.peerRole = h.role := by
  rw [stateExchange_judged hpend hrole hrun (.inl hst), judgePeer_standby ((noted_st h s).trans hst) hpeer, noted_pair]
  exact ⟨rfl, hpeer, rfl⟩

theorem stateExchange_syncing (hst : s.pair.st = .active) (hpeer : h.st = 2) :
    (stateExchange h s).pair.st = .solo ∧ (stateExchange h s).pair.peerSt = 2 := by
  rw [stateExchange_judged hpend hrole hrun (.inr hst), judgePeer_syncing ((noted_st h s).trans hst) hpeer, noted_pair]
  exact ⟨rfl, hpeer⟩

theorem stateExchange_gone (hst : s.pair.st = .active) (hpeer : h.st = 0) :
    (stateExchange h s).pair.st = .solo ∧ bitOf (stateExchange h s).pair.event 15 = true := by
  have hst' := (noted_st h s).trans hst
  rw [stateExchange_judged hpend hrole hrun (.inr hst), judgePeer_gone hst' hpeer, peerGone_pair, Pair.left_st, Pair.left, if_pos hst', if_pos hst']
  exact ⟨rfl, bitOf_setBit_same _ (by decide)⟩

theorem stateExchange_dual (hst : s.pair.st = .solo ∨ s.pair.st = .active) (hwas : s.pair.peerSt ≠ 1 ∧ s.pair.peerSt ≠ 4) (hpeer : h.st = 1 ∨ h.st = 4)
    (hsince : h.since = none) (hother : h.role ≠ s.pair.role) :
    bitOf (stateExchange h s).pair.event 13 = true ∧ ((stateExchange h s).sys.runState = .safe ∨
      ((stateExchange h s).sys.runState = s.sys.runState ∧ (stateExchange h s).pair.st = if s.pair.role = 2 then .syncing else s.pair.st)) := by
  have hdual := dualActive_completes (s := noted h s) (by rwa [noted_role])
  rw [noted_sys, noted_role, noted_st] at hdual
  rwa [stateExchange_judged hpend hrole hrun hst, judgePeer_dual (by rwa [noted_st]) hwas hpeer hsince]

end

/-! A START that waits gets its answer (R41, R491) -/

theorem stateExchange_refuses {c : Ctx} {i : Image} (hpend : s.pair.startPend = some c) (himage : s.image = some i)
    (hcfg : fld s.pair.cfg.toNat 1 0 ≠ 0) (hsince : h.since ≠ none) (hst : h.st ≠ 0) (hmatch : pairMatches s i h = false) :
    (stateExchange h s).pair.startPend = none ∧ (stateExchange h s).sys = { s.sys with exclusive := false } := by
  have hsys := noted_sys h s
  rw [stateExchange_start hcfg hpend,
    answerStart_fails ((noted_image h s).trans himage) hsince hst ((pairMatches_congr hsys i h).trans hmatch)]
  have hrest := startFails_rest c (noted h s)
  have hpair : (startFails c (noted h s)).pair = { (noted h s).pair with startPend := none } := (congrArg State.pair hrest :)
  have hsys' : (startFails c (noted h s)).sys = { (noted h s).sys with exclusive := false } := (sys_of_rest hrest :)
  rw [hpair, hsys', hsys]
  exact ⟨rfl, rfl⟩

theorem stateExchange_solo {c : Ctx} {i : Image} (hpend : s.pair.startPend = some c) (himage : s.image = some i)
    (hcfg : fld s.pair.cfg.toNat 1 0 ≠ 0) (hconfig : s.sys.runState = .config) (hsince : h.since = none) (hst : h.st = 0) :
    (stateExchange h s).sys.runState = .run ∧ (stateExchange h s).pair.st = .solo ∧ (stateExchange h s).pair.startPend = none ∧
      (stateExchange h s).pair.role = fld s.pair.cfg.toNat 1 0 := by
  have himage' := (noted_image h s).trans himage
  have hconfig' : (noted h s).sys.runState = .config := by rwa [noted_sys]
  rw [stateExchange_start hcfg hpend, answerStart_solo himage' hsince hst, noted_cfg]
  exact soloStart_completes himage' hconfig' c _

end

/-- Settles O58: each clause is what one operation of the Pair Controller does, said by the lemmas above. -/
theorem pairLink : Obligations.PairLink := by
  unfold Obligations.PairLink
  intro dt k z v h s s0 hready hcnt hhb hmiss hchans now other lane alive gives nothing alone
  have hother : other = yokeUp s0 := rfl
  have halone : alone s0.pair.st = aloneOf s0 := rfl
  have hlane : lane s0 k = laneOf s0 k := rfl
  refine ⟨?_, ?_, ?_, ?_, ?_, ?_, ?_, ?_, ?_, ?_, ?_, ?_, ?_, ?_, ?_, ?_⟩
  · -- YOKE_UP
    obtain ⟨h0, h1⟩ := Prod.mk.inj (yokeComesUp_lanes h s0)
    exact ⟨_, exec_live (op := yokeComesUp h) rfl hready, h0, h1⟩
  · -- LANE_DOWN
    intro hk hup
    exact ⟨_, exec_live (op := fun s => if k < 2 then laneDown k s else s) rfl hready, by rw [if_pos hk]; exact laneDown_completes hk hup hchans⟩
  · intro hk hdown
    exact result_eq (exec_live (op := fun s => if k < 2 then laneDown k s else s) rfl hready) ((if_pos hk).trans (laneDown_of_down hdown))
  · -- LANE_UP
    intro hk hdown hgood
    exact ⟨_, exec_live (op := fun s => if k < 2 ∧ laneGood k s then laneUp k s else s) rfl hready, by
      rw [if_pos ⟨hk, hgood⟩]; exact laneUp_completes hk hdown hhb hmiss⟩
  · intro hnot
    refine result_eq (exec_live (op := fun s => if k < 2 ∧ laneGood k s then laneUp k s else s) rfl hready) ?_
    by_cases hcan : k < 2 ∧ laneGood k s0 = true
    · rw [if_pos hcan]
      rcases hnot with hk | hup | hbad
      · omega
      · exact laneUp_of_up hup
      · rw [hcan.2] at hbad
        cases hbad
    · exact if_neg hcan
  · -- YOKE_HEARTBEAT_SEND
    exact fun hwait => result_eq (exec_live (op := hbSend) rfl hready) (hbSend_waits hwait)
  · exact fun hdue => result_eq (exec_live (op := hbSend) rfl hready) (hbSend_sends hready hdue)
  · -- YOKE_HEARTBEAT_RECEIVE
    intro hk hup
    have hlit : (k = 0 ∧ s0.pair.lane0) ∨ (k = 1 ∧ s0.pair.lane1) := by
      interval_cases k
      · exact .inl ⟨rfl, hup⟩
      · exact .inr ⟨rfl, hup⟩
    have hyoke : yokeUp s0 = true := by rcases hlit with ⟨-, h⟩ | ⟨-, h⟩ <;> simp [yokeUp, h]
    exact result_eq (exec_onYoke (op := fun s => if (k = 0 ∧ s.pair.lane0) ∨ (k = 1 ∧ s.pair.lane1) then hbReceive k z s else s) rfl hready hyoke)
      (if_pos hlit)
  · intro hnot
    have hdark : ¬ ((k = 0 ∧ s0.pair.lane0) ∨ (k = 1 ∧ s0.pair.lane1)) := by
      rintro (⟨hk, hup⟩ | ⟨hk, hup⟩) <;> subst hk <;> rcases hnot with hk | hdown
      · omega
      · exact absurd (hdown.symm.trans hup) (by decide)
      · omega
      · exact absurd (hdown.symm.trans hup) (by decide)
    have hexec : exec (.yokeHeartbeatReceive dt k z) s =
      run dt (onYoke fun s => if (k = 0 ∧ s.pair.lane0) ∨ (k = 1 ∧ s.pair.lane1) then hbReceive k z s else s) s := rfl
    cases hyoke : yokeUp s0 with
    | true => exact result_eq (exec_onYoke hexec hready hyoke) (if_neg hdark)
    | false => exact exec_onYoke_dark hexec hready hyoke
  · -- YOKE_HEARTBEAT_MISSED
    intro late miss
    have hexec : exec (.yokeHeartbeatMissed dt k) s = .next (if k < 2 then hbMissed k s0 else s0) :=
      exec_live (op := fun s => if k < 2 then hbMissed k s else s) rfl hready
    refine ⟨fun hnot => result_eq hexec ?_, fun hk hheard hlate hfew => result_eq hexec ((if_pos hk).trans (hbMissed_counts hheard hlate hfew)),
      fun hk hheard hlate hall => ⟨_, hexec, ?_⟩⟩
    · split
      next hk => exact hbMissed_quiet (hnot.resolve_left (by omega))
      next => rfl
    · rw [if_pos hk, hbMissed_lost hheard hlate hall]
      exact heartbeatLost_completes (s := { s0 with pair := { s0.pair with missed := missedMore k s0 } }) hcnt
  · -- FORCE_ACTIVE
    intro hopen
    have hexec : exec (.forceActive dt v) s = .next (forceActive v s0) := exec_onBar rfl hopen
    exact ⟨fun hforce => ⟨_, hexec, forceActive_completes hcnt hforce⟩, fun hnot => result_eq hexec (forceActive_quiet hnot)⟩
  · -- No lane
    exact fun hdark => ⟨exec_onYoke_dark rfl hready hdark, exec_onYoke_dark rfl hready hdark, exec_onYoke_dark rfl hready hdark⟩
  · intro hup
    have hcrc : exec (.yokeCrc dt) s = .next (yokeCrc s0) := exec_onYoke rfl hready hup
    have hfatal : exec (.peerFatal dt) s = .next (peerFatal s0) := exec_onYoke rfl hready hup
    have hstate : exec (.pairStateExchange dt h) s = .next (stateExchange h s0) := exec_onYoke rfl hready hup
    refine ⟨?_, ?_, ?_, ?_, ?_, ?_, ?_⟩
    · -- YOKE_CRC
      intro hinit hmask
      obtain ⟨hsys, hnext, hpair, hcount⟩ := yokeCrc_completes hinit hmask
      refine ⟨_, hcrc, hsys, hnext, congrArg Pair.st hpair, fun hlen => ?_⟩
      rw [hcount]
      exact nth_modAt_same (by omega) ..
    · exact fun hst => ⟨_, hfatal, peerFatal_completes hst⟩
    · exact fun hsyncing hstandby => result_eq hfatal (peerFatal_quiet hsyncing hstandby)
    · exact fun hcfg hrole => result_eq hstate (stateExchange_quiet hcfg hrole)
    · intro hcfg hpend hidle
      refine ⟨_, hstate, ?_⟩
      rw [stateExchange_idle (.inl hcfg) hpend hidle]
      exact noted_eq h s0
    · intro hrole hpend halive
      exact ⟨fun hst hpeer => ⟨_, hstate, stateExchange_standby hpend hrole halive hst hpeer⟩,
        fun hst hpeer => ⟨_, hstate, stateExchange_syncing hpend hrole halive hst hpeer⟩,
        fun hst hpeer => ⟨_, hstate, stateExchange_gone hpend hrole halive hst hpeer⟩,
        fun hst hwas hwas' hpeer hsince hother _ => ⟨_, hstate, stateExchange_dual hpend hrole halive hst ⟨hwas, hwas'⟩ hpeer hsince hother⟩⟩
    · intro c i hpend himage hcfg hconfig
      refine ⟨fun hsince hst hmatch => ⟨_, hstate, ?_⟩, fun hsince hst => ⟨_, hstate, stateExchange_solo hpend himage hcfg hconfig hsince hst⟩⟩
      obtain ⟨hpend', hsys⟩ := stateExchange_refuses hpend himage hcfg hsince hst hmatch
      rw [hsys]
      exact ⟨hpend', hconfig, rfl⟩
  · -- PAIR_QUERY_TIMEOUT
    exact fun hpend => result_eq (exec_live (op := queryTimeout) rfl hready) (queryTimeout_quiet (.inl hpend))
  · exact fun c _ hwait => result_eq (exec_live (op := queryTimeout) rfl hready) (queryTimeout_quiet (.inr hwait))
  · intro c i hpend himage hconfig hdue
    refine ⟨_, exec_live (op := queryTimeout) rfl hready, ?_⟩
    rw [queryTimeout_solo hpend hdue]
    obtain ⟨hrun, hst, hpend', -⟩ := soloStart_completes himage hconfig c (fld s0.pair.cfg.toNat 1 0)
    exact ⟨hrun, hst, hpend'⟩

end Sys2Proof.Machine
end

section
/-! SUPPORT. MAINT_ENTER (R32, R33, R206, R339). -/

namespace Sys2Proof.Machine

/-! What MAINT_ENTER ends, and what that leaves alone (R33) -/

/-- What the end of ticks, alarms and queued work leaves alone; of the Helm, whether a tick is in progress. -/
structure Keel where
  sys   : Sys
  tbu   : Tbu
  flt   : Flt
  ing   : Ing
  dfc   : Dfc
  kst   : Kst
  image : Option Image
  idle  : Bool

def State.keel (s : State) : Keel := ⟨s.sys, s.tbu, s.flt, s.ing, s.dfc, s.kst, s.image, s.tkx.cur.isNone⟩

@[simp] theorem keel_mk (sys : Sys) (hif : Hif) (tbu : Tbu) (log : Log) (flt : Flt) (swm : Swm) (tkx : Tkx) (net : Net) (ing : Ing)
    (aln : Aln) (dfc : Dfc) (lse : Lse) (osm : Osm) (sep : Sep) (ge : Ge) (ala : Ala) (pair : Pair) (kst : Kst) (mbx : Mbx)
    (image : Option Image) (pending : List Instr) (out : List Out) (freeCtr : Nat) (latches : List (Nat × Word)) (readData readHigh : Word) (prior : Blocks) :
    (State.mk sys hif tbu log flt swm tkx net ing aln dfc lse osm sep ge ala pair kst mbx image pending out freeCtr latches readData readHigh prior).keel =
      ⟨sys, tbu, flt, ing, dfc, kst, image, tkx.cur.isNone⟩ := rfl

@[simp] theorem keel_eta (s : State) : Keel.mk s.sys s.tbu s.flt s.ing s.dfc s.kst s.image s.tkx.cur.isNone = s.keel := rfl

@[simp] theorem ite_keel (c : Prop) [Decidable c] (s t : State) : (if c then s else t).keel = if c then s.keel else t.keel := apply_ite State.keel c s t

@[simp] theorem foldl_keel {α : Type} (f : State → α → State) (l : List α) (s : State) (h : ∀ s a, (f s a).keel = s.keel) :
    (l.foldl f s).keel = s.keel := by
  induction l generalizing s with
  | nil => rfl
  | cons a l ih => exact (ih _).trans (h s a)

theorem keel_of_core {s t : State} (h : t.core = s.core) : t.keel = s.keel := (congrArg State.keel h :)

@[simp] theorem raiseBlock_keel (b : Nat) (s : State) : (raiseBlock b s).keel = s.keel := keel_of_core (raiseBlock_core b s)

@[simp] theorem handRec_keel (n typ : Nat) (us : List Unit512) (stamp tick : Option Nat) (s : State) : (handRec n typ us stamp tick s).keel = s.keel :=
  keel_of_core (core_of_rest (handRec_rest ..))

@[simp] theorem yokeSend_keel (m : YokeOut) (s : State) : (yokeSend m s).keel = s.keel := keel_of_core (core_of_rest (yokeSend_rest ..))

@[simp] theorem tkxEvent_keel (k : Nat) (s : State) : (tkxEvent k s).keel = s.keel := by simp [tkxEvent]

@[simp] theorem traceRaw_keel (e : TrEv) (bits : List (Nat × Nat × Nat)) (s : State) : (traceRaw e bits s).keel = s.keel := by simp [traceRaw]

@[simp] theorem traceTask_keel (e : TrEv) (arg : Nat) (t : TEntry) (s : State) : (traceTask e arg t s).keel = s.keel := by simp [traceTask]

@[simp] theorem setEntries_keel (l : List TEntry) (s : State) : (setEntries l s).keel = s.keel := rfl

@[simp] theorem dropEntry_keel (t : TEntry) (s : State) : (dropEntry t s).keel = s.keel := rfl

@[simp] theorem setFlow_keel (n : Nat) (f : Flow) (s : State) : (setFlow n f s).keel = s.keel := rfl

@[simp] theorem flowEnd_keel (result : Bool) (t : TEntry) (s : State) : (flowEnd result t s).keel = s.keel := by
  unfold flowEnd
  split <;> simp

@[simp] theorem cancelOne_keel (arg : Nat) (t : TEntry) (s : State) : (cancelOne arg t s).keel = s.keel := by simp [cancelOne]

@[simp] theorem alnCnt_keel (k : Nat) (n : Nat) (s : State) : (alnCnt k n s).keel = s.keel := rfl

@[simp] theorem modTick_keel (g : Nat) (f : Tick → Tick) (s : State) : (modTick g f s).keel = s.keel := rfl

@[simp] theorem dropTick_keel (g : Nat) (s : State) : (dropTick g s).keel = s.keel := rfl

@[simp] theorem keepFinal_keel (g : Nat) (typ : Nat) (us : List Unit512) (s : State) : (keepFinal g typ us s).keel = s.keel := by simp [keepFinal]

@[simp] theorem discardOpen_keel (g : Nat) (s : State) : (discardOpen g s).keel = s.keel := by
  unfold discardOpen
  split <;> simp

@[simp] theorem dropResolve_keel (g : Nat) (s : State) : (dropResolve g s).keel = s.keel := by
  unfold dropResolve
  split <;> simp

@[simp] theorem writeFinalized_keel (t : Tick) (cause : Nat) (s : State) : (writeFinalized t cause s).keel = s.keel := by simp [writeFinalized]

@[simp] theorem keepPast_keel (t : Tick) (s : State) : (keepPast t s).keel = s.keel := by simp [keepPast]

@[simp] theorem releaseTick_keel (g : Nat) (s : State) : (releaseTick g s).keel = s.keel := by
  unfold releaseTick
  split <;> simp

@[simp] theorem finalizeTick_keel (cause : Nat) (g : Nat) (s : State) : (finalizeTick cause g s).keel = s.keel := by
  simp only [finalizeTick]
  repeat' split
  all_goals simp

@[simp] theorem osmEvent_keel (k : Nat) (s : State) : (osmEvent k s).keel = s.keel := by simp [osmEvent]

@[simp] theorem osmCnt_keel (k : Nat) (n : Nat) (s : State) : (osmCnt k n s).keel = s.keel := rfl

@[simp] theorem dropQueues_keel (s : State) : (dropQueues s).keel = s.keel := by simp [dropQueues]

@[simp] theorem alaEvent_keel (k : Nat) (s : State) : (alaEvent k s).keel = s.keel := by simp [alaEvent]

@[simp] theorem alaCnt_keel (k : Nat) (n : Nat) (s : State) : (alaCnt k n s).keel = s.keel := rfl

@[simp] theorem drivePins_keel (s : State) : (drivePins s).keel = s.keel := by simp [drivePins]

@[simp] theorem keepDigest_keel (typ : Nat) (us : List Unit512) (s : State) : (keepDigest typ us s).keel = s.keel := by
  unfold keepDigest
  split
  · rfl
  · split
    next c hc => simp [← keel_eta s, hc]
    next => rfl

@[simp] theorem noteRing_keel (n seq : Nat) (s : State) : (noteRing n seq s).keel = s.keel := by
  unfold noteRing
  split
  next c hc =>
    split
    · simp [← keel_eta s, hc]
    · rfl
  next => rfl

@[simp] theorem writeAlarm_keel (s : State) (e : AEv) : (writeAlarm s e).keel = s.keel := by
  simp only [writeAlarm]
  repeat' split
  all_goals simp

@[simp] theorem latchPins_keel (evs : List AEv) (s : State) : (latchPins evs s).keel = s.keel := by simp [latchPins]

@[simp] theorem publish_keel (evs : List AEv) (s : State) : (publish evs s).keel = s.keel := by simp [publish]

@[simp] theorem confirmAlarms_keel (t : Tick) (s : State) : (confirmAlarms t s).keel = s.keel := by simp [confirmAlarms]

@[simp] theorem endAlarms_keel (s : State) : (endAlarms s).keel = s.keel := by simp [endAlarms]

@[simp] theorem pairCnt_keel (k : Nat) (n : Nat) (s : State) : (pairCnt k n s).keel = s.keel := rfl

@[simp] theorem finalMeets_keel (seq : Nat) (value : Nat) (mine : Bool) (s : State) : (finalMeets seq value mine s).keel = s.keel := by
  unfold finalMeets
  repeat' split
  all_goals simp

@[simp] theorem finalDigest_keel (t : Tick) (s : State) : (finalDigest t s).keel = s.keel := by simp [finalDigest]

@[simp] theorem makeFinal_keel (cause : Nat) (s : State) (g : Nat) : (makeFinal cause s g).keel = s.keel := by
  simp only [makeFinal]
  repeat' split
  all_goals simp

/-! Alarms end -/

/-- The alarms that stand, and the rules that hold. -/
def State.alarms (s : State) : List Inst × List Nat := (s.ala.active, s.ala.values)

theorem ite_alarms (c : Prop) [Decidable c] (s t : State) : (if c then s else t).alarms = if c then s.alarms else t.alarms := apply_ite ..

theorem alarms_of_core {s t : State} (h : t.core = s.core) : t.alarms = s.alarms := (congrArg State.alarms h :)

theorem alaEvent_alarms (k : Nat) (s : State) : (alaEvent k s).alarms = s.alarms := by
  unfold alaEvent
  extract_lets up ala t
  split
  · exact (alarms_of_core (raiseBlock_core 9 t)).trans rfl
  · rfl

theorem alaCnt_alarms (k n : Nat) (s : State) : (alaCnt k n s).alarms = s.alarms := rfl

theorem keepDigest_alarms (typ : Nat) (us : List Unit512) (s : State) : (keepDigest typ us s).alarms = s.alarms := by
  unfold keepDigest
  split
  · rfl
  · split <;> rfl

theorem noteRing_alarms (n seq : Nat) (s : State) : (noteRing n seq s).alarms = s.alarms := by
  unfold noteRing
  split
  · split <;> rfl
  · rfl

theorem writeAlarm_alarms (s : State) (e : AEv) : (writeAlarm s e).alarms = s.alarms := by
  unfold writeAlarm
  extract_lets us t u v w
  have ht : t.alarms = s.alarms := by
    show (if e.inDigest then keepDigest e.typ.code (alarmUnits s e (eventMarks s e) 0) s else s).alarms = _
    split
    · exact keepDigest_alarms ..
    · rfl
  have hu : u.alarms = s.alarms := by
    show (match ringSel t.ala.outRing with | some n => handRec n e.typ.code us none (some e.seq) (noteRing n e.seq t) | none => t).alarms = _
    split
    · exact (alarms_of_core (core_of_rest (handRec_rest ..))).trans ((noteRing_alarms ..).trans ht)
    · exact ht
  split <;> simp [v, w, ite_alarms, alaEvent_alarms, alaCnt_alarms, hu]

theorem publish_alarms (evs : List AEv) (s : State) : (publish evs s).alarms = s.alarms := by
  have hfold : ∀ (l : List AEv) (t : State), (l.foldl writeAlarm t).alarms = t.alarms := fun l => by
    induction l with
    | nil => exact fun _ => rfl
    | cons e l ih => exact fun t => (ih _).trans (writeAlarm_alarms t e)
  exact hfold evs _

theorem endAlarms_alarms (s : State) : (endAlarms s).alarms = ([], []) := publish_alarms ..

/-! Nothing left to do -/

/-- No tick is in progress or in the window, and no queue holds work. -/
structure Idle (s : State) : Prop where
  cur   : s.tkx.cur = none
  ticks : s.aln.ticks = []
  sets  : ∀ e ∈ s.osm.sets, e.2.queue = []
  locs  : s.osm.locQueue = []
  ready : s.ge.ready = []

/-- A state without its ports and, but for the tick in progress, without its Helm. -/
def State.lull (s : State) : State := { s.ashore with tkx := { Tkx.reset with cur := s.tkx.cur } }

theorem lull_of_ashore {s t : State} (h : t.ashore = s.ashore) : t.lull = s.lull :=
  show t.ashore.lull = s.ashore.lull from congrArg State.lull h

theorem lull_of_core {s t : State} (h : t.core = s.core) : t.lull = s.lull := lull_of_ashore (ashore_of_core h)

theorem Idle.of_lull {s t : State} (h : Idle s) (ht : t.lull = s.lull) : Idle t := by
  have hcur : t.tkx.cur = s.tkx.cur := (congrArg (fun u : State => u.tkx.cur) ht :)
  have haln : t.aln = s.aln := (congrArg State.aln ht :)
  have hosm : t.osm = s.osm := (congrArg State.osm ht :)
  have hge : t.ge = s.ge := (congrArg State.ge ht :)
  obtain ⟨hc, hticks, hsets, hlocs, hready⟩ := h
  exact ⟨hcur.trans hc, haln ▸ hticks, hosm ▸ hsets, hosm ▸ hlocs, hge ▸ hready⟩

theorem tkxEvent_lull (k : Nat) (s : State) : (tkxEvent k s).lull = s.lull := by
  unfold tkxEvent
  extract_lets up tkx t
  split
  · exact (lull_of_core (raiseBlock_core 10 t)).trans rfl
  · rfl

theorem traceRaw_lull (e : TrEv) (bits : List (Nat × Nat × Nat)) (s : State) : (traceRaw e bits s).lull = s.lull := by
  unfold traceRaw
  split
  · rfl
  · extract_lets w p froze tkx t
    split
    · exact tkxEvent_lull 6 t
    · rfl

theorem traceTask_lull (e : TrEv) (arg : Nat) (t : TEntry) (s : State) : (traceTask e arg t s).lull = s.lull := traceRaw_lull ..

theorem setEntries_lull (l : List TEntry) (s : State) : (setEntries l s).lull = s.lull := rfl

theorem dropEntry_lull (t : TEntry) (s : State) : (dropEntry t s).lull = s.lull := rfl

theorem setFlow_lull (n : Nat) (f : Flow) (s : State) : (setFlow n f s).lull = s.lull := rfl

theorem flowEnd_lull (result : Bool) (t : TEntry) (s : State) : (flowEnd result t s).lull = s.lull := by
  unfold flowEnd
  split
  · rfl
  · split <;> rfl

theorem cancelOne_lull (arg : Nat) (t : TEntry) (s : State) : (cancelOne arg t s).lull = s.lull :=
  (flowEnd_lull ..).trans ((traceTask_lull ..).trans (dropEntry_lull ..))

theorem foldl_lull {α : Type} (f : State → α → State) (l : List α) (s : State) (h : ∀ s a, (f s a).lull = s.lull) : (l.foldl f s).lull = s.lull := by
  induction l generalizing s with
  | nil => rfl
  | cons a l ih => exact (ih _).trans (h s a)

theorem cancelWhere_lull (p : TEntry → Bool) (arg : Nat) (s : State) : (cancelWhere p arg s).lull = s.lull := foldl_lull _ _ _ fun _ _ => cancelOne_lull ..

theorem enterReady_lull (t : TEntry) (s : State) : (enterReady t s).lull = s.lull := by
  unfold enterReady
  split
  · exact traceTask_lull ..
  · extract_lets f t'
    split
    · rfl
    · exact (traceTask_lull ..).trans ((setEntries_lull ..).trans (setFlow_lull ..))

theorem wakeFlow_lull (n : Nat) (s : State) : (wakeFlow n s).lull = s.lull := by
  unfold wakeFlow
  split
  · rfl
  · exact (enterReady_lull ..).trans (dropEntry_lull ..)

theorem releaseEntry_lull (n : Nat) (t : TEntry) (s : State) : (releaseEntry n t s).lull = s.lull :=
  (wakeFlow_lull ..).trans ((traceTask_lull ..).trans (setFlow_lull ..))

theorem unshedPort_ashore (p g : Nat) (s : State) : (unshedPort p g s).ashore = s.ashore :=
  (foldl_ashore _ _ _ fun _ _ => queueFrame_ashore ..).trans (modPort_ashore ..)

theorem unshed_ashore (p g : Nat) (s : State) : (unshed p g s).ashore = s.ashore := by
  unfold unshed
  split
  · exact (unshedPort_ashore ..).trans (unshedPort_ashore ..)
  · exact unshedPort_ashore ..

theorem Idle.inCur {s : State} (h : Idle s) (e : TEntry) (f : Cur → Tick → State → State) : inCur e f s = s := by
  rw [Machine.inCur, h.cur]

theorem Idle.modCur {s : State} (h : Idle s) (f : Cur → Cur) : (modCur f s).lull = s.lull := by
  have hcur : s.tkx.cur.map f = s.tkx.cur := by rw [h.cur, Option.map_none]
  show { s.ashore with tkx := { Tkx.reset with cur := s.tkx.cur.map f } } = s.lull
  rw [hcur]
  rfl

theorem Idle.tickOf {s : State} (h : Idle s) (g : Nat) : tickOf s g = none := by rw [Machine.tickOf, h.ticks, List.find?_nil]

theorem lookupK_mem {β : Type} {l : List (Nat × β)} {k : Nat} {b : β} (h : lookupK l k = some b) : (k, b) ∈ l := by
  induction l with
  | nil => cases h
  | cons a l ih =>
    unfold lookupK at h
    split at h
    next hk =>
      cases h
      exact hk ▸ List.mem_cons_self
    next => exact List.mem_cons_of_mem _ (ih h)

theorem Idle.osmSet {s : State} (h : Idle s) {k : Nat} {e : OsmSet} (he : osmSetOf s k = some e) : e.queue = [] := by
  rw [osmSetOf, Option.filter_eq_some_iff] at he
  exact h.sets _ (lookupK_mem he.1)

theorem Idle.osmDeferWork {s : State} (h : Idle s) (k : Nat) : osmDeferWork k s = s := by
  unfold Machine.osmDeferWork
  split
  · rw [h.locs]
  · split
    · rfl
    next e he => rw [h.osmSet he]

theorem Idle.deferWaits {s : State} (h : Idle s) (k : Nat) : deferWaits k s = false := by
  unfold Machine.deferWaits
  split
  · rw [h.locs]
    rfl
  · split
    next e he =>
      rw [h.osmSet he]
      rfl
    · rfl

theorem Idle.geAggNext {s : State} (h : Idle s) : geAggNext s = s := by rw [Machine.geAggNext, h.ready]

theorem Idle.feedPort {s : State} (h : Idle s) (e : TEntry) : (feedPort e s).lull = s.lull := by
  unfold Machine.feedPort
  split
  · rw [h.inCur]
  · exact lull_of_ashore (unshed_ashore ..)
  · rfl

/-- A result that comes out of order finds nothing to act on. -/
theorem Idle.effect {s : State} (h : Idle s) (e : TEntry) : (effect e s).lull = s.lull := by
  have hfed : (if e.fed then s else Machine.feedPort e s).lull = s.lull := by
    split
    · rfl
    · exact h.feedPort e
  unfold Machine.effect
  split
  case h_8 => exact ((h.of_lull hfed).modCur _).trans hfed
  case h_9 => exact hfed
  case h_10 => rw [h.tickOf]
  case h_11 => rw [h.tickOf]
  case h_12 k _ =>
    extract_lets t
    have ht : t = s := h.osmDeferWork k
    rw [ht, h.deferWaits]
    rfl
  case h_13 => rw [h.geAggNext]
  case h_14 => rfl
  all_goals rw [h.inCur]

theorem Idle.releaseN {s : State} (h : Idle s) (k : Nat) : (releaseN k s).lull = s.lull := by
  induction k generalizing s with
  | zero => rfl
  | succ k ih =>
    unfold Machine.releaseN
    split
    · rfl
    next n t result _ =>
      have hrelease := releaseEntry_lull n t s
      have hidle := h.of_lull hrelease
      have heffect : (if result then Machine.effect t (releaseEntry n t s) else releaseEntry n t s).lull = s.lull := by
        split
        · exact (hidle.effect t).trans hrelease
        · exact hrelease
      exact (ih (h.of_lull heffect)).trans heffect

theorem Idle.releaseAll {s : State} (h : Idle s) : (releaseAll s).lull = s.lull := h.releaseN _

/-! MAINT_ENTER between ticks (R33) -/

/-- The ticks of the window end: each SPECULATIVE one is FINAL, each open one is discarded. -/
def endTicks (s : State) : State :=
  let u := (s.aln.ticks.filter fun t => t.st = .spec).foldl (fun s t => makeFinal 1 s t.g) s
  (u.aln.ticks.filter fun t => t.st = .opn).foldl (fun s t => discardOpen t.g s) u

/-- The window is shut, and no second gathers packets. -/
def shutWindow (s : State) : State :=
  { s with aln := { s.aln with placing := false, ticks := [], past := [], skips := [] }, ge := { s.ge with running := false, buckets := [], ready := [] } }

/-- What placed, deferred or gathered work there was is gone. -/
def stood (s : State) : State := shutWindow (dropQueues (endAlarms (endTicks s)))

/-- Work is cancelled, and what its flows held back is released. -/
def stopWork (p : TEntry → Bool) (s : State) : State := releaseAll (cancelWhere p 0 s)

/-- MAINTENANCE begins. -/
def moored (s : State) : State := drivePins (dropIllegal (setRunState .maintenance 0x04 { s with sys := { s.sys with maintPend := none } }))

/-- MAINT_ENTER with its context: `p` is the deferred work it cancels. -/
theorem enterMaint_eq {s : State} {c : Ctx} {late : Bool} (h : s.sys.maintPend = some (some c, late)) :
    ∃ p, enterMaint s = completeWith c .ok late (moored (stopWork p (stood s))).tkx.lastSeq 0 (moored (stopWork p (stood s))) := by
  refine ⟨?p, ?_⟩
  rotate_left
  · simp only [enterMaint, moored, stopWork, stood, shutWindow, endTicks, h]
    rfl

theorem endTicks_keel (s : State) : (endTicks s).keel = s.keel := by
  unfold endTicks
  extract_lets u
  have hu : u.keel = s.keel := foldl_keel _ _ _ fun _ _ => makeFinal_keel ..
  exact (foldl_keel _ _ _ fun _ _ => discardOpen_keel ..).trans hu

theorem shutWindow_keel (s : State) : (shutWindow s).keel = s.keel := rfl

theorem stood_keel (s : State) : (stood s).keel = s.keel :=
  (shutWindow_keel _).trans ((dropQueues_keel _).trans ((endAlarms_keel _).trans (endTicks_keel s)))

theorem osmEvent_core (k : Nat) (s : State) : (osmEvent k s).core = { s with osm := { s.osm with event := setBit s.osm.event k } }.core := by
  unfold osmEvent
  extract_lets up osm t
  split
  · exact raiseBlock_core 8 t
  · rfl

/-- The Limit Solver's queues, as `dropQueues` leaves them. -/
theorem dropQueues_osm (s : State) : (∀ e ∈ (dropQueues s).osm.sets, e.2.queue = []) ∧ (dropQueues s).osm.locQueue = [] := by
  have hsets : ∀ e ∈ s.osm.sets.map (fun e => (e.1, { e.2 with queue := [], dropped := e.2.dropped + e.2.queue.length })), e.2.queue = [] := by
    intro e he
    obtain ⟨x, -, rfl⟩ := List.mem_map.mp he
    rfl
  unfold dropQueues
  extract_lets n osm t
  split
  · exact ⟨hsets, rfl⟩
  · have hcore := osmEvent_core 5 (osmCnt 4 n t)
    have hosm : (osmEvent 5 (osmCnt 4 n t)).osm = _ := (congrArg State.osm hcore :)
    rw [hosm]
    exact ⟨hsets, rfl⟩

theorem dropQueues_alarms (s : State) : (dropQueues s).alarms = s.alarms := by
  unfold dropQueues
  extract_lets n osm t
  split
  · rfl
  · exact (alarms_of_core (osmEvent_core 5 (osmCnt 4 n t)) :)

theorem shutWindow_alarms (s : State) : (shutWindow s).alarms = s.alarms := rfl

theorem stood_alarms (s : State) : (stood s).alarms = ([], []) := (shutWindow_alarms _).trans ((dropQueues_alarms _).trans (endAlarms_alarms _))

theorem shutWindow_idle {s : State} (hcur : s.tkx.cur = none) (hsets : ∀ e ∈ s.osm.sets, e.2.queue = []) (hlocs : s.osm.locQueue = []) :
    Idle (shutWindow s) := ⟨hcur, rfl, hsets, hlocs, rfl⟩

theorem idle_of_keel {s t : State} (h : t.keel = s.keel) (hs : s.tkx.cur = none) : t.tkx.cur = none := by
  have hidle : t.tkx.cur.isNone = s.tkx.cur.isNone := (congrArg Keel.idle h :)
  rw [hs] at hidle
  exact Option.isNone_iff_eq_none.mp hidle

theorem stood_idle {s : State} (h : s.tkx.cur = none) : Idle (stood s) := by
  obtain ⟨hsets, hlocs⟩ := dropQueues_osm (endAlarms (endTicks s))
  exact shutWindow_idle (idle_of_keel ((dropQueues_keel _).trans ((endAlarms_keel _).trans (endTicks_keel s))) h) hsets hlocs

/-- What MAINT_ENTER leaves of a module between ticks: `s` before, `t` after. -/
structure Moored (s t : State) : Prop where
  sys     : t.sys = { s.sys with maintPend := none, runState := .maintenance }
  placing : t.aln.placing = false
  ticks   : t.aln.ticks = []
  active  : t.ala.active = []
  values  : t.ala.values = []
  running : t.ge.running = false
  tbu     : t.tbu = s.tbu
  slots   : t.kst.slots = s.kst.slots
  flt     : t.flt = s.flt
  ing     : t.ing = s.ing
  dfc     : t.dfc = { s.dfc with cnt := t.dfc.cnt }
  image   : t.image = s.image

theorem moored_calm (s : State) : (moored s).calm = { s with
    sys := { s.sys with maintPend := none, runState := .maintenance }, pair := { s.pair with switchAt := none }, ala := (moored s).ala }.calm := by
  have hset := calm_of_core (setRunState_core .maintenance 0x04 { s with sys := { s.sys with maintPend := none } })
  have hdrop := (dropIllegal_calm _).trans (congrArg (fun u : State => { u with pair := { u.pair with switchAt := none } }) hset :)
  exact (congrArg (fun u : State => { u with ala := (moored s).ala }) hdrop :)

theorem moored_alarms (s : State) : (moored s).alarms = s.alarms := by
  have hset := calm_of_core (setRunState_core .maintenance 0x04 { s with sys := { s.sys with maintPend := none } })
  have hdrop := (dropIllegal_calm _).trans (congrArg (fun u : State => { u with pair := { u.pair with switchAt := none } }) hset :)
  exact (congrArg State.alarms hdrop :)

theorem alarms_of_lull {s t : State} (h : t.lull = s.lull) : t.alarms = s.alarms := (congrArg State.alarms h :)

/-- MAINTENANCE from a state that holds nothing. -/
theorem Moored.of {s q r t : State} (hkeel : q.keel = s.keel) (halarms : t.alarms = ([], [])) (hplacing : q.aln.placing = false)
    (hticks : q.aln.ticks = []) (hrunning : q.ge.running = false) (hr : r.lull = q.lull) {p : Pair} {a : Ala}
    (ht : t.calm = { r with sys := { r.sys with maintPend := none, runState := .maintenance }, pair := p, ala := a }.calm) : Moored s t := by
  obtain ⟨hactive, hvalues⟩ := Prod.mk.inj halarms
  have haln : t.aln = q.aln := (congrArg State.aln ht :).trans (congrArg State.aln hr :)
  have hge : t.ge = q.ge := (congrArg State.ge ht :).trans (congrArg State.ge hr :)
  have hrsys : r.sys = s.sys := (congrArg State.sys hr :).trans (congrArg Keel.sys hkeel :)
  have hkst : t.kst = s.kst := (congrArg State.kst ht :).trans ((congrArg State.kst hr :).trans (congrArg Keel.kst hkeel :))
  have hdfc : r.dfc = s.dfc := (congrArg State.dfc hr :).trans (congrArg Keel.dfc hkeel :)
  exact {
    sys := (congrArg State.sys ht :).trans (congrArg (fun x : Sys => { x with maintPend := none, runState := .maintenance }) hrsys)
    placing := haln ▸ hplacing
    ticks := haln ▸ hticks
    active := hactive
    values := hvalues
    running := hge ▸ hrunning
    tbu := (congrArg State.tbu ht :).trans ((congrArg State.tbu hr :).trans (congrArg Keel.tbu hkeel :))
    slots := congrArg Kst.slots hkst
    flt := (congrArg State.flt ht :).trans ((congrArg State.flt hr :).trans (congrArg Keel.flt hkeel :))
    ing := (congrArg State.ing ht :).trans ((congrArg State.ing hr :).trans (congrArg Keel.ing hkeel :))
    dfc := hdfc ▸ dfc_ext (congrArg State.dfc ht :)
    image := (congrArg State.image ht :).trans ((congrArg State.image hr :).trans (congrArg Keel.image hkeel :)) }

theorem stopWork_lull {s : State} (h : Idle s) (p : TEntry → Bool) : (stopWork p s).lull = s.lull := by
  have hcancel := cancelWhere_lull p 0 s
  exact ((h.of_lull hcancel).releaseAll).trans hcancel

theorem moored_moored {s : State} (hcur : s.tkx.cur = none) (p : TEntry → Bool) : Moored s (moored (stopWork p (stood s))) := by
  have hr := stopWork_lull (stood_idle hcur) p
  refine Moored.of (stood_keel s) ?_ rfl rfl rfl hr (moored_calm _)
  rw [moored_alarms, alarms_of_lull hr, stood_alarms]

theorem Moored.of_rest {s s' t t' : State} (h : Moored s t) (hs : s'.rest = s.rest) (ht : t'.rest = t.rest) : Moored s' t' := by
  have hs' := rest_ext hs
  have ht' := rest_ext ht
  generalize s'.hif = hif, s'.out = out at hs'
  generalize t'.hif = hif', t'.out = out' at ht'
  subst hs' ht'
  obtain ⟨hsys, hplacing, hticks, hactive, hvalues, hrunning, htbu, hslots, hflt, hing, hdfc, himage⟩ := h
  exact ⟨hsys, hplacing, hticks, hactive, hvalues, hrunning, htbu, hslots, hflt, hing, hdfc, himage⟩

/-- The module that has told its peer of a MAINT_ENTER and waits for the tick in progress. -/
def asked (c : Ctx) (s : State) : State := mirror .maintEnter { s with sys := { s.sys with maintPend := some (some c, false) } }

theorem asked_rest (c : Ctx) (s : State) : (asked c s).rest = { s with sys := { s.sys with maintPend := some (some c, false) } }.rest := mirror_rest ..

theorem Moored.of_asked {s t : State} {p : Option (Option Ctx × Bool)} (h : Moored { s with sys := { s.sys with maintPend := p } } t) : Moored s t := by
  obtain ⟨hsys, hplacing, hticks, hactive, hvalues, hrunning, htbu, hslots, hflt, hing, hdfc, himage⟩ := h
  exact ⟨hsys, hplacing, hticks, hactive, hvalues, hrunning, htbu, hslots, hflt, hing, hdfc, himage⟩

theorem asked_fields (c : Ctx) (s : State) :
    (asked c s).tkx = s.tkx ∧ (asked c s).aln = s.aln ∧ (asked c s).sys = { s.sys with maintPend := some (some c, false) } :=
  ⟨(congrArg State.tkx (asked_rest c s) :), (congrArg State.aln (asked_rest c s) :), (sys_of_rest (asked_rest c s) :)⟩

theorem maintEnterNow_eq {c : Ctx} {s : State} (h : s.sys.maintPend = none) : maintEnterNow c s = maintWhenIdle (asked c s) := by
  rw [maintEnterNow, h]
  rfl

theorem maintEnterNow_waits {c : Ctx} {s : State} (h : s.sys.maintPend = none) (hcur : s.tkx.cur ≠ none) : maintEnterNow c s = asked c s := by
  obtain ⟨htkx, -, -⟩ := asked_fields c s
  have hsome : s.tkx.cur.isNone = false := Option.isNone_eq_false_iff.mpr (Option.isSome_iff_ne_none.mpr hcur)
  rw [maintEnterNow_eq h, maintWhenIdle, htkx, hsome]
  rfl

theorem maintEnterNow_moored {c : Ctx} {s : State} (h : s.sys.maintPend = none) (hrun : s.sys.runState = .run) (hcur : s.tkx.cur = none) :
    Moored s (maintEnterNow c s) := by
  obtain ⟨htkx, -, hsys⟩ := asked_fields c s
  have hidle : (asked c s).tkx.cur = none := htkx ▸ hcur
  have hstate : (asked c s).sys.runState = .run := hsys ▸ hrun
  have hpend : (asked c s).sys.maintPend = some (some c, false) := hsys ▸ rfl
  have hnow : maintWhenIdle (asked c s) = enterMaint (asked c s) := by
    rw [maintWhenIdle, hidle, hstate]
    rfl
  obtain ⟨p, hp⟩ := enterMaint_eq hpend
  rw [maintEnterNow_eq h, hnow, hp]
  exact ((moored_moored hidle p).of_rest (asked_rest c s).symm (completeWith_rest ..)).of_asked

theorem sys_idle {x : Sys} (h : x.maintPend = none) (r : RunState) : { x with maintPend := none, runState := r } = { x with runState := r } := by
  obtain ⟨⟩ := x
  cases h
  rfl

/-- Settles O13: between ticks what stands is ended and MAINTENANCE begins, and nothing is left for the released flows to do; in a tick it waits. -/
theorem maintEnterCompletes : Obligations.MaintEnterCompletes := by
  unfold Obligations.MaintEnterCompletes
  intro dt d s s0 h hsched hpend
  have hexec : exec (.maintEnter dt d) s = run dt (onTick (maintEnterCmd d)) s := rfl
  have hcmd : maintEnterCmd d s0 = noteWaits (maintEnterNow (headCtx .maintEnter d s0) (taken .maintEnter d s0)) := by
    rw [maintEnterCmd, plainDesc_of_canRun h, if_neg (by simp [hsched])]
  have hrest : (taken .maintEnter d s0).rest = s0.rest := taken_rest ..
  have hpend' : (taken .maintEnter d s0).sys.maintPend = none := by rwa [sys_of_rest hrest]
  have hrun : s0.sys.runState = .run := by simpa [Opcode.states] using canRun_runState h
  refine ⟨maintEnterCmd d s0, exec_onTick hexec h.1, ?_, ?_⟩
  · intro hcur
    obtain ⟨hsys, hplacing, hticks, hactive, hvalues, hrunning, htbu, hslots, hflt, hing, hdfc, himage⟩ :=
      (maintEnterNow_moored (c := headCtx .maintEnter d s0) hpend' (by rwa [sys_of_rest hrest]) hcur).of_rest hrest.symm (noteWaits_rest _)
    rw [hcmd]
    exact ⟨hsys.trans (sys_idle hpend _), hplacing, hticks, hactive, hvalues, hrunning, htbu, hslots, hflt, hing, hdfc, himage⟩
  · intro hcur
    have hwaits := maintEnterNow_waits (c := headCtx .maintEnter d s0) hpend' hcur
    obtain ⟨htkx, haln, hsys⟩ := asked_fields (headCtx .maintEnter d s0) (taken .maintEnter d s0)
    have hdone := noteWaits_rest (asked (headCtx .maintEnter d s0) (taken .maintEnter d s0))
    rw [hcmd, hwaits]
    have hsys' := (sys_of_rest hdone).trans hsys
    refine ⟨(congrArg Sys.runState hsys' :).trans hrun, ?_, (congrArg State.tkx hdone :).trans htkx, (congrArg State.aln hdone :).trans haln⟩
    rw [hsys']
    rfl

end Sys2Proof.Machine
end

section
/-! SUPPORT. What the work of a tick leaves alone (R40, R42, R51, R52, R201). -/

namespace Sys2Proof.Machine

/-! What the work of a tick leaves alone (R40, R42, R201) -/

/-- What a SPECULATIVE tick is known by: its number, its values as placed and as frozen, its time. -/
structure Sketch where
  g        : Nat
  st       : TickSt
  seq      : Nat
  eps      : List (Nat × EpVal)
  view     : List (Nat × EpVal)
  suspect  : Bool
  epoch    : Nat
  commitTs : Nat

@[simp] def Tick.sketch (t : Tick) : Sketch := ⟨t.g, t.st, t.seq, t.eps, t.view, t.suspect, t.epoch, t.commitTs⟩

/-- The SPECULATIVE tick of each number. -/
def specsOf (l : List Tick) (g : Nat) : Option Sketch := ((l.map Tick.sketch).find? fun x => x.g = g).filter fun x => x.st = .spec

/-- What the engines, the Helm and the emission of a tick leave alone while the module is not paired. -/
structure Bearing where
  sys        : Sys
  tbu        : Tbu
  slots      : List Slot
  sched      : List Sched
  ports      : Nat
  pairSt     : PairSt
  switchAt   : Option (Ctx × Bool)
  next       : Nat
  skips      : List SkipGroup
  specs      : Nat → Option Sketch
  lastSeq    : Option Nat
  nextSeq    : Nat
  notBefore  : Nat
  shedLevels : Nat
  overrunCnt : Word
  idle       : Bool

def State.bearing (s : State) : Bearing :=
  ⟨s.sys, s.tbu, s.kst.slots, s.hif.sched, s.net.ports.length, s.pair.st, s.pair.switchAt, s.aln.next, s.aln.skips, specsOf s.aln.ticks, s.tkx.lastSeq,
    s.tkx.nextSeq, s.tkx.notBefore, s.tkx.shedLevels, s.tkx.overrunCnt, s.tkx.cur.isNone⟩

@[simp] theorem bearing_mk (sys : Sys) (hif : Hif) (tbu : Tbu) (log : Log) (flt : Flt) (swm : Swm) (tkx : Tkx) (net : Net) (ing : Ing)
    (aln : Aln) (dfc : Dfc) (lse : Lse) (osm : Osm) (sep : Sep) (ge : Ge) (ala : Ala) (pair : Pair) (kst : Kst) (mbx : Mbx)
    (image : Option Image) (pending : List Instr) (out : List Out) (freeCtr : Nat) (latches : List (Nat × Word)) (readData readHigh : Word) (prior : Blocks) :
    (State.mk sys hif tbu log flt swm tkx net ing aln dfc lse osm sep ge ala pair kst mbx image pending out freeCtr latches readData readHigh prior).bearing =
      ⟨sys, tbu, kst.slots, hif.sched, net.ports.length, pair.st, pair.switchAt, aln.next, aln.skips, specsOf aln.ticks, tkx.lastSeq, tkx.nextSeq,
        tkx.notBefore, tkx.shedLevels, tkx.overrunCnt, tkx.cur.isNone⟩ := rfl

@[simp] theorem bearing_eta (s : State) :
    Bearing.mk s.sys s.tbu s.kst.slots s.hif.sched s.net.ports.length s.pair.st s.pair.switchAt s.aln.next s.aln.skips (specsOf s.aln.ticks) s.tkx.lastSeq
      s.tkx.nextSeq s.tkx.notBefore s.tkx.shedLevels s.tkx.overrunCnt s.tkx.cur.isNone = s.bearing := rfl

@[simp] theorem ite_bearing (c : Prop) [Decidable c] (s t : State) : (if c then s else t).bearing = if c then s.bearing else t.bearing :=
  apply_ite State.bearing c s t

@[simp] theorem foldl_bearing {α : Type} (f : State → α → State) (l : List α) (s : State) (h : ∀ s a, (f s a).bearing = s.bearing) :
    (l.foldl f s).bearing = s.bearing := by
  induction l generalizing s with
  | nil => rfl
  | cons a l ih => exact (ih _).trans (h s a)

theorem foldl_fst_bearing {α β : Type} (f : State × β → α → State × β) (l : List α) (a : State × β) (h : ∀ a x, (f a x).1.bearing = a.1.bearing) :
    (l.foldl f a).1.bearing = a.1.bearing := by
  induction l generalizing a with
  | nil => rfl
  | cons x l ih => exact (ih _).trans (h a x)

theorem bearing_of_core {s t : State} (h : t.core = s.core) (hs : t.hif.sched = s.hif.sched) : t.bearing = s.bearing :=
  show { t.core.bearing with sched := t.hif.sched } = { s.core.bearing with sched := s.hif.sched } by rw [h, hs]

@[simp] theorem raiseBlock_bearing (b : Nat) (s : State) : (raiseBlock b s).bearing = s.bearing := bearing_of_core (raiseBlock_core b s) (raiseBlock_sched b s)

@[simp] theorem handRec_bearing (n typ : Nat) (us : List Unit512) (stamp tick : Option Nat) (s : State) :
    (handRec n typ us stamp tick s).bearing = s.bearing := bearing_of_core (core_of_rest (handRec_rest ..)) (handRec_sched ..)

@[simp] theorem logEv_bearing (event source cls arg : Nat) (s : State) : (logEv event source cls arg s).bearing = s.bearing :=
  bearing_of_core (logEv_core ..) (logEv_sched ..)

@[simp] theorem completeWith_bearing (c : Ctx) (st : Status) (late : Bool) (tick : Option Nat) (r : Nat) (s : State) :
    (completeWith c st late tick r s).bearing = s.bearing := bearing_of_core (core_of_rest (completeWith_rest ..)) (completeWith_sched ..)

@[simp] theorem yokeSend_bearing (m : YokeOut) (s : State) : (yokeSend m s).bearing = s.bearing :=
  bearing_of_core (core_of_rest (yokeSend_rest ..)) (yokeSend_sched ..)

theorem modTick_bearing (g : Nat) (f : Tick → Tick) (s : State) (h : ∀ t, (f t).sketch = t.sketch) : (modTick g f s).bearing = s.bearing := by
  have hmap : (s.aln.ticks.map fun t => if t.g = g then f t else t).map Tick.sketch = s.aln.ticks.map Tick.sketch := by
    rw [List.map_map]
    refine List.map_congr_left fun t _ => ?_
    rw [Function.comp_apply, apply_ite Tick.sketch, h, ite_self]
  have hspecs : specsOf (s.aln.ticks.map fun t => if t.g = g then f t else t) = specsOf s.aln.ticks := by
    funext k
    rw [specsOf, specsOf, hmap]
  rw [modTick, bearing_mk, hspecs]
  rfl

@[simp] theorem modCur_bearing (f : Cur → Cur) (s : State) : (modCur f s).bearing = s.bearing := by
  rw [modCur, bearing_mk, Option.isNone_map]
  rfl

@[simp] theorem tkxEvent_bearing (k : Nat) (s : State) : (tkxEvent k s).bearing = s.bearing := by simp [tkxEvent]

@[simp] theorem traceRaw_bearing (e : TrEv) (bits : List (Nat × Nat × Nat)) (s : State) : (traceRaw e bits s).bearing = s.bearing := by simp [traceRaw]

@[simp] theorem traceTick_bearing (e : TrEv) (arg : Nat) (seq : Nat) (phase : Nat) (s : State) : (traceTick e arg seq phase s).bearing = s.bearing := by simp [traceTick]

@[simp] theorem traceTask_bearing (e : TrEv) (arg : Nat) (t : TEntry) (s : State) : (traceTask e arg t s).bearing = s.bearing := by simp [traceTask]

@[simp] theorem setEntries_bearing (l : List TEntry) (s : State) : (setEntries l s).bearing = s.bearing := rfl

@[simp] theorem updEntry_bearing (t : TEntry) (f : TEntry → TEntry) (s : State) : (updEntry t f s).bearing = s.bearing := rfl

@[simp] theorem dropEntry_bearing (t : TEntry) (s : State) : (dropEntry t s).bearing = s.bearing := rfl

@[simp] theorem setFlow_bearing (n : Nat) (f : Flow) (s : State) : (setFlow n f s).bearing = s.bearing := rfl

@[simp] theorem enterReady_bearing (t : TEntry) (s : State) : (enterReady t s).bearing = s.bearing := by
  unfold enterReady
  split <;> simp

@[simp] theorem makeReady_bearing (c : TaskCfg) (g : Nat) (seq : Nat) (s : State) : (makeReady c g seq s).bearing = s.bearing := by
  unfold makeReady
  split <;> simp

@[simp] theorem readyAll_bearing (p : Work → Bool) (g : Nat) (seq : Nat) (s : State) : (readyAll p g seq s).bearing = s.bearing := by simp [readyAll]

@[simp] theorem wakeFlow_bearing (n : Nat) (s : State) : (wakeFlow n s).bearing = s.bearing := by
  unfold wakeFlow
  split <;> simp

@[simp] theorem releaseEntry_bearing (n : Nat) (t : TEntry) (s : State) : (releaseEntry n t s).bearing = s.bearing := by simp [releaseEntry]

@[simp] theorem flowEnd_bearing (result : Bool) (t : TEntry) (s : State) : (flowEnd result t s).bearing = s.bearing := by
  unfold flowEnd
  split <;> simp

@[simp] theorem cancelOne_bearing (arg : Nat) (t : TEntry) (s : State) : (cancelOne arg t s).bearing = s.bearing := by simp [cancelOne]

@[simp] theorem cancelWhere_bearing (p : TEntry → Bool) (arg : Nat) (s : State) : (cancelWhere p arg s).bearing = s.bearing := by simp [cancelWhere]

@[simp] theorem phaseMax_bearing (k : Nat) (us : Nat) (s : State) : (phaseMax k us s).bearing = s.bearing := rfl

@[simp] theorem phaseLate_bearing (task : Option TEntry) (phase late seq : Nat) (s : State) : (phaseLate task phase late seq s).bearing = s.bearing := by
  cases task <;> simp [phaseLate]

@[simp] theorem sepEvent_bearing (k : Nat) (s : State) : (sepEvent k s).bearing = s.bearing := by simp [sepEvent]

@[simp] theorem geCnt_bearing (k : Nat) (n : Nat) (s : State) : (geCnt k n s).bearing = s.bearing := rfl

@[simp] theorem sepCnt_bearing (k : Nat) (n : Nat) (s : State) : (sepCnt k n s).bearing = s.bearing := rfl

@[simp] theorem geZone_bearing (b : Bucket) (z : Nat) (s : State) : (geZone b z s).bearing = s.bearing := by simp [geZone]

@[simp] theorem geAggregate_bearing (b : Bucket) (s : State) : (geAggregate b s).bearing = s.bearing := by simp [geAggregate]

@[simp] theorem geAggNext_bearing (s : State) : (geAggNext s).bearing = s.bearing := by
  unfold geAggNext
  split <;> simp

@[simp] theorem netEvent_bearing (k : Nat) (s : State) : (netEvent k s).bearing = s.bearing := by simp [netEvent]

@[simp] theorem modPort_bearing (p : Nat) (f : Port → Port) (s : State) : (modPort p f s).bearing = s.bearing := by simp [modPort]

@[simp] theorem netCnt_bearing (p : Nat) (k : Nat) (n : Nat) (s : State) : (netCnt p k n s).bearing = s.bearing := by simp [netCnt]

@[simp] theorem wakePort_bearing (p : Nat) (s : State) : (wakePort p s).bearing = s.bearing := by simp [wakePort]

@[simp] theorem queueFrame_bearing (p : Nat) (express : Bool) (f : TxFrame) (s : State) : (queueFrame p express f s).bearing = s.bearing := by simp [queueFrame]

@[simp] theorem copies_bearing (p : Nat) (f : TxFrame) (s : State) : (copies p f s).2.bearing = s.bearing := by
  unfold copies
  split <;> simp

@[simp] theorem handFrame_bearing (p : Nat) (express : Bool) (f : TxFrame) (s : State) : (handFrame p express f s).bearing = s.bearing := by
  unfold handFrame
  rw [foldl_bearing _ _ _ fun s c => queueFrame_bearing .., copies_bearing]

@[simp] theorem shedFrame_bearing (p : Nat) (g : Nat) (f : TxFrame) (s : State) : (shedFrame p g f s).bearing = s.bearing := by
  unfold shedFrame
  rw [foldl_bearing _ _ _ fun s c => by simp, copies_bearing]

@[simp] theorem unshedPort_bearing (p g : Nat) (s : State) : (unshedPort p g s).bearing = s.bearing := by simp [unshedPort]

@[simp] theorem markHeld_bearing (p g : Nat) (s : State) : (markHeld p g s).bearing = s.bearing := by simp [markHeld]

@[simp] theorem dropHeld_bearing (p : Nat) (g : Nat) (s : State) : (dropHeld p g s).bearing = s.bearing := by simp [dropHeld]

@[simp] theorem limitHeld_bearing (p : Nat) (s : State) : (limitHeld p s).bearing = s.bearing := by
  unfold limitHeld
  split <;> simp

@[simp] theorem alnEvent_bearing (k : Nat) (s : State) : (alnEvent k s).bearing = s.bearing := by simp [alnEvent]

@[simp] theorem alnCnt_bearing (k : Nat) (n : Nat) (s : State) : (alnCnt k n s).bearing = s.bearing := rfl

@[simp] theorem noteQuorum_bearing (s : State) : (noteQuorum s).bearing = s.bearing := rfl

@[simp] theorem countCause_bearing (c : Nat) (s : State) : (countCause c s).bearing = s.bearing := by
  unfold countCause
  split <;> simp

@[simp] theorem keepPast_bearing (t : Tick) (s : State) : (keepPast t s).bearing = s.bearing := by simp [keepPast]

theorem keepPast_ticks (t : Tick) (s : State) : (keepPast t s).aln.ticks = s.aln.ticks := by
  unfold keepPast
  extract_lets u old
  show (if t.g = s.ala.lastG then { s with ala := { s.ala with lastMarks := t.marks } } else s).aln.ticks = _
  split <;> rfl

theorem specsOf_eq (l : List Tick) (g : Nat) :
    specsOf l g = ((l.find? fun t => t.g = g).map Tick.sketch).filter fun x => x.st = .spec := by
  rw [specsOf, List.find?_map]
  rfl

theorem specsOf_dropTick {l : List Tick} {g : Nat} {t : Tick} (h : l.find? (fun t => t.g = g) = some t) (hst : t.st ≠ .spec) :
    specsOf (l.filter fun t => t.g ≠ g) = specsOf l := by
  funext k
  rw [specsOf_eq, specsOf_eq]
  by_cases hk : k = g
  · subst hk
    have hnone : (l.filter fun t => t.g ≠ k).find? (fun t => t.g = k) = none := by simp
    rw [hnone, h]
    exact (if_neg (by simp [hst])).symm
  · have hsame : (l.filter fun t => t.g ≠ g).find? (fun t => t.g = k) = l.find? (fun t => t.g = k) := by
      rw [List.find?_filter]
      congr 1
      funext t
      by_cases ht : t.g = k <;> simp [ht, hk]
    rw [hsame]

@[simp] theorem releaseTick_bearing (g : Nat) (s : State) : (releaseTick g s).bearing = s.bearing := by
  unfold releaseTick
  split
  next t ht =>
    split
    next h =>
      have hst : t.st ≠ .spec := by
        simp only [Bool.and_eq_true, decide_eq_true_eq] at h
        rw [h.1.1]
        decide
      rw [← keepPast_bearing t s]
      have hticks : (keepPast t s).aln.ticks = s.aln.ticks := keepPast_ticks t s
      rw [tickOf, ← hticks] at ht
      rw [dropTick, bearing_mk, specsOf_dropTick ht hst]
      rfl
    next => rfl
  next => rfl

@[simp] theorem osmEvent_bearing (k : Nat) (s : State) : (osmEvent k s).bearing = s.bearing := by simp [osmEvent]

@[simp] theorem osmCnt_bearing (k : Nat) (n : Nat) (s : State) : (osmCnt k n s).bearing = s.bearing := rfl

@[simp] theorem putSet_bearing (k : Nat) (e : OsmSet) (s : State) : (putSet k e s).bearing = s.bearing := rfl

@[simp] theorem freeSlots_bearing (p : LocSlot → Bool) (s : State) : (freeSlots p s).bearing = s.bearing := rfl

@[simp] theorem resetSet_bearing (k : Nat) (e : OsmSet) (s : State) : (resetSet k e s).bearing = s.bearing := rfl

@[simp] theorem slotFor_bearing (k : Nat) (g : Nat) (e : OsmSet) (s : State) (t : Track) : (slotFor k g e s t).bearing = s.bearing := by
  unfold slotFor
  repeat' split
  all_goals simp

@[simp] theorem tally_bearing (n : IdTally) (s : State) : (tally n s).bearing = s.bearing := by simp [tally]

@[simp] theorem finishId_bearing (k : Nat) (f : Nat) (head : List (Nat × Nat × Nat)) (marks : Nat) (e : OsmSet) (out : IdOut) (ends : List Nat) (s : State) : (finishId k f head marks e out ends s).1.bearing = s.bearing := rfl

@[simp] theorem takeModes_bearing (k : Nat) (g : Nat) (n : IdTally) (e : OsmSet) (s : State) : (takeModes k g n e s).bearing = s.bearing := by simp [takeModes]

@[simp] theorem identifyBy_bearing (k : Nat) (g : Nat) (f : Nat) (head : List (Nat × Nat × Nat)) (marks : Nat) (e : OsmSet) (found : Option (Nat × List Cand)) (s : State) : (identifyBy k g f head marks e found s).1.bearing = s.bearing := by
  unfold identifyBy
  split <;> simp

@[simp] theorem identifySet_bearing (k : Nat) (g : Nat) (seq : Nat) (marks : Nat) (s : State) : (identifySet k g seq marks s).1.bearing = s.bearing := by
  simp only [identifySet]
  repeat' split
  all_goals simp

@[simp] theorem updateSet_bearing (k : Nat) (x : OsmIn) (marks : Nat) (s : State) : (updateSet k x marks s).1.bearing = s.bearing := by
  simp only [updateSet]
  repeat' split
  all_goals simp

@[simp] theorem locationTick_bearing (x : LocIn) (s : State) : (locationTick x s).bearing = s.bearing := rfl

@[simp] theorem deferSet_bearing (k : Nat) (x : OsmIn) (s : State) : (deferSet k x s).bearing = s.bearing := by
  unfold deferSet
  repeat' split
  all_goals simp

@[simp] theorem deferLoc_bearing (x : LocIn) (s : State) : (deferLoc x s).bearing = s.bearing := by simp [deferLoc]

@[simp] theorem carryId_bearing (k : Nat) (g : Nat) (s : State) : (carryId k g s).bearing = s.bearing := by
  unfold carryId
  split <;> simp

@[simp] theorem sepTask_bearing (t : Tick) (s : State) : (sepTask t s).1.bearing = s.bearing := by simp [sepTask]

@[simp] theorem alaEvent_bearing (k : Nat) (s : State) : (alaEvent k s).bearing = s.bearing := by simp [alaEvent]

@[simp] theorem alaCnt_bearing (k : Nat) (n : Nat) (s : State) : (alaCnt k n s).bearing = s.bearing := rfl

@[simp] theorem drivePins_bearing (s : State) : (drivePins s).bearing = s.bearing := by simp [drivePins]

@[simp] theorem keepDigest_bearing (typ : Nat) (us : List Unit512) (s : State) : (keepDigest typ us s).bearing = s.bearing := by
  unfold keepDigest
  split
  · rfl
  · split
    next c hc => simp [← bearing_eta s, hc]
    next => rfl

@[simp] theorem noteRing_bearing (n seq : Nat) (s : State) : (noteRing n seq s).bearing = s.bearing := by
  unfold noteRing
  split
  next c hc =>
    split
    · simp [← bearing_eta s, hc]
    · rfl
  next => rfl

@[simp] theorem writeAlarm_bearing (s : State) (e : AEv) : (writeAlarm s e).bearing = s.bearing := by
  simp only [writeAlarm]
  repeat' split
  all_goals simp

@[simp] theorem latchPins_bearing (evs : List AEv) (s : State) : (latchPins evs s).bearing = s.bearing := by simp [latchPins]

@[simp] theorem publish_bearing (evs : List AEv) (s : State) : (publish evs s).bearing = s.bearing := by simp [publish]

@[simp] theorem setRule_bearing (k : Nat) (t : Tick) (dec2 : Bool) (ops : Nat) (prior : Nat) (cause : Nat) (rev : Nat) (reissue : Nat) (s : State) : (setRule k t dec2 ops prior cause rev reissue s).1.bearing = s.bearing := rfl

@[simp] theorem keepEnded_bearing (i : Inst) (g : Nat) (seq : Nat) (s : State) : (keepEnded i g seq s).1.bearing = s.bearing := by
  unfold keepEnded
  repeat' split
  all_goals simp

@[simp] theorem releaseRule_bearing (k g seq ops cause rev : Nat) (s : State) : (releaseRule k g seq ops cause rev s).1.bearing = s.bearing := by
  simp only [releaseRule]
  repeat' split
  all_goals simp

@[simp] theorem retractRule_bearing (k : Nat) (g : Nat) (seq : Nat) (ops : Nat) (rev : Nat) (s : State) : (retractRule k g seq ops rev s).1.bearing = s.bearing := by
  unfold retractRule
  split <;> simp

@[simp] theorem evalRule_bearing (t : Tick) (dec2 : Bool) (before : Conds) (a : State × List AEv) (x : Nat × BitVec 256) :
    (evalRule t dec2 before a x).1.bearing = a.1.bearing := by
  unfold evalRule
  dsimp only
  repeat' split
  all_goals simp

@[simp] theorem noteDecision_bearing (t : Tick) (s : State) : (noteDecision t s).bearing = s.bearing := rfl

@[simp] theorem decideD1_bearing (t : Tick) (dfc : Bool) (s : State) : (decideD1 t dfc s).bearing = s.bearing := by
  unfold decideD1
  dsimp only
  rw [publish_bearing, foldl_fst_bearing _ _ _ (evalRule_bearing _ _ _)]
  simp

@[simp] theorem decideD2_bearing (t : Tick) (res : Option LseRes) (osm : Bool) (s : State) : (decideD2 t res osm s).bearing = s.bearing := by
  unfold decideD2
  dsimp only
  rw [bearing_mk, bearing_eta, publish_bearing, foldl_fst_bearing _ _ _ (evalRule_bearing _ _ _)]
  simp

@[simp] theorem reviseRule_bearing (t : Tick) (rev : Nat) (d : D2Rec) (a : State × List AEv) (x : Nat × BitVec 256) :
    (reviseRule t rev d a x).1.bearing = a.1.bearing := by
  unfold reviseRule
  dsimp only
  repeat' split
  all_goals simp

@[simp] theorem reviseInst_bearing (t : Tick) (rev : Nat) (res : LseRes) (a : State × List AEv) (i : Inst) :
    (reviseInst t rev res a i).1.bearing = a.1.bearing := by
  unfold reviseInst
  dsimp only
  repeat' split
  all_goals simp

@[simp] theorem reviseAlarms_bearing (t : Tick) (rev : Nat) (res : LseRes) (s : State) : (reviseAlarms t rev res s).bearing = s.bearing := by
  unfold reviseAlarms
  split
  · rfl
  · dsimp only
    split
    · rw [publish_bearing, foldl_fst_bearing _ _ _ (reviseRule_bearing _ _ _)]
      simp
    · rw [publish_bearing, foldl_fst_bearing _ _ _ (reviseInst_bearing _ _ _)]

@[simp] theorem lseEvent_bearing (k : Nat) (s : State) : (lseEvent k s).bearing = s.bearing := by simp [lseEvent]

@[simp] theorem lseCnt_bearing (k : Nat) (n : Nat) (s : State) : (lseCnt k n s).bearing = s.bearing := rfl

@[simp] theorem emitMark_bearing (seq : Nat) (s : State) : (emitMark seq s).bearing = s.bearing := by simp [emitMark]

@[simp] theorem keepFrames_bearing (seq : Nat) (l : List (Nat × TxFrame)) (s : State) : (keepFrames seq l s).bearing = s.bearing := rfl

@[simp] theorem emitPortFrames_bearing (t : Tick) (p : Nat) (s : State) : (emitPortFrames t p s).bearing = s.bearing := by simp [emitPortFrames]

@[simp] theorem shedPortFrames_bearing (t : Tick) (p : Nat) (s : State) : (shedPortFrames t p s).bearing = s.bearing := by simp [shedPortFrames]

@[simp] theorem unshed_bearing (p g : Nat) (s : State) : (unshed p g s).bearing = s.bearing := by simp [unshed]

@[simp] theorem sendMarks_bearing (n : Nat) (s : State) : (sendMarks n s).bearing = s.bearing := by
  induction n generalizing s with
  | zero => rfl
  | succ k ih =>
    simp only [sendMarks]
    repeat' split
    all_goals simp [ih]

@[simp] theorem marksDue_bearing (s : State) : (marksDue s).bearing = s.bearing := by
  simp only [marksDue]
  all_goals simp

@[simp] theorem dfcEvent_bearing (k : Nat) (s : State) : (dfcEvent k s).bearing = s.bearing := by simp [dfcEvent]

@[simp] theorem dfcCnt_bearing (k : Nat) (n : Nat) (s : State) : (dfcCnt k n s).bearing = s.bearing := rfl

@[simp] theorem swapDone_bearing (seq : Nat) (w : Swap) (s : State) : (swapDone seq w s).bearing = s.bearing := by
  unfold swapDone
  split <;> simp

@[simp] theorem chainWork_bearing (t : Tick) (s : State) (x : Nat × Chain) : (chainWork t s x).bearing = s.bearing := by
  unfold chainWork
  extract_lets r dfc u v ev w
  have hev : ∀ b k x, (ev b k x).bearing = x.bearing := fun b k x => by
    show (if b then dfcEvent k x else x).bearing = _
    split <;> simp
  have hv : v.bearing = s.bearing := by simp [v, u]
  have hw : w.bearing = s.bearing := by
    show (ev _ 0 (ev _ 1 (ev _ 2 (ev _ 3 (ev _ 4 v))))).bearing = _
    rw [hev, hev, hev, hev, hev, hv]
  split
  · exact (swapDone_bearing ..).trans hw
  · exact hw

@[simp] theorem dfcGroup_bearing (t : Tick) (grp : Nat) (s : State) : (dfcGroup t grp s).bearing = s.bearing := by simp [dfcGroup]

@[simp] theorem lseWriteBack_bearing (t : Tick) (v : Solve) (r : LseRes) (s : State) : (lseWriteBack t v r s).bearing = s.bearing := rfl

@[simp] theorem lseTally_bearing (t : Tick) (v : Solve) (r : LseRes) (s : State) : (lseTally t v r s).bearing = s.bearing := by
  unfold lseTally
  extract_lets ev trunc unob u v
  have hev : ∀ b k x, (ev b k x).bearing = x.bearing := fun b k x => by
    show (if b then lseEvent k x else x).bearing = _
    split <;> simp
  have hv : v.bearing = u.bearing := modTick_bearing _ _ u fun _ => rfl
  rw [hev, hev, hev, hev, hev, hv]
  simp [u]

@[simp] theorem analyzeTick_bearing (t : Tick) (v : Solve) (s : State) : (analyzeTick t v s).2.bearing = s.bearing := by
  unfold analyzeTick
  split <;> simp

@[simp] theorem sepWork_bearing (t : Tick) (s : State) : (sepWork t s).1.bearing = s.bearing := by simp [sepWork]

@[simp] theorem writeNow_bearing (t : Tick) (l : List EmitRec) (s : State) : (writeNow t l s).bearing = s.bearing := by
  refine foldl_bearing _ _ _ fun u r => ?_
  split
  · exact handRec_bearing ..
  · rfl

@[simp] theorem revise_bearing (t0 : Tick) (v : Solve) (s : State) : (revise t0 v s).bearing = s.bearing := by
  unfold revise
  split
  · rfl
  · simp [modTick_bearing t0.g (fun t => { t with revision := t0.revision + 1 }) s fun _ => rfl]

@[simp] theorem takeD1_bearing (s : State) : (takeD1 s).bearing = s.bearing := by
  unfold takeD1
  split <;> simp

@[simp] theorem takeD2_bearing (s : State) : (takeD2 s).bearing = s.bearing := by
  unfold takeD2
  split <;> simp

@[simp] theorem putRec_bearing (t : Tick) (s : State) (r : EmitRec) : (putRec t s r).bearing = s.bearing := by
  unfold putRec
  split <;> simp

@[simp] theorem putAligned_bearing (t : Tick) (s : State) (e : Nat × EpEntry) : (putAligned t s e).bearing = s.bearing := by
  unfold putAligned
  split <;> simp

@[simp] theorem writeRecs_bearing (s : State) : (writeRecs s).bearing = s.bearing := by
  unfold writeRecs
  split <;> simp

@[simp] theorem durations_bearing (c : Cur) (s : State) : (durations c s).2.bearing = s.bearing := rfl

@[simp] theorem startPhase_bearing (k : Nat) (s : State) : (startPhase k s).bearing = s.bearing := (modCur_bearing ..).trans rfl

@[simp] theorem startSolve_bearing (c : Cur) (s : State) : (startSolve c s).bearing = s.bearing := by
  simp [startSolve, modTick_bearing c.g (fun t => { t with commitDone := true }) s fun _ => rfl]

@[simp] theorem readyDefer_bearing (k : Nat) (g : Nat) (seq : Nat) (s : State) : (readyDefer k g seq s).bearing = s.bearing := by simp [readyDefer]

@[simp] theorem deferUpdate_bearing (t : Tick) (k : Nat) (s : State) : (deferUpdate t k s).bearing = s.bearing := by
  simp only [deferUpdate]
  repeat' split
  all_goals simp

@[simp] theorem carryDue_bearing (g k : Nat) (s : State) : (carryDue g k s).bearing = s.bearing := by simp [carryDue]

@[simp] theorem startAnalyze_bearing (c : Cur) (s : State) : (startAnalyze c s).bearing = s.bearing := by simp [startAnalyze]

@[simp] theorem moveToSlack_bearing (c : Cur) (s : State) : (moveToSlack c s).bearing = s.bearing := by
  unfold moveToSlack
  extract_lets mine tkx u v
  refine (modCur_bearing _ v).trans ((foldl_bearing _ mine u fun x t => ?_).trans rfl)
  split
  · split
    · simp
    · exact shedPortFrames_bearing ..
  · rfl

@[simp] theorem startEmit_bearing (c : Cur) (s : State) : (startEmit c s).bearing = s.bearing := by simp [startEmit]

theorem inCur_bearing (e : TEntry) (f : Cur → Tick → State → State) (s : State) (h : ∀ c t, (f c t s).bearing = s.bearing) :
    (inCur e f s).bearing = s.bearing := by
  unfold inCur
  split
  · split
    · exact h _ _
    · rfl
  · rfl

@[simp] theorem feedPort_bearing (e : TEntry) (s : State) : (feedPort e s).bearing = s.bearing := by
  unfold feedPort
  split
  · exact inCur_bearing _ _ _ fun _ _ => emitPortFrames_bearing ..
  · exact unshed_bearing ..
  · rfl

@[simp] theorem againResolve_bearing (e : TEntry) (t : Tick) (s : State) : (againResolve e t s).bearing = s.bearing := by simp [againResolve]

@[simp] theorem carryLeft_bearing (c : Cur) (s : State) : (carryLeft c s).bearing = s.bearing := by simp [carryLeft]

/-! The engines of a module that is not paired -/

theorem pairSt_of_bearing {s t : State} (h : t.bearing = s.bearing) : t.pair.st = s.pair.st := (congrArg Bearing.pairSt h :)

theorem identDigest_unpaired {s : State} (h : s.pair.st = .unpaired) (k : Nat) (us : List Unit512) : identDigest k us s = s := by
  have hcomparing : comparing s = false := by simp [comparing, h]
  unfold identDigest
  rw [hcomparing]
  rfl

theorem osmDigests_unpaired {s : State} (h : s.pair.st = .unpaired) (k : Nat) (l : List (Nat × List Unit512)) : osmDigests k l s = s := by
  unfold osmDigests
  generalize l.filter (fun e => e.1 = 0x40) = m
  induction m with
  | nil => rfl
  | cons e m ih => rw [List.foldl_cons, identDigest_unpaired h, ih]

theorem osmWork_bearing {s : State} (h : s.pair.st = .unpaired) (t : Tick) (k : Nat) : (osmWork t k s).1.bearing = s.bearing := by
  unfold osmWork
  split
  · rfl
  next e _ =>
    have hset := updateSet_bearing k (osmInputs s e t.g t.seq) 0 s
    exact (congrArg State.bearing (osmDigests_unpaired ((pairSt_of_bearing hset).trans h) k _)).trans hset

theorem osmDeferWork_bearing {s : State} (h : s.pair.st = .unpaired) (k : Nat) : (osmDeferWork k s).bearing = s.bearing := by
  unfold osmDeferWork
  split
  · split
    · rfl
    · exact locationTick_bearing ..
  · split
    · rfl
    · split
      · rfl
      next e _ _ x q _ =>
        have hr : (updateSet k x markDeferred (putSet k { e with queue := q } s)).1.bearing = s.bearing := (updateSet_bearing ..).trans (putSet_bearing ..)
        generalize updateSet k x markDeferred (putSet k { e with queue := q } s) = r at hr ⊢
        have hwritten : (writeNow (pastTick x.g x.seq r.1) (osmEmit r.2 r.1) (osmDigests k r.2 r.1)).bearing = s.bearing := by
          rw [writeNow_bearing, osmDigests_unpaired ((pairSt_of_bearing hr).trans h)]
          exact hr
        show (if !(r.2.any fun e => e.1 = 0x40) then _ else _ : State).bearing = _
        split
        · exact hwritten
        · exact hwritten

/-- A task that ends does its work within what `Bearing` leaves open. -/
theorem effect_bearing {s : State} (h : s.pair.st = .unpaired) (e : TEntry) : (effect e s).bearing = s.bearing := by
  unfold effect
  split
  · exact inCur_bearing _ _ _ fun _ _ => by simp
  · exact inCur_bearing _ _ _ fun _ _ => by simp
  · exact inCur_bearing _ _ _ fun _ _ => by simp
  · refine inCur_bearing _ _ _ fun _ _ => ?_
    split <;> simp
  · exact inCur_bearing _ _ _ fun _ t => (modCur_bearing ..).trans (osmWork_bearing h ..)
  · exact inCur_bearing _ _ _ fun _ _ => by simp
  · exact inCur_bearing _ _ _ fun _ _ => by simp
  · simp
  · simp
  · split
    · extract_lets u
      have hu : u.bearing = s.bearing := readyAll_bearing ..
      split
      · exact (setEntries_bearing ..).trans hu
      · exact hu
    · rfl
  · split
    · simp
    · rfl
  next k _ =>
    extract_lets u
    have hu : u.bearing = s.bearing := osmDeferWork_bearing h k
    split
    · exact (readyDefer_bearing ..).trans hu
    · exact hu
  · exact geAggNext_bearing s
  · rfl

theorem releaseN_bearing {s : State} (h : s.pair.st = .unpaired) (k : Nat) : (releaseN k s).bearing = s.bearing := by
  induction k generalizing s with
  | zero => rfl
  | succ k ih =>
    unfold releaseN
    split
    · rfl
    next n t result _ =>
      have hrelease := releaseEntry_bearing n t s
      have hone : (if result then effect t (releaseEntry n t s) else releaseEntry n t s).bearing = s.bearing := by
        split
        · exact (effect_bearing ((pairSt_of_bearing hrelease).trans h) t).trans hrelease
        · exact hrelease
      exact (ih ((pairSt_of_bearing hone).trans h)).trans hone

theorem releaseAll_bearing {s : State} (h : s.pair.st = .unpaired) : (releaseAll s).bearing = s.bearing := releaseN_bearing h _

theorem writeHeader_bearing {s : State} (h : s.pair.st = .unpaired) (done : Nat) : (writeHeader done s).bearing = s.bearing := by
  unfold writeHeader
  split
  · rfl
  next c _ =>
    have hr : (if c.durs.length = 4 then (c.durs.map (satN 16), s) else durations c s).2.bearing = s.bearing := by
      split
      · rfl
      · exact durations_bearing ..
    extract_lets t
    generalize (if c.durs.length = 4 then (c.durs.map (satN 16), s) else durations c s) = r at hr ⊢
    have hv : ∀ us : List Unit512, (c.rings.foldl (fun s n => handRec n 1 us (some c.at_) (some c.seq) s) r.2).bearing = s.bearing :=
      fun _ => (foldl_bearing _ _ _ fun _ _ => handRec_bearing ..).trans hr
    dsimp only
    rw [if_pos ((pairSt_of_bearing (hv _)).trans h)]
    exact hv _

/-! The phases of a tick (R51, R52) -/

/-- A bearing but for whether a tick is in progress. -/
def Bearing.adrift (b : Bearing) : Bearing := { b with idle := true }

theorem pairSt_of_adrift {s t : State} (h : t.bearing.adrift = s.bearing.adrift) : t.pair.st = s.pair.st := (congrArg Bearing.pairSt h :)

theorem sys_of_adrift {s t : State} (h : t.bearing.adrift = s.bearing.adrift) : t.sys = s.sys := (congrArg Bearing.sys h :)

theorem adrift_of_bearing {s t : State} (h : t.bearing = s.bearing) : t.bearing.adrift = s.bearing.adrift := congrArg Bearing.adrift h

theorem noCur_adrift (s : State) (n : Nat) : { s with tkx := { s.tkx with cur := none, phase := n } }.bearing.adrift = s.bearing.adrift := rfl

theorem dropCur_adrift (s : State) : (dropCur s).bearing.adrift = s.bearing.adrift := by
  unfold dropCur
  split
  · rfl
  · exact (adrift_of_bearing (releaseTick_bearing ..)).trans (noCur_adrift ..)

theorem finishEmit_adrift {s : State} (h : s.pair.st = .unpaired) : (finishEmit s).bearing.adrift = s.bearing.adrift := by
  unfold finishEmit
  split
  · rfl
  next c _ =>
    extract_lets u
    have hu : u.bearing = s.bearing := by
      show (if s.pair.st = .syncing || c.doneRings then s else modCur (fun c => { c with doneRings := true }) (writeRecs s)).bearing = _
      split
      · rfl
      · simp
    split
    · exact adrift_of_bearing hu
    · exact (dropCur_adrift _).trans (adrift_of_bearing ((writeHeader_bearing ((pairSt_of_bearing hu).trans h) _).trans hu))

theorem endPhase_adrift {s : State} (h : s.pair.st = .unpaired) (c : Cur) : (endPhase c s).bearing.adrift = s.bearing.adrift := by
  unfold endPhase
  extract_lets us limit u v
  have hu : u.bearing = s.bearing := by
    show (if limit < s.tbu.free then phaseLate none c.phase (s.tbu.free - limit) c.seq s else s).bearing = _
    split
    · exact phaseLate_bearing ..
    · rfl
  have hv : v.bearing = s.bearing := (modCur_bearing ..).trans ((phaseMax_bearing ..).trans hu)
  split
  · exact adrift_of_bearing ((startSolve_bearing ..).trans hv)
  · exact adrift_of_bearing ((startAnalyze_bearing ..).trans hv)
  · exact adrift_of_bearing ((startEmit_bearing ..).trans hv)
  · exact (finishEmit_adrift ((pairSt_of_bearing hv).trans h)).trans (adrift_of_bearing hv)

theorem settleStep_adrift {s : State} (h : s.pair.st = .unpaired) : (settleStep s).bearing.adrift = s.bearing.adrift := by
  unfold settleStep
  split
  · rfl
  · split
    · exact adrift_of_bearing (takeD1_bearing s)
    · split
      · rfl
      · exact endPhase_adrift h _

theorem settleN_adrift {s : State} (h : s.pair.st = .unpaired) (k : Nat) : (settleN k s).bearing.adrift = s.bearing.adrift := by
  induction k generalizing s with
  | zero => rfl
  | succ k ih =>
    have hone := settleStep_adrift h
    exact (ih ((pairSt_of_adrift hone).trans h)).trans hone

theorem maintWhenIdle_of_none {s : State} (h : s.sys.maintPend = none) : maintWhenIdle s = s := by
  unfold maintWhenIdle
  split
  · rw [enterMaint, h]
  · rfl

/-- Settling moves the tick in progress on and nothing that `Bearing` names. -/
theorem settle_adrift {s : State} (h : s.pair.st = .unpaired) (hpend : s.sys.maintPend = none) : (settle s).bearing.adrift = s.bearing.adrift := by
  have hrelease := releaseAll_bearing h
  have hsteps := (settleN_adrift ((pairSt_of_bearing hrelease).trans h) 8).trans (adrift_of_bearing hrelease)
  have hidle : (settleN 8 (releaseAll s)).sys.maintPend = none := by rwa [sys_of_adrift hsteps]
  rw [settle, maintWhenIdle_of_none hidle]
  exact (adrift_of_bearing (marksDue_bearing _)).trans hsteps

end Sys2Proof.Machine
end

section
/-! SUPPORT. The commit of a tick, and the overrun that it may find (R38, R40, R42, R56, R199, R201, R202). -/

namespace Sys2Proof.Machine

/-! The commit of a tick (R40, R42, R199, R201) -/

theorem find_insertTick (t : Tick) (l : List Tick) : (insertTick t l).find? (fun x => x.g = t.g) = some t := by
  induction l with
  | nil => simp [insertTick]
  | cons u l ih =>
    unfold insertTick
    split
    · simp
    · split
      · simp
      next hlt hne =>
        have hug : u.g ≠ t.g := fun h => hne h.symm
        rw [List.find?_cons_of_neg (by simpa using hug), ih]

theorem specsOf_insertTick {t : Tick} (h : t.st = .spec) (l : List Tick) : specsOf (insertTick t l) t.g = some t.sketch := by
  rw [specsOf_eq, find_insertTick]
  simp [h]

theorem openTick_g (g : Nat) (s : State) : (openTick g s).g = g := by
  unfold openTick tickOf
  cases h : s.aln.ticks.find? fun t => t.g = g with
  | none => rfl
  | some t => simpa using List.find?_some h

/-- The bearing of a module that commits tick `g` at `at_`, its SPECULATIVE ticks then being `specs`. -/
def Bearing.committed (b : Bearing) (g : Nat) (specs : Nat → Option Sketch) : Bearing :=
  { b with next := g + 1, specs := specs, lastSeq := some b.nextSeq, nextSeq := (b.nextSeq + 1) % 2 ^ 32
           notBefore := b.tbu.free + b.sys.dp * fr, shedLevels := 0, idle := true }

/-- A tick as its commit freezes it: `s` is the module at the commit. -/
def frozen (g seq : Nat) (s : State) : Sketch :=
  ⟨g, .spec, seq, (openTick g s).eps, (openTick g s).eps, s.tbu.suspect, s.tbu.epoch, ts32 s⟩

theorem bindTick_bearing (snap : Option (List Bool)) (s : State) : (bindTick snap s).2.bearing = s.bearing := by
  unfold bindTick
  split <;> simp

theorem freezeView_bearing (g seq cause : Nat) (eps : List (Nat × EpVal)) (s : State) :
    (freezeView g seq cause eps s).bearing = { s.bearing with next := g + 1, specs := specsOf (freezeView g seq cause eps s).aln.ticks } := rfl

theorem freezeView_specs {g : Nat} {s : State} (h : max s.aln.front (frontNow s) < g + s.aln.horizon) (seq cause : Nat) (eps : List (Nat × EpVal)) :
    specsOf (freezeView g seq cause eps s).aln.ticks g = some ⟨g, .spec, seq, eps, eps, s.tbu.suspect, s.tbu.epoch, ts32 s⟩ := by
  unfold freezeView
  extract_lets u t0 fin t lat
  have hfin : fin = false := decide_eq_false (Nat.not_le.mpr h)
  have hg : t.g = g := openTick_g g u
  have hst : t.st = .spec := congrArg (fun b : Bool => if b then TickSt.final else TickSt.spec) hfin
  have hput := specsOf_insertTick hst u.aln.ticks
  rw [hg] at hput
  refine hput.trans ?_
  rw [Tick.sketch, hg, hst]
  rfl

/-- A state without its Limit Solver, the intake and the output. -/
def State.astern (s : State) : State := { s.core with lse := Lse.reset }

theorem astern_of_core {s t : State} (h : t.core = s.core) : t.astern = s.astern :=
  show t.core.astern = s.core.astern from congrArg State.astern h

theorem lseEvent_astern (k : Nat) (s : State) : (lseEvent k s).astern = s.astern := by
  unfold lseEvent
  extract_lets up lse t
  split
  · exact (astern_of_core (raiseBlock_core 7 t)).trans rfl
  · rfl

theorem lseCnt_astern (k n : Nat) (s : State) : (lseCnt k n s).astern = s.astern := rfl

theorem bindTick_astern (snap : Option (List Bool)) (s : State) : (bindTick snap s).2.astern = s.astern := by
  unfold bindTick
  split
  · rfl
  · simp [apply_ite State.astern, lseEvent_astern, lseCnt_astern]

theorem parts_of_astern {s t : State} (h : t.astern = s.astern) : t.aln = s.aln ∧ t.tbu = s.tbu ∧ t.sys = s.sys :=
  ⟨(congrArg State.aln h :), (congrArg State.tbu h :), (congrArg State.sys h :)⟩

theorem frontNow_congr {s t : State} (haln : t.aln = s.aln) (htbu : t.tbu = s.tbu) (hsys : t.sys = s.sys) : frontNow t = frontNow s := by
  rw [frontNow, frontNow, discTime_of_tbu htbu, frate, frate, skewTol, skewTol, haln, hsys]

theorem ts32_of_tbu {s t : State} (h : t.tbu = s.tbu) : ts32 t = ts32 s := by rw [ts32, ts32, discTime_of_tbu h]

/-- What freezing a tick takes of the state, and what it leaves. -/
structure Froze (g seq : Nat) (s t : State) : Prop where
  bearing : t.bearing.adrift = s.bearing.committed g (specsOf t.aln.ticks)
  specs   : max s.aln.front (frontNow s) < g + s.aln.horizon → specsOf t.aln.ticks g = some (frozen g seq s)

/-- The commit's last steps: its trace, the Helm's numbers, the checkpoint. -/
def noteCommit (g seq cause : Nat) (skip : Bool) (s : State) : State :=
  let u := traceTick .commit cause seq 1 (phaseMax 0 s.aln.commitLat s)
  noteQuorum (newCkpt { u with
    tkx := { u.tkx with
      lastSeq := some seq, nextSeq := (seq + 1) % 2 ^ 32, notBefore := u.tbu.free + u.sys.dp * fr, shedLevels := 0, phase := 1
      cur := if worksLive u then some (newCur g seq skip u) else none }
    dfc := { u.dfc with outs := [], edges := [] }
    aln := { u.aln with quorumAt := none } })

theorem freezeTick_eq (g cause : Nat) (skip : Bool) (s : State) : ∃ b out,
    freezeTick g cause none skip s = noteCommit g s.tkx.nextSeq cause skip (countCause cause (modTick g (fun t => { t with bind := b, outZones := out })
      (freezeView g s.tkx.nextSeq cause (openTick g s).eps (bindTick none s).2))) := by
  refine ⟨?b, ?out, ?_⟩
  rotate_left 2
  · simp only [freezeTick, noteCommit, Option.map_none, List.filter_true]
    rfl

/-- The bearing of a module whose Helm has taken the number `seq`. -/
def Bearing.numbered (b : Bearing) (seq : Nat) : Bearing :=
  { b with lastSeq := some seq, nextSeq := (seq + 1) % 2 ^ 32, notBefore := b.tbu.free + b.sys.dp * fr, shedLevels := 0, idle := true }

theorem numbered_helm (s : State) (seq n : Nat) (c : Option Cur) (f : Dfc) (q : Option Nat) :
    { s with
      tkx := { s.tkx with
        lastSeq := some seq, nextSeq := (seq + 1) % 2 ^ 32, notBefore := s.tbu.free + s.sys.dp * fr, shedLevels := 0, phase := n, cur := c }
      dfc := f, aln := { s.aln with quorumAt := q } }.bearing.adrift = s.bearing.numbered seq := rfl

theorem newCkpt_bearing (s : State) : (newCkpt s).bearing = s.bearing := rfl

theorem noteCommit_adrift (g seq cause : Nat) (skip : Bool) (s : State) : (noteCommit g seq cause skip s).bearing.adrift = s.bearing.numbered seq := by
  unfold noteCommit
  extract_lets u tkx
  have hu : u.bearing = s.bearing := (traceTick_bearing ..).trans (phaseMax_bearing ..)
  refine (adrift_of_bearing ((noteQuorum_bearing _).trans (newCkpt_bearing _))).trans ((numbered_helm u seq 1 _ _ none).trans ?_)
  rw [hu]

theorem freezeTick_froze (g cause : Nat) (skip : Bool) (s : State) : Froze g s.tkx.nextSeq s (freezeTick g cause none skip s) := by
  obtain ⟨b, out, heq⟩ := freezeTick_eq g cause skip s
  rw [heq]
  have hbind := bindTick_bearing none s
  obtain ⟨haln, htbu, hsys⟩ := parts_of_astern (bindTick_astern none s)
  generalize (bindTick none s).2 = r at hbind haln htbu hsys ⊢
  have hview := freezeView_bearing g s.tkx.nextSeq cause (openTick g s).eps r
  have hspecs := fun h => freezeView_specs (g := g) (s := r) h s.tkx.nextSeq cause (openTick g s).eps
  generalize freezeView g s.tkx.nextSeq cause (openTick g s).eps r = v at hview hspecs ⊢
  have hmarked : (countCause cause (modTick g (fun t => { t with bind := b, outZones := out }) v)).bearing = v.bearing :=
    (countCause_bearing ..).trans (modTick_bearing _ _ v fun _ => rfl)
  generalize countCause cause (modTick g (fun t => { t with bind := b, outZones := out }) v) = w at hmarked ⊢
  have hdone := noteCommit_adrift g s.tkx.nextSeq cause skip w
  generalize noteCommit g s.tkx.nextSeq cause skip w = t at hdone ⊢
  have hticks : specsOf t.aln.ticks = specsOf v.aln.ticks := (congrArg Bearing.specs hdone :).trans (congrArg Bearing.specs hmarked :)
  constructor
  · rw [hdone, hmarked, hview, hbind, hticks]
    rfl
  · intro h
    rw [hticks, hspecs (by rwa [frontNow_congr haln htbu hsys, haln]), ts32_of_tbu htbu, htbu]
    rfl

/-! The work that a commit begins -/

/-- The first tasks of a tick that is worked on, or the release of those that only wait. -/
def beginWork (g seq : Nat) (s : State) : State := if s.tkx.cur.isSome then readyAll isDfc g seq s else freeSilent g s

theorem freeSilent_bearing (g : Nat) (s : State) : (freeSilent g s).bearing = s.bearing :=
  foldl_bearing _ _ _ fun u _ => (releaseTick_bearing ..).trans (modTick_bearing _ _ u fun _ => rfl)

theorem beginWork_bearing (g seq : Nat) (s : State) : (beginWork g seq s).bearing = s.bearing := by
  unfold beginWork
  split
  · exact readyAll_bearing ..
  · exact freeSilent_bearing ..

/-- A module of its own with no scheduled command. -/
structure Alone (s : State) : Prop where
  pairSt   : s.pair.st = .unpaired
  sched    : s.hif.sched = []
  switchAt : s.pair.switchAt = none

theorem Froze.alone {g seq : Nat} {s t : State} (h : Froze g seq s t) (hs : Alone s) : Alone t :=
  ⟨(congrArg Bearing.pairSt h.bearing :).trans hs.pairSt, (congrArg Bearing.sched h.bearing :).trans hs.sched,
    (congrArg Bearing.switchAt h.bearing :).trans hs.switchAt⟩

theorem takeDue_none {s : State} (h : s.hif.sched = []) (g : Nat) : (takeDue g s).1 = [] ∧ (takeDue g s).2.bearing = s.bearing := by
  constructor
  · show dueSched s g = []
    rw [dueSched, h]
    rfl
  · have hnone : s.hif.sched.filter (fun c => !(decide (dueTick s g c ≤ g))) = s.hif.sched := by rw [h, List.filter_nil]
    rw [takeDue, bearing_mk, hnone]
    rfl

theorem pairCommit_unpaired {s : State} (h : s.pair.st = .unpaired) (g seq cause : Nat) : pairCommit g seq cause s = s := by
  have hpair : inPair s = false := decide_eq_false (not_not_intro h)
  unfold pairCommit
  rw [hpair, Bool.and_false]
  rfl

theorem dropSwitch_none {s : State} (h : s.pair.switchAt = none) (seq : Nat) : dropSwitch seq s = s := by rw [dropSwitch, h]

/-- A commit with nothing scheduled, once the tick in progress has ended. -/
theorem commitTick_eq {s o : State} (ho : overrun s = o) (hrun : o.sys.runState = .run) (cause : Nat) (missing : Bool)
    (hf : Alone (freezeTick o.aln.next cause none (missing || recovering o) o)) :
    commitTick cause none missing s = settle (beginWork o.aln.next o.tkx.nextSeq
      (takeDue o.aln.next (freezeTick o.aln.next cause none (missing || recovering o) o)).2) := by
  obtain ⟨hdue, hbearing⟩ := takeDue_none hf.sched o.aln.next
  have hst := (pairSt_of_bearing hbearing).trans hf.pairSt
  have hswitch : (takeDue o.aln.next (freezeTick o.aln.next cause none (missing || recovering o) o)).2.pair.switchAt = none :=
    (congrArg Bearing.switchAt hbearing :).trans hf.switchAt
  simp only [commitTick, ho, hrun, ne_eq, not_true, if_false, hdue, List.filter_nil, List.foldl_nil, dropSwitch_none hswitch,
    pairCommit_unpaired hst, hswitch, beginWork]

theorem commitTick_stops {s o : State} (ho : overrun s = o) (hrun : o.sys.runState ≠ .run) (cause : Nat) (mark : Option CommitMark) (missing : Bool) :
    commitTick cause mark missing s = o := by
  simp only [commitTick, ho]
  exact if_pos hrun

/-- A commit of the oldest uncommitted tick by the module's own rules. -/
theorem commitTick_froze {s o : State} (ho : overrun s = o) (hrun : o.sys.runState = .run) (halone : Alone o) (hpend : o.sys.maintPend = none)
    (cause : Nat) (missing : Bool) : Froze o.aln.next o.tkx.nextSeq o (commitTick cause none missing s) := by
  have hf := freezeTick_froze o.aln.next cause (missing || recovering o) o
  have hfalone := hf.alone halone
  rw [commitTick_eq ho hrun cause missing hfalone]
  obtain ⟨-, hdue⟩ := takeDue_none hfalone.sched o.aln.next
  generalize freezeTick o.aln.next cause none (missing || recovering o) o = f at hf hfalone hdue ⊢
  have hwork := (beginWork_bearing o.aln.next o.tkx.nextSeq (takeDue o.aln.next f).2).trans hdue
  generalize beginWork o.aln.next o.tkx.nextSeq (takeDue o.aln.next f).2 = w at hwork ⊢
  have hsys : w.sys = o.sys := (congrArg Bearing.sys hwork :).trans (congrArg Bearing.sys hf.bearing :)
  have hsettled := settle_adrift ((pairSt_of_bearing hwork).trans hfalone.pairSt) (hsys ▸ hpend)
  generalize settle w = t at hsettled ⊢
  have hall := hsettled.trans (adrift_of_bearing hwork)
  have hspecs : specsOf t.aln.ticks = specsOf f.aln.ticks := (congrArg Bearing.specs hall :)
  constructor
  · rw [hall, hf.bearing, hspecs]
  · intro h
    rw [hspecs]
    exact hf.specs h

theorem runSkips_none {s : State} (h : s.aln.skips = []) : runSkips s = s := by
  rw [runSkips, h]
  rfl

/-- What a commit of tick `g` says of the Helm. -/
structure Took (s t : State) : Prop where
  lastSeq    : t.tkx.lastSeq = some s.tkx.nextSeq
  nextSeq    : t.tkx.nextSeq = (s.tkx.nextSeq + 1) % 2 ^ 32
  next       : t.aln.next = s.aln.next + 1
  notBefore  : t.tkx.notBefore = s.tbu.free + s.sys.dp * fr
  shedLevels : t.tkx.shedLevels = 0

theorem Froze.took {s t : State} (h : Froze s.aln.next s.tkx.nextSeq s t) : Took s t :=
  ⟨(congrArg Bearing.lastSeq h.bearing :), (congrArg Bearing.nextSeq h.bearing :), (congrArg Bearing.next h.bearing :),
    (congrArg Bearing.notBefore h.bearing :), (congrArg Bearing.shedLevels h.bearing :)⟩

/-- The tick that a sketch of the window's shows. -/
theorem tick_of_specs {s : State} {g : Nat} {x : Sketch} (h : specsOf s.aln.ticks g = some x) : ∃ t, tickOf s g = some t ∧ t.sketch = x := by
  rw [specsOf_eq, Option.filter_eq_some_iff, Option.map_eq_some_iff] at h
  exact h.1

/-! A tick overrun (R56, R202) -/

theorem bearing_of_quiet {s t : State} (h : t.quiet = s.quiet) (hs : t.hif.sched = s.hif.sched) : t.bearing = s.bearing :=
  show { t.quiet.bearing with sched := t.hif.sched } = { s.quiet.bearing with sched := s.hif.sched } by rw [h, hs]

theorem overrunCnt_of_hulk {s t : State} (h : t.hulk = s.hulk) : t.tkx.overrunCnt = s.tkx.overrunCnt := (congrArg (fun u : State => u.tkx.overrunCnt) h :)

theorem skips_of_hulk {s t : State} (h : t.hulk = s.hulk) : t.aln.skips = s.aln.skips := (congrArg (fun u : State => u.aln.skips) h :)

theorem pairSt_of_hulk {s t : State} (h : t.hulk = s.hulk) : t.pair.st = s.pair.st := (congrArg (fun u : State => u.pair.st) h :)

/-- The fault of an overrun: the module goes on, or it ends in SAFE. -/
theorem overrunFault_marked (s : State) :
    let t := raiseFault (FaultIn.plain 0x07 10) s
    t.bearing = s.bearing ∨ (t.sys.runState = .safe ∧ t.hulk = s.hulk) :=
  (raiseFault_marked (by decide) (fun _ => rfl) rfl s).imp_left fun h => bearing_of_quiet h.1 h.2

/-- The decisions and the work of the tick in progress `c0` are cut short. -/
def cutWork (c0 : Cur) (s : State) : State := takeD2 (takeD1 (modTick c0.g (fun t => { t with incomplete := true }) s))

/-- What the tick `c` has left is cancelled. -/
def cutLeft (c : Cur) (s : State) : State :=
  let u := releaseAll (cancelWhere (fun t => t.g = c.g && decide (t.work.phase < 5)) 3 (carryLeft c s))
  let v := if c.phase = 1 then modCur (fun d => { d with recs := d.recs ++ dfcRecs (curTick u c) u }) u else u
  modTick c.g (fun t => { t with commitDone := true }) (modCur (fun d => { d with incomplete := true }) v)

/-- The overrun of tick `c` is counted. -/
def countOverrun (c : Cur) (s : State) : State :=
  { s with
    tkx := { s.tkx with overrunCnt := satAdd s.tkx.overrunCnt 1 }, lse := { s.lse with work := none }
    pair := { s.pair with toMark := if portsDone s c || c.framesHeld then s.pair.toMark else s.pair.toMark.filter fun m => m.2 ≠ c.seq } }

/-- The overrun of tick `c` is noted. -/
def noteOverrun (done : Nat) (c : Cur) (s : State) : State :=
  logEv 0x21 10 2 (argOf [(256, 32, c.seq), (250, 6, done)]) (tkxEvent 2 (traceTick .overrun done c.seq c.phase (countOverrun c s)))

/-- The tick is written with what it has, and ends. -/
def endOverrun (done : Nat) (s : State) : State := dropCur (writeHeader done (if s.pair.st = .syncing then s else writeRecs s))

theorem overrun_eq {s : State} {c0 c c' : Cur} (h0 : s.tkx.cur = some c0) (h1 : (cutWork c0 s).tkx.cur = some c)
    (h2 : (cutLeft c (cutWork c0 s)).tkx.cur = some c') :
    overrun s = endOverrun (enginesDone (cutLeft c (cutWork c0 s)) c')
      (raiseFault (FaultIn.plain 0x07 10) (noteOverrun (enginesDone (cutLeft c (cutWork c0 s)) c') c' (cutLeft c (cutWork c0 s)))) := by
  simp only [cutWork] at h1
  simp only [cutWork, cutLeft] at h2
  simp only [overrun, h0, h1, h2, cutWork, cutLeft, noteOverrun, countOverrun, endOverrun]
  rfl

theorem cutWork_bearing (c0 : Cur) (s : State) : (cutWork c0 s).bearing = s.bearing :=
  (takeD2_bearing _).trans ((takeD1_bearing _).trans (modTick_bearing _ _ s fun _ => rfl))

theorem cutLeft_bearing {s : State} (h : s.pair.st = .unpaired) (c : Cur) : (cutLeft c s).bearing = s.bearing := by
  unfold cutLeft
  extract_lets u v
  have hcancel := (cancelWhere_bearing (fun t => t.g = c.g && decide (t.work.phase < 5)) 3 (carryLeft c s)).trans (carryLeft_bearing c s)
  have hu : u.bearing = s.bearing := (releaseAll_bearing ((pairSt_of_bearing hcancel).trans h)).trans hcancel
  have hv : v.bearing = s.bearing := by
    show (if c.phase = 1 then modCur (fun d => { d with recs := d.recs ++ dfcRecs (curTick u c) u }) u else u).bearing = _
    split
    · exact (modCur_bearing ..).trans hu
    · exact hu
  refine (modTick_bearing _ _ _ fun _ => ?_).trans ((modCur_bearing _ v).trans hv)
  rfl

theorem countOverrun_bearing (c : Cur) (s : State) : (countOverrun c s).bearing = { s.bearing with overrunCnt := satAdd s.tkx.overrunCnt 1 } := rfl

theorem noteOverrun_bearing (done : Nat) (c : Cur) (s : State) :
    (noteOverrun done c s).bearing = { s.bearing with overrunCnt := satAdd s.tkx.overrunCnt 1 } :=
  (logEv_bearing ..).trans ((tkxEvent_bearing ..).trans ((traceTick_bearing ..).trans (countOverrun_bearing c s)))

theorem endOverrun_adrift {s : State} (h : s.pair.st = .unpaired) (done : Nat) : (endOverrun done s).bearing.adrift = s.bearing.adrift := by
  have hrecs : (if s.pair.st = .syncing then s else writeRecs s).bearing = s.bearing := by
    split
    · rfl
    · exact writeRecs_bearing s
  exact (dropCur_adrift _).trans (adrift_of_bearing ((writeHeader_bearing ((pairSt_of_bearing hrecs).trans h) done).trans hrecs))

theorem cur_of_bearing {s t : State} {c : Cur} (h : t.bearing = s.bearing) (hs : s.tkx.cur = some c) : ∃ c', t.tkx.cur = some c' := by
  have hidle : t.tkx.cur.isNone = s.tkx.cur.isNone := (congrArg Bearing.idle h :)
  rw [hs] at hidle
  exact Option.ne_none_iff_exists'.mp fun h => by
    rw [h] at hidle
    cases hidle

/-- The tick in progress ends with its overrun counted; the module goes on, or it is in SAFE. -/
theorem overrun_counts {s : State} {c : Cur} (h : s.pair.st = .unpaired) (hcur : s.tkx.cur = some c) :
    let t := overrun s
    t.bearing.adrift = { s.bearing.adrift with overrunCnt := satAdd s.tkx.overrunCnt 1 } ∨
      (t.sys.runState = .safe ∧ t.tkx.overrunCnt = satAdd s.tkx.overrunCnt 1 ∧ t.aln.skips = s.aln.skips) := by
  have hcut := cutWork_bearing c s
  obtain ⟨c1, h1⟩ := cur_of_bearing hcut hcur
  have hleft := (cutLeft_bearing ((pairSt_of_bearing hcut).trans h) c1).trans hcut
  obtain ⟨c2, h2⟩ := cur_of_bearing hleft hcur
  rw [overrun_eq hcur h1 h2]
  generalize cutLeft c1 (cutWork c s) = u at hleft ⊢
  have hnote := noteOverrun_bearing (enginesDone u c2) c2 u
  generalize noteOverrun (enginesDone u c2) c2 u = v at hnote ⊢
  have hcnt : u.tkx.overrunCnt = s.tkx.overrunCnt := (congrArg Bearing.overrunCnt hleft :)
  rw [hleft, hcnt] at hnote
  have hv : v.pair.st = .unpaired := (congrArg Bearing.pairSt hnote :).trans h
  rcases overrunFault_marked v with hquiet | ⟨hsafe, hhulk⟩
  · left
    have hend := endOverrun_adrift ((pairSt_of_bearing hquiet).trans hv) (enginesDone u c2)
    rw [hend, hquiet, hnote]
    rfl
  · right
    have hend := endOverrun_adrift ((pairSt_of_hulk hhulk).trans hv) (enginesDone u c2)
    refine ⟨(congrArg Sys.runState (sys_of_adrift hend)).trans hsafe, ?_, ?_⟩
    · exact (congrArg Bearing.overrunCnt hend :).trans ((overrunCnt_of_hulk hhulk).trans (congrArg Bearing.overrunCnt hnote :))
    · exact (congrArg Bearing.skips hend :).trans ((skips_of_hulk hhulk).trans (congrArg Bearing.skips hnote :))

/-! TICK_COMMIT (R38, R40) -/

theorem exec_onRecovery {i : Instr} {dt : Nat} {s : State} {op : State → State} (hexec : exec i s = run dt (onRecovery op) s)
    (hready : (elapse dt s).sys.ready = true) : exec i s = .next (drainMirrored (settle (drainMarks (settle (op (elapse dt s)))))) := by
  rw [hexec, run, onRecovery, live, if_pos hready]

/-- The oldest uncommitted tick may commit. -/
def commitDue (s : State) : Prop := (readyQuorum s s.aln.next = true ∨ readyMax s s.aln.next = true) ∧ s.tkx.notBefore ≤ s.tbu.free

/-- A module that may commit by its own rules. -/
structure Commits (s : State) : Prop where
  run     : s.sys.runState = .run
  placing : s.aln.placing = true
  maint   : s.sys.maintPend = none
  skips   : s.aln.skips = []
  alone   : Alone s

theorem Commits.may {s : State} (h : Commits s) : (ticking (advanceFront s) && ownRules (advanceFront s)) = true := by
  have hticking : ticking (advanceFront s) = true := by
    show (decide (s.sys.runState = .run) && s.aln.placing && s.sys.maintPend.isNone) = true
    rw [h.run, h.placing, h.maint]
    rfl
  have hown : ownRules (advanceFront s) = true := by
    show (decide (s.pair.st ≠ .syncing) && decide (s.pair.st ≠ .standby)) = true
    rw [h.alone.pairSt]
    rfl
  rw [hticking, hown]
  rfl

theorem tickCommit_waits {s : State} (h : Commits s) (hdue : ¬ commitDue s) : tickCommit s = advanceFront s := by
  have hcheck : ¬ (ticking (advanceFront s) && ownRules (advanceFront s) && (readyQuorum s s.aln.next || readyMax s s.aln.next) &&
      decide (s.tkx.notBefore ≤ s.tbu.free)) = true := by
    rw [h.may]
    simpa [commitDue] using hdue
  exact if_neg hcheck

theorem tickCommit_commits {s : State} (h : Commits s) (hdue : commitDue s) :
    tickCommit s = runSkips (commitTick (causeOf (advanceFront s) s.aln.next) none false (advanceFront s)) := by
  have hcheck : (ticking (advanceFront s) && ownRules (advanceFront s) && (readyQuorum s s.aln.next || readyMax s s.aln.next) &&
      decide (s.tkx.notBefore ≤ s.tbu.free)) = true := by
    rw [h.may]
    simpa [commitDue] using hdue
  exact if_pos hcheck

/-- The module as it goes on to its commit: all but the count of overruns and the tick in progress is what it was. -/
structure GoesOn (s o : State) : Prop where
  bearing : o.bearing.adrift = { s.bearing.adrift with overrunCnt := o.tkx.overrunCnt }

theorem GoesOn.commits {s o : State} (h : GoesOn s o) (hs : Commits s) (cause : Nat) {u : State} (hu : overrun u = o) :
    let t := commitTick cause none false u
    Took s t ∧ Froze o.aln.next o.tkx.nextSeq o t ∧ t.aln.skips = [] := by
  have hsys : o.sys = s.sys := (congrArg Bearing.sys h.bearing :)
  have htbu : o.tbu = s.tbu := (congrArg Bearing.tbu h.bearing :)
  have hseq : o.tkx.nextSeq = s.tkx.nextSeq := (congrArg Bearing.nextSeq h.bearing :)
  have hnext : o.aln.next = s.aln.next := (congrArg Bearing.next h.bearing :)
  have halone : Alone o := ⟨(congrArg Bearing.pairSt h.bearing :).trans hs.alone.pairSt, (congrArg Bearing.sched h.bearing :).trans hs.alone.sched,
    (congrArg Bearing.switchAt h.bearing :).trans hs.alone.switchAt⟩
  have hfroze := commitTick_froze hu (hsys ▸ hs.run) halone (hsys ▸ hs.maint) cause false
  have hskips := (congrArg Bearing.skips hfroze.bearing :).trans ((congrArg Bearing.skips h.bearing :).trans hs.skips)
  obtain ⟨h1, h2, h3, h4, h5⟩ := hfroze.took
  rw [hseq] at h1 h2
  rw [hnext] at h3
  rw [hsys, htbu] at h4
  exact ⟨⟨h1, h2, h3, h4, h5⟩, hfroze, hskips⟩

theorem overrun_none {s : State} (h : s.tkx.cur = none) : overrun s = s := by rw [overrun, h]

theorem goesOn_advanceFront (s : State) : GoesOn s (advanceFront s) := ⟨rfl⟩

/-- A commit with no tick in progress. -/
theorem tickCommit_idle {s : State} (h : Commits s) (hdue : commitDue s) (hcur : s.tkx.cur = none) :
    Took s (tickCommit s) ∧ Froze s.aln.next s.tkx.nextSeq (advanceFront s) (tickCommit s) := by
  have hnone : overrun (advanceFront s) = advanceFront s := overrun_none hcur
  obtain ⟨htook, hfroze, hskips⟩ := (goesOn_advanceFront s).commits h (causeOf (advanceFront s) s.aln.next) hnone
  rw [tickCommit_commits h hdue, runSkips_none hskips]
  exact ⟨htook, hfroze⟩

/-- A commit that finds a tick in progress. -/
theorem tickCommit_overruns {s : State} (h : Commits s) (hdue : commitDue s) {c : Cur} (hcur : s.tkx.cur = some c) :
    (tickCommit s).tkx.overrunCnt = satAdd s.tkx.overrunCnt 1 ∧ (Took s (tickCommit s) ∨ (tickCommit s).sys.runState = .safe) := by
  rw [tickCommit_commits h hdue]
  have hcounts := overrun_counts (s := advanceFront s) h.alone.pairSt hcur
  generalize ho : overrun (advanceFront s) = o at hcounts
  rcases hcounts with hgoes | ⟨hsafe, hcnt, hskips⟩
  · have hcnt : o.tkx.overrunCnt = satAdd s.tkx.overrunCnt 1 := (congrArg Bearing.overrunCnt hgoes :)
    have hon : GoesOn s o := ⟨by rw [hgoes, hcnt]; rfl⟩
    obtain ⟨htook, hfroze, hnone⟩ := hon.commits h (causeOf (advanceFront s) s.aln.next) ho
    rw [runSkips_none hnone]
    exact ⟨(congrArg Bearing.overrunCnt hfroze.bearing :).trans hcnt, .inl htook⟩
  · have hstop : o.sys.runState ≠ .run := by rw [hsafe]; decide
    rw [commitTick_stops ho hstop, runSkips_none (hskips.trans h.skips)]
    exact ⟨hcnt, .inr hsafe⟩

/-- The tick that was frozen stands in the window. -/
theorem Froze.tick {g seq : Nat} {s t : State} (h : Froze g seq s t) (hfront : max s.aln.front (frontNow s) < g + s.aln.horizon) :
    ∃ x, tickOf t g = some x ∧ x.st = .spec ∧ x.seq = seq ∧ x.eps = (openTick g s).eps ∧ x.view = (openTick g s).eps ∧
      x.suspect = s.tbu.suspect ∧ x.epoch = s.tbu.epoch ∧ x.commitTs = ts32 s := by
  obtain ⟨x, htick, hsketch⟩ := tick_of_specs (h.specs hfront)
  exact ⟨x, htick, (congrArg Sketch.st hsketch :), (congrArg Sketch.seq hsketch :), (congrArg Sketch.eps hsketch :), (congrArg Sketch.view hsketch :),
    (congrArg Sketch.suspect hsketch :), (congrArg Sketch.epoch hsketch :), (congrArg Sketch.commitTs hsketch :)⟩

/-- Settles O46: a commit freezes its tick and takes its number, and settling leaves both alone; an overrun is counted first. -/
theorem tickCommitted : Obligations.TickCommitted := by
  unfold Obligations.TickCommitted
  intro dt s s0 hready hrun hplacing hmaint hpair hskips hsched hswitch g due took
  have hexec : exec (.tickCommit dt) s = run dt (onRecovery tickCommit) s := rfl
  have hcommits : Commits s0 := ⟨hrun, hplacing, hmaint, hskips, hpair, hsched, hswitch⟩
  have htook : ∀ {u : State}, Took s0 u → took u := fun h => ⟨h.lastSeq, h.nextSeq, h.next, h.notBefore, h.shedLevels⟩
  refine ⟨fun hnot => ⟨tickCommit s0, exec_onRecovery hexec hready, ?_⟩, fun hdue hcur => ⟨tickCommit s0, exec_onRecovery hexec hready, ?_⟩,
    fun c hdue hcur => ⟨tickCommit s0, exec_onRecovery hexec hready, ?_⟩⟩
  · rw [tickCommit_waits hcommits hnot]
    exact ⟨rfl, le_max_left ..⟩
  · obtain ⟨hgot, hfroze⟩ := tickCommit_idle hcommits hdue hcur
    have hbearing := hfroze.bearing
    refine ⟨htook hgot, (congrArg Bearing.overrunCnt hbearing :), (congrArg Bearing.ports hbearing :), (congrArg Bearing.slots hbearing :),
      congrArg Tbu.free (congrArg Bearing.tbu hbearing :), fun hfront => ?_⟩
    exact hfroze.tick (max_lt hfront ((le_max_right ..).trans_lt hfront))
  · obtain ⟨hcnt, hend⟩ := tickCommit_overruns hcommits hdue hcur
    exact ⟨hcnt, hend.imp_left htook⟩

end Sys2Proof.Machine
end

section
/-! SUPPORT. PAIR_SWITCHOVER, at once and scheduled (R68, R376, R507). -/

namespace Sys2Proof.Machine

theorem exec_pairSwitchover {d : Desc} {dt : Nat} {s : State} (h : CanRun .pairSwitchover d (elapse dt s)) :
    exec (.pairSwitchover dt d) s =
      .next (noteWaits (if d.sched then
          acceptSched (headCtx .pairSwitchover d (elapse dt s)) d complete .pairSwitchover (taken .pairSwitchover d (elapse dt s))
        else switchNow (headCtx .pairSwitchover d (elapse dt s)) (taken .pairSwitchover d (elapse dt s)))) := by
  have hexec : exec (.pairSwitchover dt d) s = .next (live (pairSwitchoverCmd d) (elapse dt s)) := rfl
  rw [hexec, live, if_pos h.1, pairSwitchoverCmd, plainDesc_of_canRun h]

theorem switchNow_kept {c : Ctx} {s : State} (hok : switchOk s = true) (hnone : s.pair.switchAt = none) :
    switchNow c s = { s with pair := { s.pair with switchAt := some (c, false) } } := by
  rw [switchNow, hok, hnone]
  rfl

theorem switchNow_refused {c : Ctx} {s : State} (h : switchOk s = false ∨ s.pair.switchAt ≠ none) : switchNow c s = complete c .state s := by
  have hnot : (switchOk s && s.pair.switchAt.isNone) = false := by
    rcases h with h | h
    · rw [h, Bool.false_and]
    · rw [Option.isNone_eq_false_iff.mpr (Option.isSome_iff_ne_none.mpr h), Bool.and_false]
  rw [switchNow, hnot]
  rfl

/-- A command as the frame-tick list holds it. -/
def pended (c : Ctx) (atNs : Nat) (late : Bool) (cmd : SchedCmd) : Sched := { ctx := { c with blocks := false }, atNs := atNs, late := late, cmd := cmd }

theorem acceptSched_pends {c : Ctx} {d : Desc} {fail : Ctx → Status → State → State} {cmd : SchedCmd} {s : State} (hroom : s.hif.sched.length < 256)
    (hpast : discTime s ≤ (((d.schedSec * 1000000000 + d.schedNs) * fr : Nat) : Int))
    (hday : (((d.schedSec * 1000000000 + d.schedNs) * fr : Nat) : Int) ≤ discTime s + dayFr) :
    acceptSched c d fail cmd s = pendSched c (d.schedSec * 1000000000 + d.schedNs) false cmd s := by
  have hlate : lateness s (d.schedSec * 1000000000 + d.schedNs) = discTime s - (((d.schedSec * 1000000000 + d.schedNs) * fr : Nat) : Int) := rfl
  rw [acceptSched, hlate, if_neg (by omega), if_neg (by omega), if_pos (by omega)]

theorem pendSched_rest (c : Ctx) (atNs : Nat) (late : Bool) (cmd : SchedCmd) (s : State) : (pendSched c atNs late cmd s).rest = s.rest :=
  mirror_rest ..

theorem pendSched_sched (c : Ctx) (atNs : Nat) (late : Bool) (cmd : SchedCmd) (s : State) :
    (pendSched c atNs late cmd s).hif.sched = s.hif.sched ++ [pended c atNs late cmd] := by
  rw [pendSched, mirror_hif]
  rfl

theorem pendSched_ring (c : Ctx) (atNs : Nat) (late : Bool) (cmd : SchedCmd) {s : State} (h : c.ring < s.hif.rings.length) :
    (ringOf (pendSched c atNs late cmd s) c.ring).blocked = false := by
  have hrings : (pendSched c atNs late cmd s).hif.rings = (modRing c.ring (fun r => { r with blocked := false }) s).hif.rings := by
    rw [pendSched, mirror_hif]
  rw [ringOf_congr hrings, ringOf_modRing_same h]

/-- Settles O23: the command runs in the state of intake, which shares all but the host interface with the state before it. -/
theorem switchoverAndScheduled : Obligations.SwitchoverAndScheduled := by
  unfold Obligations.SwitchoverAndScheduled
  intro dt d s s0 h
  have hexec := exec_pairSwitchover h
  refine ⟨fun hsched hok hnone => ?_, fun hsched hrefused => ?_, fun hsched hroom hpast hday => ?_⟩
  · rw [if_neg (by simp [hsched]), switchNow_kept (s := taken .pairSwitchover d s0) hok hnone] at hexec
    exact ⟨_, _, hexec, (rest_ext (noteWaits_rest _)).trans rfl, rfl, rfl⟩
  · rw [if_neg (by simp [hsched]), switchNow_refused (s := taken .pairSwitchover d s0) hrefused] at hexec
    exact ⟨_, hexec, onlyHost_of_rest ((noteWaits_rest _).trans (complete_rest ..)),
      noteWaits_completes (completeWith_completes_of_rings h rfl (busOn_taken ..) _ _ _ _)⟩
  · rw [if_pos hsched, acceptSched_pends (s := taken .pairSwitchover d s0) hroom hpast hday] at hexec
    have hring : (headCtx .pairSwitchover d s0).ring < (taken .pairSwitchover d s0).hif.rings.length := by
      refine ring_lt_of_enabled (n := d.ring) ?_
      rw [taken_host h]
      exact (canRun_rings h).1
    refine ⟨_, pended (headCtx .pairSwitchover d s0) (d.schedSec * 1000000000 + d.schedNs) false .pairSwitchover, hexec,
      onlyHost_of_rest ((noteWaits_rest _).trans (pendSched_rest ..)), ?_, rfl, rfl, rfl, ?_⟩
    · rw [noteWaits_sched, pendSched_sched]
      rfl
    · rw [ringOf_noteWaits]
      exact pendSched_ring (headCtx .pairSwitchover d s0) _ _ _ hring

end Sys2Proof.Machine
end

section
/-! SUPPORT. What the Helm's handling of a task leaves alone, and what it does to the lists and the flows (R61 to R71). -/

namespace Sys2Proof.Machine

/-! The Helm's lists, flows and trace -/

/-- The Helm without its task entries, flows and trace, and of its events without those that the trace sets. -/
def Tkx.still (t : Tkx) : Tkx := { t with event := t.event &&& 2#32, traceCtrl := 0#32, wrptr := 0, trace := [], flows := [], entries := [] }

/-- A state without what the handling of a task changes. -/
def State.steady (s : State) : State := { s.quiet with tkx := s.tkx.still }

theorem steady_of_quiet {s t : State} (h : t.quiet = s.quiet) : t.steady = s.steady :=
  show t.quiet.steady = s.quiet.steady from congrArg State.steady h

theorem steady_of_core {s t : State} (h : t.core = s.core) : t.steady = s.steady := steady_of_quiet (quiet_of_core h)

theorem foldl_steady {α : Type} (f : State → α → State) (l : List α) (s : State) (h : ∀ s a, (f s a).steady = s.steady) :
    (l.foldl f s).steady = s.steady := by
  induction l generalizing s with
  | nil => rfl
  | cons a l ih => exact (ih _).trans (h s a)

/-- SHED_LEVEL is an event of its own. -/
theorem setBit_and_two {k : Nat} (h : k ≠ 1) (w : Word) : setBit w k &&& 2#32 = w &&& 2#32 := by
  refine BitVec.eq_of_getLsbD_eq fun i hi => ?_
  have htwo : (2#32).getLsbD i = decide (i = 1) := by
    show (1#32 <<< 1).getLsbD i = _
    simp only [BitVec.getLsbD_shiftLeft, BitVec.getLsbD_one]
    rcases i with _ | _ | i <;> simp
  simp only [setBit, BitVec.getLsbD_and, BitVec.getLsbD_or, BitVec.getLsbD_shiftLeft, BitVec.getLsbD_one, htwo]
  by_cases h1 : i = 1
  · subst h1
    rcases Nat.lt_or_ge 1 k with hlt | hge
    · simp [hlt]
    · simp [show k = 0 by omega]
  · simp [h1]

theorem tkxEvent_tkx (k : Nat) (s : State) : (tkxEvent k s).tkx = { s.tkx with event := setBit s.tkx.event k } := by
  unfold tkxEvent
  extract_lets up tkx t
  split
  · exact (congrArg State.tkx (raiseBlock_core 10 t) :)
  · rfl

theorem tkxEvent_core (k : Nat) (s : State) : (tkxEvent k s).core = { s with tkx := { s.tkx with event := setBit s.tkx.event k } }.core := by
  unfold tkxEvent
  extract_lets up tkx t
  split
  · exact raiseBlock_core 10 t
  · rfl

theorem tkxEvent_steady {k : Nat} (h : k ≠ 1) (s : State) : (tkxEvent k s).steady = s.steady := by
  refine (steady_of_core (tkxEvent_core k s)).trans ?_
  simp only [State.steady, Tkx.still, setBit_and_two h]
  rfl

theorem traceRaw_steady (e : TrEv) (bits : List (Nat × Nat × Nat)) (s : State) : (traceRaw e bits s).steady = s.steady := by
  unfold traceRaw
  extract_lets w p froze tkx t
  split
  · rfl
  · split
    · exact (tkxEvent_steady (by decide) t).trans rfl
    · rfl

theorem traceTask_steady (e : TrEv) (arg : Nat) (t : TEntry) (s : State) : (traceTask e arg t s).steady = s.steady := traceRaw_steady ..

theorem setEntries_steady (l : List TEntry) (s : State) : (setEntries l s).steady = s.steady := rfl

theorem flowEnd_steady (result : Bool) (t : TEntry) (s : State) : (flowEnd result t s).steady = s.steady := by
  unfold flowEnd
  split
  · rfl
  · split <;> rfl

theorem enterReady_steady (t : TEntry) (s : State) : (enterReady t s).steady = s.steady := by
  unfold enterReady
  split
  · exact traceTask_steady ..
  · extract_lets f u
    split
    · rfl
    · exact (traceTask_steady ..).trans rfl

theorem makeReady_steady (c : TaskCfg) (g seq : Nat) (s : State) : (makeReady c g seq s).steady = s.steady := by
  unfold makeReady
  split
  · split <;> rfl
  · exact enterReady_steady ..

theorem readyAll_steady (p : Work → Bool) (g seq : Nat) (s : State) : (readyAll p g seq s).steady = s.steady :=
  foldl_steady _ _ s fun _ _ => makeReady_steady ..

theorem finishTask_steady (e : TEntry) (s : State) : (finishTask e s).steady = s.steady := by
  have hended : (flowEnd true e (traceTask .complete 0 e (dropEntry e s))).steady = s.steady :=
    (flowEnd_steady ..).trans ((traceTask_steady ..).trans rfl)
  unfold finishTask
  split
  · exact (enterReady_steady ..).trans hended
  · exact hended

theorem cancelOne_steady (arg : Nat) (t : TEntry) (s : State) : (cancelOne arg t s).steady = s.steady :=
  (flowEnd_steady ..).trans ((traceTask_steady ..).trans rfl)

theorem cancelWhere_steady (p : TEntry → Bool) (arg : Nat) (s : State) : (cancelWhere p arg s).steady = s.steady :=
  foldl_steady _ _ s fun _ _ => cancelOne_steady ..

theorem wakeFlow_steady (n : Nat) (s : State) : (wakeFlow n s).steady = s.steady := by
  unfold wakeFlow
  split
  · rfl
  · exact enterReady_steady ..

theorem releaseEntry_steady (n : Nat) (t : TEntry) (s : State) : (releaseEntry n t s).steady = s.steady :=
  (wakeFlow_steady ..).trans ((traceTask_steady ..).trans rfl)

theorem engineTaskDone_quiet (w : Work) (s : State) : (engineTaskDone w s).quiet = s.quiet := by
  unfold engineTaskDone
  split
  · exact closeWindow_quiet ..
  · rfl

theorem accountEmits_steady (s : State) : (accountEmits s).steady = s.steady := by
  unfold accountEmits
  split <;> rfl

/-! Parts of a steady state -/

theorem cur_of_steady {s t : State} (h : t.steady = s.steady) : t.tkx.cur = s.tkx.cur := (congrArg (fun u : State => u.tkx.cur) h :)

theorem aln_of_steady {s t : State} (h : t.steady = s.steady) : t.aln = s.aln := (congrArg State.aln h :)

theorem tbu_of_steady {s t : State} (h : t.steady = s.steady) : t.tbu = s.tbu := (congrArg State.tbu h :)

theorem lse_of_steady {s t : State} (h : t.steady = s.steady) : t.lse = s.lse := (congrArg State.lse h :)

theorem osm_of_steady {s t : State} (h : t.steady = s.steady) : t.osm = s.osm := (congrArg State.osm h :)

theorem net_of_steady {s t : State} (h : t.steady = s.steady) : t.net = s.net := (congrArg State.net h :)

theorem tasks_of_steady {s t : State} (h : t.steady = s.steady) : t.tkx.tasks = s.tkx.tasks := (congrArg (fun u : State => u.tkx.tasks) h :)

theorem slots_of_steady {s t : State} (h : t.steady = s.steady) : t.kst.slots = s.kst.slots := (congrArg (fun u : State => u.kst.slots) h :)

/-! Entries and flows behind a trace -/

theorem traceRaw_lists (e : TrEv) (bits : List (Nat × Nat × Nat)) (s : State) :
    (traceRaw e bits s).tkx.entries = s.tkx.entries ∧ (traceRaw e bits s).tkx.flows = s.tkx.flows := by
  unfold traceRaw
  extract_lets w p froze tkx t
  split
  · exact ⟨rfl, rfl⟩
  · split
    · rw [tkxEvent_tkx]
      exact ⟨rfl, rfl⟩
    · exact ⟨rfl, rfl⟩

@[simp] theorem traceTask_entries (e : TrEv) (arg : Nat) (t : TEntry) (s : State) : (traceTask e arg t s).tkx.entries = s.tkx.entries :=
  (traceRaw_lists ..).1

@[simp] theorem traceTask_flows (e : TrEv) (arg : Nat) (t : TEntry) (s : State) : (traceTask e arg t s).tkx.flows = s.tkx.flows :=
  (traceRaw_lists ..).2

theorem flowOf_congr {s t : State} (h : t.tkx.flows = s.tkx.flows) (n : Nat) : flowOf t n = flowOf s n := by rw [flowOf, flowOf, h]

theorem flowOf_setFlow (n : Nat) (f : Flow) (s : State) : flowOf (setFlow n f s) n = f := by
  show (lookupK (insertK s.tkx.flows n f) n).getD Flow.reset = f
  rw [lookupK_insertK_same]
  rfl

/-- An entry that enters a list leaves what its flow has ended. -/
theorem enterReady_done {t : TEntry} {n : Nat} (h : t.flow = some n) (s : State) : (flowOf (enterReady t s) n).done = (flowOf s n).done := by
  unfold enterReady
  rw [h]
  dsimp only
  split
  · rfl
  · rw [flowOf_congr (traceTask_flows ..)]
    exact (congrArg Flow.done (flowOf_setFlow n { flowOf s n with next := ((flowOf s n).next + 1) % 65536 } s) :)

/-! A task that ends -/

/-- The state in which a task has ended and its result is still to take effect. -/
def ended (e : TEntry) (s : State) : State := engineTaskDone e.work (finishTask e s)

theorem ended_steady (e : TEntry) (s : State) : (ended e s).steady = s.steady :=
  (steady_of_quiet (engineTaskDone_quiet ..)).trans (finishTask_steady ..)

theorem ended_tkx (e : TEntry) (s : State) : (ended e s).tkx = (finishTask e s).tkx := (congrArg State.tkx (engineTaskDone_quiet e.work (finishTask e s)) :)

theorem completeTask_flow {e : TEntry} (h : e.flow ≠ none) (s : State) : completeTask e s = settle (ended e s) := by
  have hsome : e.flow.isNone = false := Option.isNone_eq_false_iff.mpr (Option.isSome_iff_ne_none.mpr h)
  rw [completeTask, hsome]
  rfl

theorem completeTask_free {e : TEntry} (h : e.flow = none) (s : State) : completeTask e s = settle (effect e (ended e s)) := by
  rw [completeTask, h]
  rfl

/-- Without a re-ready that pends, the entry is gone. -/
theorem ended_gone {e : TEntry} (h : e.reReady = false) (s : State) : ∀ y ∈ (ended e s).tkx.entries, sameEntry y e = false := by
  have hentries : (ended e s).tkx.entries = s.tkx.entries.filter fun y => !sameEntry y e := by
    rw [ended_tkx, finishTask, if_neg (by simp [h]), flowEnd]
    split
    · exact traceTask_entries ..
    · split <;> exact traceTask_entries ..
  intro y hy
  rw [hentries] at hy
  simpa using (List.mem_filter.mp hy).2

/-- The entry of a running task of a flow waits among the flow's ended ones (R66). -/
theorem ended_done {e : TEntry} {n : Nat} (hflow : e.flow = some n) (hst : e.st = .running) (s : State) :
    (flowOf (ended e s) n).done = (flowOf s n).done ++ [(e, true)] := by
  have hend : (flowOf (flowEnd true e (traceTask .complete 0 e (dropEntry e s))) n).done = (flowOf s n).done ++ [(e, true)] := by
    rw [flowEnd, hflow]
    dsimp only
    rw [if_neg (by simp [hst]), flowOf_setFlow, flowOf_congr (traceTask_flows ..)]
    rfl
  rw [flowOf_congr (congrArg Tkx.flows (ended_tkx e s)), finishTask]
  split
  · exact (enterReady_done (by exact hflow) _).trans hend
  · exact hend

/-! Tasks that are made ready -/

/-- A task has an entry for a tick. -/
def Listed (n g : Nat) (s : State) : Prop := ∃ y ∈ s.tkx.entries, y.task = n ∧ y.g = g

theorem mem_insertReady (t : TEntry) (l : List TEntry) (y : TEntry) : y ∈ insertReady t l ↔ y = t ∨ y ∈ l := by
  induction l with
  | nil => simp [insertReady]
  | cons x r ih =>
    unfold insertReady
    split
    · simp
    · simp only [List.mem_cons, ih]
      exact or_left_comm

/-- An entry that is made ready, or waits, is in the list beside those that were there. -/
theorem enterReady_entries (t : TEntry) (s : State) :
    (∃ u ∈ (enterReady t s).tkx.entries, u.task = t.task ∧ u.g = t.g) ∧ ∀ y ∈ s.tkx.entries, y ∈ (enterReady t s).tkx.entries := by
  have hput : ∀ u v : TEntry, v ∈ insertReady u s.tkx.entries ↔ v = u ∨ v ∈ s.tkx.entries := fun u v => mem_insertReady ..
  unfold enterReady
  split
  · rw [traceTask_entries]
    exact ⟨⟨t, (hput ..).mpr (.inl rfl), rfl, rfl⟩, fun y hy => (hput ..).mpr (.inr hy)⟩
  · extract_lets f u
    split
    · exact ⟨⟨_, List.mem_append_right _ (List.mem_singleton_self _), rfl, rfl⟩, fun y hy => List.mem_append_left _ hy⟩
    · rw [traceTask_entries]
      exact ⟨⟨u, (hput ..).mpr (.inl rfl), rfl, rfl⟩, fun y hy => (hput ..).mpr (.inr hy)⟩

theorem Listed.map {n g : Nat} {s : State} (h : Listed n g s) {f : TEntry → TEntry} (hf : ∀ y, (f y).task = y.task ∧ (f y).g = y.g) :
    Listed n g (setEntries (s.tkx.entries.map f) s) := by
  obtain ⟨y, hy, hn, hg⟩ := h
  exact ⟨f y, List.mem_map_of_mem hy, (hf y).1.trans hn, (hf y).2.trans hg⟩

theorem updEntry_listed {n g : Nat} {s : State} (h : Listed n g s) (t : TEntry) {f : TEntry → TEntry} (hf : ∀ y, (f y).task = y.task ∧ (f y).g = y.g) :
    Listed n g (updEntry t f s) := by
  refine h.map fun y => ?_
  split
  · exact hf y
  · exact ⟨rfl, rfl⟩

theorem makeReady_listed (c : TaskCfg) (g seq : Nat) (s : State) : Listed c.num g (makeReady c g seq s) := by
  unfold makeReady
  split
  next t ht =>
    have hlisted : Listed c.num g s := ⟨t, List.mem_of_find?_eq_some ht, by simpa using List.find?_some ht⟩
    split
    · exact updEntry_listed hlisted t fun _ => ⟨rfl, rfl⟩
    · exact hlisted
  · obtain ⟨u, hu, htask, hg⟩ := (enterReady_entries (newEntry c g seq s) s).1
    exact ⟨u, hu, htask, hg⟩

theorem makeReady_keeps {n h : Nat} {s : State} (hl : Listed n h s) (c : TaskCfg) (g seq : Nat) : Listed n h (makeReady c g seq s) := by
  unfold makeReady
  split
  · split
    · exact updEntry_listed hl _ fun _ => ⟨rfl, rfl⟩
    · exact hl
  · obtain ⟨y, hy, hrest⟩ := hl
    exact ⟨y, (enterReady_entries ..).2 y hy, hrest⟩

/-- Every task of the table that does such work has an entry once they are made ready (R63). -/
theorem readyAll_listed {p : Work → Bool} {c : TaskCfg} {s : State} (hc : c ∈ s.tkx.tasks) (hp : p c.work = true) (g seq : Nat) :
    Listed c.num g (readyAll p g seq s) := by
  have hkeep : ∀ (l : List TaskCfg) (u : State), Listed c.num g u → Listed c.num g (l.foldl (fun s c => makeReady c g seq s) u) := by
    intro l
    induction l with
    | nil => exact fun _ h => h
    | cons x l ih => exact fun u h => ih _ (makeReady_keeps h ..)
  have hall : ∀ (l : List TaskCfg) (u : State), c ∈ l → Listed c.num g (l.foldl (fun s c => makeReady c g seq s) u) := by
    intro l
    induction l with
    | nil => exact fun _ h => absurd h List.not_mem_nil
    | cons x l ih =>
      intro u h
      rcases List.mem_cons.mp h with rfl | h
      · exact hkeep l _ (makeReady_listed ..)
      · exact ih _ h
  exact hall _ s (List.mem_filter.mpr ⟨hc, hp⟩)

end Sys2Proof.Machine
end

section
/-! SUPPORT. What the engines, the Bell, the ports and the digests leave alone: the Helm, the ticks of the window, the key slots and the free clock. -/

namespace Sys2Proof.Machine

/-- What an engine leaves alone as it works. -/
structure Bench where
  tkx   : Tkx
  ticks : List Tick
  slots : List Slot
  free  : Nat
  maint : Option (Option Ctx × Bool)

def State.bench (s : State) : Bench := ⟨s.tkx, s.aln.ticks, s.kst.slots, s.tbu.free, s.sys.maintPend⟩

@[simp] theorem bench_mk (sys : Sys) (hif : Hif) (tbu : Tbu) (log : Log) (flt : Flt) (swm : Swm) (tkx : Tkx) (net : Net) (ing : Ing)
    (aln : Aln) (dfc : Dfc) (lse : Lse) (osm : Osm) (sep : Sep) (ge : Ge) (ala : Ala) (pair : Pair) (kst : Kst) (mbx : Mbx)
    (image : Option Image) (pending : List Instr) (out : List Out) (freeCtr : Nat) (latches : List (Nat × Word)) (readData readHigh : Word) (prior : Blocks) :
    (State.mk sys hif tbu log flt swm tkx net ing aln dfc lse osm sep ge ala pair kst mbx image pending out freeCtr latches readData readHigh prior).bench =
      ⟨tkx, aln.ticks, kst.slots, tbu.free, sys.maintPend⟩ := rfl

@[simp] theorem bench_eta (s : State) : Bench.mk s.tkx s.aln.ticks s.kst.slots s.tbu.free s.sys.maintPend = s.bench := rfl

@[simp] theorem ite_bench (c : Prop) [Decidable c] (s t : State) : (if c then s else t).bench = if c then s.bench else t.bench := apply_ite ..

@[simp] theorem foldl_bench {α : Type} (f : State → α → State) (l : List α) (s : State) (h : ∀ s a, (f s a).bench = s.bench) :
    (l.foldl f s).bench = s.bench := by
  induction l generalizing s with
  | nil => rfl
  | cons a l ih => exact (ih _).trans (h s a)

theorem bench_of_ashore {s t : State} (h : t.ashore = s.ashore) : t.bench = s.bench := (congrArg State.bench h :)

theorem bench_of_core {s t : State} (h : t.core = s.core) : t.bench = s.bench := (congrArg State.bench h :)

theorem bench_of_quiet {s t : State} (h : t.quiet = s.quiet) : t.bench = s.bench := (congrArg State.bench h :)

@[simp] theorem raiseBlock_bench (b : Nat) (s : State) : (raiseBlock b s).bench = s.bench := bench_of_core (raiseBlock_core b s)

@[simp] theorem handRec_bench (n typ : Nat) (us : List Unit512) (stamp tick : Option Nat) (s : State) : (handRec n typ us stamp tick s).bench = s.bench :=
  bench_of_core (core_of_rest (handRec_rest ..))

@[simp] theorem completeWith_bench (c : Ctx) (st : Status) (late : Bool) (tick : Option Nat) (r : Nat) (s : State) :
    (completeWith c st late tick r s).bench = s.bench := bench_of_core (core_of_rest (completeWith_rest ..))

@[simp] theorem yokeSend_bench (m : YokeOut) (s : State) : (yokeSend m s).bench = s.bench := bench_of_core (core_of_rest (yokeSend_rest ..))

/-! Engines -/

@[simp] theorem dfcEvent_bench (k : Nat) (s : State) : (dfcEvent k s).bench = s.bench := by simp [dfcEvent]

@[simp] theorem dfcCnt_bench (k n : Nat) (s : State) : (dfcCnt k n s).bench = s.bench := rfl

@[simp] theorem swapDone_bench (seq : Nat) (w : Swap) (s : State) : (swapDone seq w s).bench = s.bench := by
  unfold swapDone
  split <;> simp

/-- Events of an engine that a condition raises. -/
theorem when_bench {f : State → State} (hf : ∀ s, (f s).bench = s.bench) (b : Bool) (s : State) : (if b then f s else s).bench = s.bench := by
  cases b
  · rfl
  · exact hf s

@[simp] theorem chainWork_bench (t : Tick) (s : State) (x : Nat × Chain) : (chainWork t s x).bench = s.bench := by
  unfold chainWork
  extract_lets r dfc u v ev w
  have hev : ∀ b k x, (ev b k x).bench = x.bench := fun b k => when_bench (dfcEvent_bench k) b
  have hw : w.bench = s.bench := by
    show (ev _ 0 (ev _ 1 (ev _ 2 (ev _ 3 (ev _ 4 v))))).bench = _
    rw [hev, hev, hev, hev, hev]
    simp [v, u]
  split
  · exact (swapDone_bench ..).trans hw
  · exact hw

@[simp] theorem dfcGroup_bench (t : Tick) (grp : Nat) (s : State) : (dfcGroup t grp s).bench = s.bench := by simp [dfcGroup]

@[simp] theorem sepEvent_bench (k : Nat) (s : State) : (sepEvent k s).bench = s.bench := by simp [sepEvent]

@[simp] theorem sepCnt_bench (k n : Nat) (s : State) : (sepCnt k n s).bench = s.bench := rfl

@[simp] theorem sepTask_bench (t : Tick) (s : State) : (sepTask t s).1.bench = s.bench := by simp [sepTask]

@[simp] theorem sepWork_bench (t : Tick) (s : State) : (sepWork t s).1.bench = s.bench := (sepTask_bench ..).trans rfl

@[simp] theorem geCnt_bench (k n : Nat) (s : State) : (geCnt k n s).bench = s.bench := rfl

@[simp] theorem geZone_bench (b : Bucket) (z : Nat) (s : State) : (geZone b z s).bench = s.bench := by simp [geZone]

@[simp] theorem geAggregate_bench (b : Bucket) (s : State) : (geAggregate b s).bench = s.bench := by simp [geAggregate]

@[simp] theorem osmEvent_bench (k : Nat) (s : State) : (osmEvent k s).bench = s.bench := by simp [osmEvent]

@[simp] theorem osmCnt_bench (k n : Nat) (s : State) : (osmCnt k n s).bench = s.bench := rfl

@[simp] theorem putSet_bench (k : Nat) (e : OsmSet) (s : State) : (putSet k e s).bench = s.bench := rfl

@[simp] theorem resetSet_bench (k : Nat) (e : OsmSet) (s : State) : (resetSet k e s).bench = s.bench := rfl

@[simp] theorem slotFor_bench (k g : Nat) (e : OsmSet) (s : State) (t : Track) : (slotFor k g e s t).bench = s.bench := by
  unfold slotFor
  repeat' split
  all_goals simp

@[simp] theorem tally_bench (n : IdTally) (s : State) : (tally n s).bench = s.bench := by simp [tally]

@[simp] theorem finishId_bench (k f : Nat) (head : List (Nat × Nat × Nat)) (marks : Nat) (e : OsmSet) (out : IdOut) (ends : List Nat) (s : State) :
    (finishId k f head marks e out ends s).1.bench = s.bench := rfl

@[simp] theorem takeModes_bench (k g : Nat) (n : IdTally) (e : OsmSet) (s : State) : (takeModes k g n e s).bench = s.bench := by simp [takeModes]

@[simp] theorem identifyBy_bench (k g f : Nat) (head : List (Nat × Nat × Nat)) (marks : Nat) (e : OsmSet) (found : Option (Nat × List Cand)) (s : State) :
    (identifyBy k g f head marks e found s).1.bench = s.bench := by
  unfold identifyBy
  split <;> simp

@[simp] theorem identifySet_bench (k g seq marks : Nat) (s : State) : (identifySet k g seq marks s).1.bench = s.bench := by
  simp only [identifySet]
  repeat' split
  all_goals simp

@[simp] theorem updateSet_bench (k : Nat) (x : OsmIn) (marks : Nat) (s : State) : (updateSet k x marks s).1.bench = s.bench := by
  simp only [updateSet]
  repeat' split
  all_goals simp

@[simp] theorem locationTick_bench (x : LocIn) (s : State) : (locationTick x s).bench = s.bench := rfl

@[simp] theorem deferSet_bench (k : Nat) (x : OsmIn) (s : State) : (deferSet k x s).bench = s.bench := by
  unfold deferSet
  repeat' split
  all_goals simp

@[simp] theorem deferLoc_bench (x : LocIn) (s : State) : (deferLoc x s).bench = s.bench := by simp [deferLoc]

@[simp] theorem carryId_bench (k g : Nat) (s : State) : (carryId k g s).bench = s.bench := by
  unfold carryId
  split <;> simp

@[simp] theorem carryDue_bench (g k : Nat) (s : State) : (carryDue g k s).bench = s.bench := by simp [carryDue]

@[simp] theorem writeNow_bench (t : Tick) (l : List EmitRec) (s : State) : (writeNow t l s).bench = s.bench := by
  refine foldl_bench _ _ _ fun u r => ?_
  split
  · exact handRec_bench ..
  · rfl

/-! Ports -/

@[simp] theorem copies_ashore (p : Nat) (f : TxFrame) (s : State) : (copies p f s).2.ashore = s.ashore := by
  unfold copies
  split <;> rfl

@[simp] theorem shedFrame_ashore (p g : Nat) (f : TxFrame) (s : State) : (shedFrame p g f s).ashore = s.ashore := by
  unfold shedFrame
  rw [foldl_ashore _ _ _ fun u c => by simp [ite_ashore], copies_ashore]

@[simp] theorem limitHeld_ashore (p : Nat) (s : State) : (limitHeld p s).ashore = s.ashore := by
  unfold limitHeld
  split
  · split <;> simp
  · rfl

@[simp] theorem markHeld_ashore (p g : Nat) (s : State) : (markHeld p g s).ashore = s.ashore := modPort_ashore ..

@[simp] theorem keepFrames_bench (seq : Nat) (l : List (Nat × TxFrame)) (s : State) : (keepFrames seq l s).bench = s.bench := rfl

@[simp] theorem emitPortFrames_bench (t : Tick) (p : Nat) (s : State) : (emitPortFrames t p s).bench = s.bench := by
  unfold emitPortFrames
  extract_lets l
  split
  · rfl
  · split
    · rfl
    · exact bench_of_ashore (foldl_ashore _ _ _ fun _ _ => handFrame_ashore ..)

@[simp] theorem shedPortFrames_bench (t : Tick) (p : Nat) (s : State) : (shedPortFrames t p s).bench = s.bench := by
  unfold shedPortFrames
  extract_lets l
  split
  · rfl
  · split
    · rfl
    · exact bench_of_ashore ((limitHeld_ashore ..).trans ((limitHeld_ashore ..).trans (foldl_ashore _ _ _ fun _ _ => shedFrame_ashore ..)))

theorem inCur_bench (e : TEntry) {f : Cur → Tick → State → State} (h : ∀ c t s, (f c t s).bench = s.bench) (s : State) : (inCur e f s).bench = s.bench := by
  unfold inCur
  split
  · split
    · exact h ..
    · rfl
  · rfl

@[simp] theorem feedPort_bench (e : TEntry) (s : State) : (feedPort e s).bench = s.bench := by
  unfold feedPort
  split
  · exact inCur_bench e (fun _ _ _ => emitPortFrames_bench ..) s
  · exact bench_of_ashore (unshed_ashore ..)
  · rfl

@[simp] theorem emitMark_bench (seq : Nat) (s : State) : (emitMark seq s).bench = s.bench := by simp [emitMark]

@[simp] theorem sendMarks_bench (n : Nat) (s : State) : (sendMarks n s).bench = s.bench := by
  induction n generalizing s with
  | zero => rfl
  | succ k ih =>
    unfold sendMarks
    split
    · rfl
    · split
      · rfl
      · exact (ih _).trans ((emitMark_bench ..).trans rfl)

@[simp] theorem marksDue_bench (s : State) : (marksDue s).bench = s.bench := sendMarks_bench ..

/-! SAFE ends a MAINT_ENTER that waits (R377) -/

/-- What waits to enter MAINTENANCE goes on waiting, or waits no longer. -/
def MaintKept (s t : State) : Prop := t.sys.maintPend = s.sys.maintPend ∨ t.sys.maintPend = none

theorem MaintKept.of_sys {s t : State} (h : t.sys = s.sys) : MaintKept s t := .inl (congrArg Sys.maintPend h)

theorem MaintKept.trans {s t u : State} (h : MaintKept s t) (k : MaintKept t u) : MaintKept s u := by
  rcases k with k | k
  · exact h.imp k.trans k.trans
  · exact .inr k

theorem foldl_sys {α : Type} (f : State → α → State) (l : List α) (s : State) (h : ∀ s a, (f s a).sys = s.sys) : (l.foldl f s).sys = s.sys := by
  induction l generalizing s with
  | nil => rfl
  | cons a l ih => exact (ih _).trans (h s a)

theorem completeWith_sys (c : Ctx) (st : Status) (late : Bool) (tick : Option Nat) (r : Nat) (s : State) : (completeWith c st late tick r s).sys = s.sys :=
  sys_of_rest (completeWith_rest ..)

theorem refuse_sys (c : Ctx) (st : Status) (late : Bool) (s : State) : (refuse c st late s).sys = s.sys := (congrArg State.sys (refuse_calm c st late s) :)

theorem failMaint_maint (s : State) : (failMaint s).sys.maintPend = none := by
  unfold failMaint
  split
  · rw [completeWith_sys]
  · rfl
  next h => exact h

theorem failStart_maint (s : State) : (failStart s).sys.maintPend = s.sys.maintPend := by
  unfold failStart
  split
  · exact (congrArg (fun u : State => u.sys.maintPend) (complete_rest ..) :)
  · rfl

theorem failSched_sys (s : State) : (failSched s).sys = s.sys := (foldl_sys _ _ _ fun _ _ => refuse_sys ..).trans rfl

theorem failSwaps_sys (s : State) : (failSwaps s).sys = s.sys := (foldl_sys _ _ _ fun _ _ => refuse_sys ..).trans rfl

theorem failKeys_sys (s : State) : (failKeys s).sys = s.sys := (foldl_sys _ _ _ fun _ _ => completeWith_sys ..).trans rfl

theorem failSwitch_sys (s : State) : (failSwitch s).sys = s.sys := by
  unfold failSwitch
  split
  · exact completeWith_sys ..
  · rfl

theorem failPending_maint (s : State) : (failPending s).sys.maintPend = none := by
  rw [failPending_eq, failSwitch_sys, failKeys_sys, failSwaps_sys, failSched_sys, failStart_maint, failMaint_maint]

theorem dropData_sys (s : State) : (dropData s).sys = s.sys := by
  unfold dropData
  split <;> rfl

theorem enterSafe_maint (s : State) : MaintKept s (enterSafe s) := by
  unfold enterSafe
  extract_lets flt b aln d e f g opens flt'
  split
  · exact .inl rfl
  clear_value f
  have hg : g.sys.maintPend = none := by
    show (dropData (failPending f)).sys.maintPend = none
    rw [dropData_sys, failPending_maint]
  clear_value g
  exact .inr ((congrArg Sys.maintPend (foldl_sys _ opens _ fun _ _ => sys_of_quiet (logFault_quiet ..))).trans hg)

theorem endFatal_maint (id : Nat) (s : State) : MaintKept s (endFatal id s) := by
  obtain ⟨u, heq, hquiet, -⟩ := endFatal_eq id s
  rw [heq]
  exact (MaintKept.of_sys (sys_of_quiet hquiet)).trans (enterSafe_maint u)

/-! Digests (R500 to R503) -/

/-- The Helm, the ticks of the window, the key slots and the free clock stand. -/
structure Stays (s t : State) : Prop where
  tkx   : t.tkx = s.tkx
  ticks : t.aln.ticks = s.aln.ticks
  slots : t.kst.slots = s.kst.slots
  free  : t.tbu.free = s.tbu.free

theorem Stays.trans {s t u : State} (h : Stays s t) (k : Stays t u) : Stays s u :=
  ⟨k.tkx.trans h.tkx, k.ticks.trans h.ticks, k.slots.trans h.slots, k.free.trans h.free⟩

theorem Stays.of_bench {s t : State} (h : t.bench = s.bench) : Stays s t :=
  ⟨(congrArg Bench.tkx h :), (congrArg Bench.ticks h :), (congrArg Bench.slots h :), (congrArg Bench.free h :)⟩

/-- What a digest that differs leaves alone, though the module may join anew or end in SAFE. -/
structure Kept (s t : State) : Prop where
  stays : Stays s t
  osm   : t.osm = s.osm
  maint : MaintKept s t

theorem Kept.refl (s : State) : Kept s s := ⟨.of_bench rfl, rfl, .inl rfl⟩

theorem Kept.trans {s t u : State} (h : Kept s t) (k : Kept t u) : Kept s u :=
  ⟨h.stays.trans k.stays, k.osm.trans h.osm, h.maint.trans k.maint⟩

theorem Kept.bench {s t : State} (h : Kept s t) (hmaint : s.sys.maintPend = none) : t.bench = s.bench := by
  have hpend : t.sys.maintPend = s.sys.maintPend := h.maint.elim id fun k => k.trans hmaint.symm
  obtain ⟨⟨htkx, hticks, hslots, hfree⟩, -, -⟩ := h
  rw [State.bench, htkx, hticks, hslots, hfree, hpend]
  rfl

theorem Kept.of_apart {s t : State} (h : t.apart = s.apart) : Kept s t :=
  ⟨.of_bench (congrArg State.bench h :), (congrArg State.osm h :), .of_sys (sys_of_apart h)⟩

theorem Kept.of_core {s t : State} (h : t.core = s.core) : Kept s t := .of_apart (apart_of_core h)

theorem Kept.of_quiet {s t : State} (h : t.quiet = s.quiet) : Kept s t :=
  ⟨.of_bench (bench_of_quiet h), (congrArg State.osm h :), .of_sys (sys_of_quiet h)⟩

theorem Kept.of_hulk {s t : State} (h : t.hulk = s.hulk) (hmaint : MaintKept s t) : Kept s t :=
  ⟨⟨(congrArg State.tkx h :), (congrArg (fun u : State => u.aln.ticks) h :), (congrArg (fun u : State => u.kst.slots) h :),
    (congrArg (fun u : State => u.tbu.free) h :)⟩, (congrArg State.osm h :), hmaint⟩

/-- The pair is no part of what is kept. -/
theorem Kept.pair (s : State) (p : Pair) : Kept s { s with pair := p } := ⟨.of_bench rfl, rfl, .inl rfl⟩

theorem pairEvt_kept (e : PairEv) (n : PairNote) (s : State) : Kept s (pairEvt e n s) := (Kept.pair s _).trans (.of_core (pairEvt_core e n s))

theorem beginJoin_kept (cold : Bool) (s : State) : Kept s (beginJoin cold s) := by
  obtain ⟨c, hc⟩ := beginJoin_apart cold s
  exact (Kept.pair s _).trans (.of_apart hc)

/-- PAIR_DIVERGED is marked, or ends in SAFE. -/
theorem raiseDiverged_kept (s : State) : Kept s (raiseFault (FaultIn.plain 0x31 15) s) := by
  rcases raiseFault_cases (FaultIn.plain 0x31 15) s with h | ⟨h, -⟩ | ⟨w, conseq, d, cls, h, -⟩ | h
  · rw [h]
    exact .refl s
  · exact absurd h (by decide)
  · cases h
  · have hquiet := entered_quiet (FaultIn.plain 0x31 15) s
    cases hesc : escalates (FaultIn.plain 0x31 15) s with
    | false =>
      obtain ⟨id, hid⟩ := raiseFault_kept h (fun _ => rfl) hesc (.inl (by decide))
      rw [hid]
      exact .of_quiet ((closeWindow_quiet ..).trans hquiet)
    | true =>
      have hend : raiseFault (FaultIn.plain 0x31 15) s = endFatal (faultRecord (FaultIn.plain 0x31 15) s).id (entered (FaultIn.plain 0x31 15) s) := by
        rw [raiseFault_enters h, react, if_pos (faultRecord_reaction (.inl hesc))]
        rfl
      have hinit : (entered (FaultIn.plain 0x31 15) s).sys.runState ≠ .init := by
        rw [sys_of_quiet hquiet]
        exact h.init
      rw [hend]
      exact (Kept.of_quiet hquiet).trans (.of_hulk (endFatal_wrecked hinit _).hulk (endFatal_maint ..))

theorem diverged_kept (s : State) : Kept s (diverged s) := by
  unfold diverged
  extract_lets u
  have hu : Kept s u := raiseDiverged_kept s
  split
  · exact .refl s
  · split
    · exact hu.trans (beginJoin_kept ..)
    · exact hu

theorem identMeets_kept (set idSeq value : Nat) (mine : Bool) (s : State) : Kept s (identMeets set idSeq value mine s) := by
  unfold identMeets
  extract_lets hit pair u pair' n v
  split
  · exact .refl s
  · split
    · have hu : Kept s u := .pair s _
      split
      · exact hu.trans (.pair u _)
      · have hv : Kept s v := hu.trans (.pair u _)
        split
        · exact hv.trans (diverged_kept v)
        · exact hv
    · split <;> exact .pair s _

theorem identDigest_kept (set : Nat) (us : List Unit512) (s : State) : Kept s (identDigest set us s) := by
  unfold identDigest
  split
  · exact .refl s
  · exact (Kept.of_core (core_of_rest (yokeSend_rest ..))).trans (identMeets_kept ..)

theorem osmDigests_kept (k : Nat) (l : List (Nat × List Unit512)) (s : State) : Kept s (osmDigests k l s) := by
  unfold osmDigests
  generalize l.filter (fun e => e.1 = 0x40) = m
  induction m generalizing s with
  | nil => exact .refl s
  | cons e m ih => exact (identDigest_kept ..).trans (ih _)

theorem meetDigests_kept (o : OwnDigest) (value : Nat) (skip suspect : Bool) (s : State) : Kept s (meetDigests o value skip suspect s) := by
  unfold meetDigests
  extract_lets pair u pair' v n pair'' note w
  have hu : Kept s u := .pair s _
  split
  · exact hu.trans (.pair u _)
  · have hv : Kept s v := hu.trans (.pair u _)
    split
    · exact hv.trans (.pair v _)
    · have hw : Kept s w := hv.trans ((Kept.pair v _).trans (pairEvt_kept ..))
      split
      · exact hw.trans (diverged_kept w)
      · exact hw

theorem tickDigest_kept (seq value : Nat) (skip suspect : Bool) (s : State) : Kept s (tickDigest seq value skip suspect s) := by
  unfold tickDigest
  extract_lets u o
  have hu : Kept s u := .of_core (core_of_rest (yokeSend_rest ..))
  split
  · exact .refl s
  · split
    · exact hu.trans (meetDigests_kept ..)
    · exact hu.trans (.pair u _)

end Sys2Proof.Machine
end

section
/-! SUPPORT. What the tasks of the engines and of EMIT do for the tick in progress once they end (R51, R52, R60, R66, R125, R233, R300). -/

namespace Sys2Proof.Machine

/-! A task that runs for the tick in progress -/

/-- Entry `e` does work `w` for tick `t`, which is in progress as `c`. -/
structure AtWork (w : Work) (e : TEntry) (c : Cur) (t : Tick) (s : State) : Prop where
  work : e.work = w
  st   : e.st = .running
  cur  : s.tkx.cur = some c
  g    : c.g = e.g
  tick : curTick s c = t

theorem atWork_of_runningCur {w : Work} {e : TEntry} {c : Cur} {t : Tick} {s : State} (h : runningCur (· = w) s = some (e, c, t)) :
    AtWork w e c t s := by
  unfold runningCur at h
  split at h
  next c' e' hcur hwork =>
    split at h
    next hg =>
      simp only [Option.some.injEq, Prod.mk.injEq] at h
      obtain ⟨rfl, rfl, htick⟩ := h
      have hfound := List.find?_some hwork
      simp only [Bool.and_eq_true, decide_eq_true_eq] at hfound
      exact ⟨hfound.2, hfound.1, hcur, hg.symm, htick⟩
    next => cases h
  next => cases h

theorem completeCur_runs {w : Work} {e : TEntry} {c : Cur} {t : Tick} {s : State} (h : runningCur (· = w) s = some (e, c, t)) :
    completeCur w s = completeTask e s := by rw [completeCur, h]

theorem completeCur_idle {w : Work} {s : State} (h : runningCur (· = w) s = none) : completeCur w s = s := by rw [completeCur, h]

theorem curTick_congr {s t : State} (h : t.aln = s.aln) (c : Cur) : curTick t c = curTick s c := by
  rw [curTick, curTick, pastTick, pastTick, tickOf, tickOf, h]

theorem AtWork.congr {w : Work} {e : TEntry} {c : Cur} {t : Tick} {s u : State} (h : AtWork w e c t s) (hcur : u.tkx.cur = s.tkx.cur) (haln : u.aln = s.aln) :
    AtWork w e c t u := ⟨h.work, h.st, hcur.trans h.cur, h.g, (curTick_congr haln c).trans h.tick⟩

theorem AtWork.ended {w : Work} {e : TEntry} {c : Cur} {t : Tick} {s : State} (h : AtWork w e c t s) : AtWork w e c t (ended e s) :=
  h.congr (cur_of_steady (ended_steady e s)) (aln_of_steady (ended_steady e s))

theorem AtWork.inCur {w : Work} {e : TEntry} {c : Cur} {t : Tick} {s : State} (h : AtWork w e c t s) (f : Cur → Tick → State → State) :
    inCur e f s = f c t s := by
  rw [Machine.inCur, h.cur]
  dsimp only
  rw [if_pos h.g, h.tick]

theorem modCur_cur {s : State} {c : Cur} (h : s.tkx.cur = some c) (f : Cur → Cur) : (modCur f s).tkx.cur = some (f c) := congrArg (Option.map f) h

/-! Tasks of flows (R66) -/

/-- The entry of a task that ended waits among the ended ones of its flow, and no engine has changed. -/
structure Held (e : TEntry) (n : Nat) (s x : State) : Prop where
  slots : x.kst.slots = s.kst.slots
  free  : x.tbu.free = s.tbu.free
  done  : (flowOf x n).done = (flowOf s n).done ++ [(e, true)]
  cur   : x.tkx.cur = s.tkx.cur
  dfc   : x.dfc = s.dfc
  sep   : x.sep = s.sep
  lse   : x.lse = s.lse
  osm   : x.osm = s.osm
  net   : x.net = s.net

theorem ended_held {e : TEntry} (hst : e.st = .running) {n : Nat} (hflow : e.flow = some n) (s : State) : Held e n s (ended e s) := by
  have h := ended_steady e s
  exact ⟨slots_of_steady h, congrArg Tbu.free (tbu_of_steady h), ended_done hflow hst s, cur_of_steady h, (congrArg State.dfc h :), (congrArg State.sep h :),
    lse_of_steady h, osm_of_steady h, net_of_steady h⟩

/-- What a task of no flow leaves as its result takes effect: the key slots, the free clock, the ticks of the window, and no entry of its own. -/
structure Over (e : TEntry) (s x : State) : Prop where
  slots : x.kst.slots = s.kst.slots
  free  : x.tbu.free = s.tbu.free
  gone  : e.reReady = false → ∀ y ∈ x.tkx.entries, sameEntry y e = false
  ticks : x.aln.ticks = s.aln.ticks

theorem over_of_parts {e : TEntry} {s x : State} (hslots : x.kst.slots = (ended e s).kst.slots) (hfree : x.tbu.free = (ended e s).tbu.free)
    (hentries : x.tkx.entries = (ended e s).tkx.entries) (hticks : x.aln.ticks = (ended e s).aln.ticks) : Over e s x := by
  have h := ended_steady e s
  refine ⟨hslots.trans (slots_of_steady h), hfree.trans (congrArg Tbu.free (tbu_of_steady h)), fun hre => ?_,
    hticks.trans (congrArg Aln.ticks (aln_of_steady h))⟩
  rw [hentries]
  exact ended_gone hre s

/-- An engine's work that stays at its bench ends the task, whatever the tick notes of it. -/
theorem over_of_stays {e : TEntry} {s u : State} (h : Stays (ended e s) u) (f : Cur → Cur) : Over e s (modCur f u) :=
  over_of_parts h.slots h.free (congrArg Tkx.entries h.tkx :) h.ticks

/-! The Separator's groups (R233) -/

theorem effect_dfc {k : Nat} {e : TEntry} {c : Cur} {t : Tick} {s : State} (h : AtWork (.dfc k) e c t s) :
    effect e s = modCur (fun c => { c with doneDfc := k :: c.doneDfc }) (dfcGroup t k s) := by
  simp only [effect, h.work]
  exact h.inCur _

theorem dfcEvent_parts (k : Nat) (s : State) : (dfcEvent k s).dfc.chains = s.dfc.chains ∧ (dfcEvent k s).ing = s.ing := by
  unfold dfcEvent
  extract_lets up dfc t
  split
  · exact ⟨(congrArg (fun u : State => u.dfc.chains) (raiseBlock_core 6 t) :), (congrArg State.ing (raiseBlock_core 6 t) :)⟩
  · exact ⟨rfl, rfl⟩

@[simp] theorem dfcCnt_chains (k n : Nat) (s : State) : (dfcCnt k n s).dfc.chains = s.dfc.chains := rfl

@[simp] theorem dfcCnt_ing (k n : Nat) (s : State) : (dfcCnt k n s).ing = s.ing := rfl

theorem swapDone_parts (seq : Nat) (w : Swap) (s : State) : (swapDone seq w s).dfc.chains = s.dfc.chains ∧ (swapDone seq w s).ing = s.ing := by
  have h := dfcEvent_parts 5 (dfcCnt 4 1 s)
  unfold swapDone
  extract_lets u
  split
  · exact ⟨(congrArg (fun v : State => v.dfc.chains) (completeWith_rest ..) :).trans h.1, (congrArg State.ing (completeWith_rest ..) :).trans h.2⟩
  · exact h

/-- A chain after its share of the group task for tick `t`. -/
def tickedChain (t : Tick) (s : State) (x : Nat × Chain) : Chain := (x.2.tick x.1 (epIndexOf s x.2.srcA) (epIndexOf s x.2.srcB) t.g t.view).chain

theorem tickedChain_congr {s u : State} (h : u.ing = s.ing) (t : Tick) (x : Nat × Chain) : tickedChain t u x = tickedChain t s x := by
  rw [tickedChain, tickedChain, epIndexOf, epIndexOf, epIndexOf, epIndexOf, tickEps, tickEps, h]

theorem chainWork_parts (t : Tick) (s : State) (x : Nat × Chain) :
    (chainWork t s x).dfc.chains = insertK s.dfc.chains x.1 (tickedChain t s x) ∧ (chainWork t s x).ing = s.ing := by
  unfold chainWork
  extract_lets r dfc u v ev w
  have hev : ∀ b k y, (ev b k y).dfc.chains = y.dfc.chains ∧ (ev b k y).ing = y.ing := fun b k y => by
    show (if b then dfcEvent k y else y).dfc.chains = _ ∧ (if b then dfcEvent k y else y).ing = _
    cases b
    · exact ⟨rfl, rfl⟩
    · exact dfcEvent_parts k y
  have hw : w.dfc.chains = v.dfc.chains ∧ w.ing = v.ing := by
    show (ev _ 0 (ev _ 1 (ev _ 2 (ev _ 3 (ev _ 4 v))))).dfc.chains = _ ∧ (ev _ 0 (ev _ 1 (ev _ 2 (ev _ 3 (ev _ 4 v))))).ing = _
    constructor
    · rw [(hev ..).1, (hev ..).1, (hev ..).1, (hev ..).1, (hev ..).1]
    · rw [(hev ..).2, (hev ..).2, (hev ..).2, (hev ..).2, (hev ..).2]
  have hdone : w.dfc.chains = insertK s.dfc.chains x.1 (tickedChain t s x) ∧ w.ing = s.ing := by
    rw [hw.1, hw.2]
    simp only [v, dfcCnt_chains, dfcCnt_ing]
    exact ⟨rfl, rfl⟩
  split
  · exact ⟨(swapDone_parts ..).1.trans hdone.1, (swapDone_parts ..).2.trans hdone.2⟩
  · exact hdone

/-- A group's work moves the chains that it names, each once, and no other. -/
theorem lookup_foldl_chainWork (t : Tick) (l : List (Nat × Chain)) (hl : (l.map Prod.fst).Nodup) (s : State) :
    (∀ j, j ∉ l.map Prod.fst → lookupK (l.foldl (chainWork t) s).dfc.chains j = lookupK s.dfc.chains j) ∧
      ∀ x ∈ l, lookupK (l.foldl (chainWork t) s).dfc.chains x.1 = some (tickedChain t s x) := by
  induction l generalizing s with
  | nil => exact ⟨fun _ _ => rfl, fun _ h => absurd h List.not_mem_nil⟩
  | cons a l ih =>
    obtain ⟨ha, hl⟩ := List.nodup_cons.mp hl
    obtain ⟨hother, hmine⟩ := ih hl (chainWork t s a)
    obtain ⟨hchains, hing⟩ := chainWork_parts t s a
    refine ⟨fun j hj => ?_, fun x hx => ?_⟩
    · obtain ⟨hja, hjl⟩ := not_or.mp (mt List.mem_cons.mpr hj)
      rw [List.foldl_cons, hother j hjl, hchains, lookupK_insertK_ne _ hja]
    · rw [List.foldl_cons]
      rcases List.mem_cons.mp hx with rfl | hx
      · rw [hother _ ha, hchains, lookupK_insertK_same]
      · rw [hmine x hx, tickedChain_congr hing]

theorem dfcGroup_chains {s : State} (h : (s.dfc.chains.map Prod.fst).Nodup) (t : Tick) (k : Nat) :
    (∀ j, j / 256 ≠ k → lookupK (dfcGroup t k s).dfc.chains j = lookupK s.dfc.chains j) ∧
      ∀ x ∈ s.dfc.chains, x.1 / 256 = k → lookupK (dfcGroup t k s).dfc.chains x.1 = some (tickedChain t s x) := by
  have hnodup : ((s.dfc.chains.filter fun c => c.1 / 256 = k).map Prod.fst).Nodup := h.sublist (List.filter_sublist.map _)
  obtain ⟨hother, hmine⟩ := lookup_foldl_chainWork t _ hnodup s
  refine ⟨fun j hj => hother j fun hmem => ?_, fun x hx hk => hmine x (List.mem_filter.mpr ⟨hx, by simpa using hk⟩)⟩
  obtain ⟨x, hx, rfl⟩ := List.mem_map.mp hmem
  exact hj (by simpa using (List.mem_filter.mp hx).2)

/-! The Separation Detector's task (R51, R325) -/

theorem effect_sep {e : TEntry} {c : Cur} {t : Tick} {s : State} (h : AtWork .sep e c t s) :
    effect e s = modCur (fun c => { c with doneSep := true, recs := c.recs ++ (sepWork t s).2 }) (sepWork t s).1 := by
  simp only [effect, h.work]
  exact h.inCur _

theorem sepEvent_outSample (k : Nat) (s : State) : (sepEvent k s).sep.outSample = s.sep.outSample := by
  unfold sepEvent
  extract_lets up sep t
  split
  · exact (congrArg (fun u : State => u.sep.outSample) (raiseBlock_core 9 t) :)
  · rfl

theorem sepWork_outSample (t : Tick) (s : State) : (sepWork t s).1.sep.outSample = t.outZones := by
  have htask : ∀ u : State, (sepTask t u).1.sep.outSample = u.sep.outSample := fun u => by
    simp [sepTask, sepCnt, apply_ite State.sep, apply_ite Sep.outSample, sepEvent_outSample]
  exact htask _

/-- A SEP task's start is late for its deadline by the event and the count alone. -/
theorem phaseLate_steady (e : TEntry) (phase late seq : Nat) (s : State) :
    (phaseLate (some e) phase late seq s).steady = { s with tkx := { s.tkx with phaseLateCnt := satAdd s.tkx.phaseLateCnt 1 } }.steady :=
  (tkxEvent_steady (by decide) _).trans (traceTask_steady ..)

theorem phaseLate_flows (e : TEntry) (phase late seq : Nat) (s : State) : (phaseLate (some e) phase late seq s).tkx.flows = s.tkx.flows := by
  unfold phaseLate
  extract_lets u us
  rw [tkxEvent_tkx]
  exact traceTask_flows ..

end Sys2Proof.Machine
end

section
/-! SUPPORT. The Oscillation Monitor's tasks: updates, location, and the queues of deferred ones (R283 to R301). -/

namespace Sys2Proof.Machine

/-! Updates and location (R284, R297) -/

theorem effect_osm {k : Nat} {e : TEntry} {c : Cur} {t : Tick} {s : State} (h : AtWork (.osm k) e c t s) :
    effect e s = modCur (fun c => { c with doneOsm := k :: c.doneOsm, recs := c.recs ++ (osmWork t k s).2 }) (osmWork t k s).1 := by
  simp only [effect, h.work]
  exact h.inCur _

theorem effect_osmLocation {e : TEntry} {c : Cur} {t : Tick} {s : State} (h : AtWork .osmLocation e c t s) :
    effect e s = modCur (fun c => { c with doneOsm := 8 :: c.doneOsm }) (locationTick (locRead s.osm t.g t.view) s) := by
  simp only [effect, h.work]
  exact h.inCur _

/-- An update stays at the engine's bench; its digest may differ from the peer's. -/
theorem osmWork_stays (t : Tick) (k : Nat) (s : State) : Stays s (osmWork t k s).1 := by
  unfold osmWork
  split
  · exact .of_bench rfl
  next e _ => exact (Stays.of_bench (updateSet_bench k (osmInputs s e t.g t.seq) 0 s)).trans (osmDigests_kept k _ _).stays

/-! Queues of deferred updates (R300) -/

/-- What an update leaves of its set: the image's entry, and the queue. -/
def OsmSet.plan (e : OsmSet) : BitVec 1024 × List OsmIn := (e.entry, e.queue)

/-- Set `k` is in use with queue `q`. -/
def HasQueue (k : Nat) (q : List OsmIn) (s : State) : Prop := ∃ m, osmSetOf s k = some m ∧ m.queue = q

theorem HasQueue.of_sets {k : Nat} {q : List OsmIn} {s u : State} (h : HasQueue k q s) (hu : u.osm.sets = s.osm.sets) : HasQueue k q u := by
  rw [HasQueue, osmSetOf, hu]
  exact h

theorem osmSetOf_valid {k : Nat} {e : OsmSet} {s : State} (h : osmSetOf s k = some e) : e.valid = true := (Option.filter_eq_some_iff.mp h).2

theorem OsmSet.valid_of_plan {e m : OsmSet} (h : m.plan = e.plan) (he : e.valid = true) : m.valid = true := by
  rw [OsmSet.valid, OsmSet.fd, show m.entry = e.entry from congrArg Prod.fst h]
  exact he

/-- A set that is put back with its entry keeps its queue. -/
theorem putSet_hasQueue {k : Nat} {e m : OsmSet} (he : e.valid = true) (hplan : m.plan = e.plan) (s : State) : HasQueue k e.queue (putSet k m s) := by
  refine ⟨m, ?_, congrArg Prod.snd hplan⟩
  rw [osmSetOf, Option.filter_eq_some_iff]
  exact ⟨lookupK_insertK_same .., OsmSet.valid_of_plan hplan he⟩

theorem OsmSet.missN_plan (e : OsmSet) (lam k : Nat) : (e.missN lam k).plan = e.plan := by
  induction k generalizing e with
  | zero => rfl
  | succ k ih => exact (ih _).trans rfl

theorem OsmSet.track_plan (e : OsmSet) (f g : Nat) (cs : List Cand) : (e.track f g cs).1.plan = e.plan := rfl

@[simp] theorem freeSlots_sets (p : LocSlot → Bool) (s : State) : (freeSlots p s).osm.sets = s.osm.sets := rfl

theorem finishId_hasQueue {k : Nat} {e m : OsmSet} (he : e.valid = true) (hplan : m.plan = e.plan) (f : Nat) (head : List (Nat × Nat × Nat)) (marks : Nat)
    (out : IdOut) (ends : List Nat) (s : State) : HasQueue k e.queue (finishId k f head marks m out ends s).1 :=
  (putSet_hasQueue (m := { m with dropped := 0, didReset := false, tracks := match out with
    | .done _ => m.tracks.map fun t => { t with new := false }
    | _ => m.tracks }) he hplan s).of_sets (freeSlots_sets ..)

/-- The set once the candidates that were found are matched to its tracks (R290). -/
def OsmSet.found (e : OsmSet) (f g no : Nat) (cs : List Cand) : OsmSet × IdTally := ({ e with order := no }).track f g (({ e with order := no }).candidates cs)

theorem OsmSet.found_plan (e : OsmSet) (f g no : Nat) (cs : List Cand) : (e.found f g no cs).1.plan = e.plan := OsmSet.track_plan ..

theorem identifyBy_some (k g f : Nat) (head : List (Nat × Nat × Nat)) (marks : Nat) (e : OsmSet) (no : Nat) (cs : List Cand) (s : State) :
    ∃ ends, identifyBy k g f head marks e (some (no, cs)) s =
      finishId k f head marks (e.found f g no cs).1 (.done no) ends (takeModes k g (e.found f g no cs).2 (e.found f g no cs).1 s) := ⟨_, rfl⟩

theorem identifyBy_hasQueue {k : Nat} {e m : OsmSet} (he : e.valid = true) (hplan : m.plan = e.plan) (g f : Nat) (head : List (Nat × Nat × Nat))
    (marks : Nat) (found : Option (Nat × List Cand)) (s : State) : HasQueue k e.queue (identifyBy k g f head marks m found s).1 := by
  rcases found with _ | ⟨no, cs⟩
  · exact finishId_hasQueue (m := { m with order := 0 }) he hplan ..
  · obtain ⟨ends, h⟩ := identifyBy_some k g f head marks m no cs s
    rw [h]
    exact finishId_hasQueue he ((OsmSet.found_plan ..).trans hplan) ..

theorem identifySet_hasQueue {k : Nat} {q : List OsmIn} {s : State} (h : HasQueue k q s) (g seq marks : Nat) :
    HasQueue k q (identifySet k g seq marks s).1 := by
  obtain ⟨e, he, rfl⟩ := h
  have hvalid := osmSetOf_valid he
  unfold identifySet
  rw [he]
  dsimp only
  split
  · exact finishId_hasQueue (m := { e with idSeq := e.idSeq + 1, idTick := seq, carry := false, order := 0 }) hvalid rfl ..
  · exact identifyBy_hasQueue (m := { e with idSeq := e.idSeq + 1, idTick := seq, carry := false }) hvalid rfl ..

/-- The set once it has missed the boundaries before `x`, or restarted for them, and has taken `x` (R284, R285). -/
def OsmSet.taken (e : OsmSet) (f : Nat) (x : OsmIn) : OsmSet :=
  let m := match e.lastG with
    | some g0 => (x.g - g0) / e.decim - 1
    | none => 0
  let u := if decide (e.windowS * f < m * e.decim) then { e.clear with carry := e.carry } else e.missN (e.lambda f) m
  { (u.accumulate (e.lambda f) x.vals) with lastG := some x.g }

theorem OsmSet.taken_plan (e : OsmSet) (f : Nat) (x : OsmIn) : (e.taken f x).plan = e.plan := by
  unfold taken
  extract_lets m clear u
  show u.plan = e.plan
  show (if decide (e.windowS * f < m * e.decim) then { e.clear with carry := e.carry } else e.missN (e.lambda f) m).plan = e.plan
  split
  · rfl
  · exact e.missN_plan ..

theorem updateSet_some {k : Nat} {e : OsmSet} {s : State} (h : osmSetOf s k = some e) (x : OsmIn) (marks : Nat) : ∃ u n,
    (updateSet k x marks s).1 = (if (e.taken (frate s) x).idDue (frate s) x.g || (e.taken (frate s) x).carry then
      (identifySet k x.g x.seq marks (osmCnt 0 1 (osmCnt 5 n (putSet k (e.taken (frate s) x) u)))).1
      else osmCnt 0 1 (osmCnt 5 n (putSet k (e.taken (frate s) x) u))) := by
  unfold updateSet
  rw [h]
  refine ⟨?u, ?n, ?_⟩
  rotate_left 2
  · dsimp only
    rw [apply_ite Prod.fst]
    rfl

/-- An update of a set leaves its queue. -/
theorem updateSet_hasQueue {k : Nat} {q : List OsmIn} {s : State} (h : HasQueue k q s) (x : OsmIn) (marks : Nat) :
    HasQueue k q (updateSet k x marks s).1 := by
  obtain ⟨e, he, rfl⟩ := h
  obtain ⟨u, n, hupdate⟩ := updateSet_some he x marks
  have hput : HasQueue k e.queue (osmCnt 0 1 (osmCnt 5 n (putSet k (e.taken (frate s) x) u))) :=
    (putSet_hasQueue (osmSetOf_valid he) (e.taken_plan (frate s) x) u).of_sets rfl
  rw [hupdate]
  split
  · exact identifySet_hasQueue hput ..
  · exact hput

end Sys2Proof.Machine
end

section
/-! SUPPORT. The ring records and the frames of EMIT, the queued updates in SLACK, and O48 (R60, R66, R124, R125, R176, R300). -/

namespace Sys2Proof.Machine

/-! The ring records (R60) -/

/-- A state without the tick in progress and what `core` leaves out. -/
def State.aside (s : State) : State := { s.core with tkx := { s.tkx with cur := none } }

theorem aside_of_core {s t : State} (h : t.core = s.core) : t.aside = s.aside := show t.core.aside = s.core.aside from congrArg State.aside h

theorem foldl_aside {α : Type} (f : State → α → State) (l : List α) (s : State) (h : ∀ s a, (f s a).aside = s.aside) :
    (l.foldl f s).aside = s.aside := by
  induction l generalizing s with
  | nil => rfl
  | cons a l ih => exact (ih _).trans (h s a)

theorem keepDigest_aside (typ : Nat) (us : List Unit512) (s : State) : (keepDigest typ us s).aside = s.aside := by
  unfold keepDigest
  split
  · rfl
  · split
    · rfl
    · rfl

theorem noteRing_aside (n seq : Nat) (s : State) : (noteRing n seq s).aside = s.aside := by
  unfold noteRing
  split
  · split <;> rfl
  · rfl

theorem ringRec_aside (n typ seq : Nat) (us : List Unit512) (stamp tick : Option Nat) (s : State) :
    (handRec n typ us stamp tick (noteRing n seq s)).aside = s.aside :=
  (aside_of_core (core_of_rest (handRec_rest ..))).trans (noteRing_aside ..)

theorem putRec_aside (t : Tick) (s : State) (r : EmitRec) : (putRec t s r).aside = s.aside := by
  unfold putRec
  split
  · rfl
  · refine (ringRec_aside ..).trans ?_
    split
    · rfl
    · exact keepDigest_aside ..

theorem putAligned_aside (t : Tick) (s : State) (e : Nat × EpEntry) : (putAligned t s e).aside = s.aside := by
  unfold putAligned
  split
  · rfl
  · exact (ringRec_aside ..).trans (keepDigest_aside ..)

theorem writeRecs_aside (s : State) : (writeRecs s).aside = s.aside := by
  unfold writeRecs
  split
  · rfl
  · split
    · rfl
    · exact (foldl_aside _ _ _ fun _ _ => putRec_aside ..).trans (foldl_aside _ _ _ fun _ _ => putAligned_aside ..)

theorem effect_emitRings {e : TEntry} {c : Cur} {t : Tick} {s : State} (h : AtWork .emitRings e c t s) :
    effect e s = modCur (fun c => { c with doneRings := true }) (writeRecs s) := by
  simp only [effect, h.work]
  exact h.inCur _

/-- The tick stays in progress as its records are written. -/
theorem writeRecs_cur {c : Cur} {s : State} (h : s.tkx.cur = some c) : ∃ d, (writeRecs s).tkx.cur = some d := by
  have hidle : (writeRecs s).tkx.cur.isNone = s.tkx.cur.isNone := (congrArg Bearing.idle (writeRecs_bearing s) :)
  rw [h] at hidle
  exact Option.isSome_iff_exists.mp (Option.isNone_eq_false_iff.mp hidle)

/-! A port's frames (R124, R125, R176) -/

/-- Port `k`'s frames of EMIT are handed over. -/
def fedPort (e : TEntry) (s : State) : State := updEntry { e with fed := true } (fun x => { x with fed := true }) (feedPort e (accountEmits s))

theorem emitComplete_port {k : Nat} {e : TEntry} {s : State} (hrun : runningWork (fun w => portOfWork w = some k) s = some e) (hpause : pausedNow s k = false)
    (hflow : e.flow = none) (hfed : e.fed = false) : emitComplete (some k) s =
      if fifoBlocked (feedPort e (accountEmits s)) { e with fed := true } k then fedPort e s else completeTask { e with fed := true } (fedPort e s) := by
  have hhead : atHead (accountEmits s) e = true := by rw [atHead, hflow]
  simp only [emitComplete, hrun, emitPortComplete, hpause, hfed, hhead]
  rfl

theorem fedPort_steady (e : TEntry) (s : State) : (fedPort e s).kst.slots = s.kst.slots ∧ (fedPort e s).tbu.free = s.tbu.free ∧
    (fedPort e s).aln.ticks = s.aln.ticks ∧ (fedPort e s).tkx.cur = s.tkx.cur := by
  obtain ⟨htkx, hticks, hslots, hfree⟩ := Stays.of_bench (feedPort_bench e (accountEmits s))
  have h := accountEmits_steady s
  exact ⟨hslots.trans (slots_of_steady h), hfree.trans (congrArg Tbu.free (tbu_of_steady h)), hticks.trans (congrArg Aln.ticks (aln_of_steady h)),
    (congrArg Tkx.cur htkx :).trans (cur_of_steady h)⟩

/-- The task's entry goes on as handed over. -/
theorem fedPort_entry {e : TEntry} {s : State} (he : e ∈ s.tkx.entries) (hst : e.st = .running) :
    ∃ y ∈ (fedPort e s).tkx.entries, sameEntry y e = true ∧ y.fed = true ∧ y.st = .running := by
  have hlisted : ∃ y ∈ (accountEmits s).tkx.entries, sameEntry y e = true ∧ y.st = .running := by
    unfold accountEmits
    split
    · exact ⟨e, he, by simp [sameEntry], hst⟩
    · refine ⟨_, List.mem_map_of_mem he, ?_⟩
      split
      · exact ⟨by simp [sameEntry], hst⟩
      · exact ⟨by simp [sameEntry], hst⟩
  obtain ⟨y, hy, hsame, hrun⟩ := hlisted
  have hfeed : y ∈ (feedPort e (accountEmits s)).tkx.entries := by
    rw [(Stays.of_bench (feedPort_bench e (accountEmits s))).tkx]
    exact hy
  refine ⟨{ y with fed := true }, ?_, hsame, rfl, hrun⟩
  have hmem := List.mem_map_of_mem (f := fun x => if sameEntry x { e with fed := true } then { x with fed := true } else x) hfeed
  rwa [if_pos (by exact hsame)] at hmem

theorem effect_emitPort {k : Nat} {e : TEntry} (hwork : e.work = .emitPort k) (hfed : e.fed = true) (s : State) :
    effect e s = modCur (fun c => if c.g = e.g then { c with donePorts := k :: c.donePorts } else c) s := by
  simp only [effect, hwork, hfed]
  rfl

/-! Queued updates (R300) -/

theorem writeNow_core (t : Tick) (l : List EmitRec) (s : State) : (writeNow t l s).core = s.core := by
  refine foldl_core _ _ _ fun u r => ?_
  split
  · exact core_of_rest (handRec_rest ..)
  · rfl

theorem readyDefer_steady (k g seq : Nat) (s : State) : (readyDefer k g seq s).steady = s.steady := by
  unfold readyDefer
  split
  · rfl
  · exact readyAll_steady ..

/-- Another update that waits makes its task ready again, and no more. -/
theorem effect_osmDeferred {k : Nat} {e : TEntry} (h : e.work = .osmDeferred k) (s : State) : (effect e s).steady = (osmDeferWork k s).steady := by
  simp only [effect, h]
  split
  · exact readyDefer_steady ..
  · rfl

/-- Location processes its oldest queued tick. -/
theorem osmDeferWork_loc {x : LocIn} {q : List LocIn} {s : State} (h : s.osm.locQueue = x :: q) :
    (osmDeferWork 8 s).osm.locQueue = q ∧ (osmDeferWork 8 s).osm.prev = some x ∧ Stays s (osmDeferWork 8 s) := by
  have hwork : osmDeferWork 8 s = locationTick x { s with osm := { s.osm with locQueue := q } } := by
    simp only [osmDeferWork, h]
    rfl
  rw [hwork]
  exact ⟨rfl, rfl, .of_bench rfl⟩

/-- The oldest queued update of a set leaves the queue as it is processed. -/
theorem osmDeferWork_set {k : Nat} {m : OsmSet} {x : OsmIn} {q : List OsmIn} {s : State} (hk : k < 8) (hm : osmSetOf s k = some m) (hq : m.queue = x :: q) :
    HasQueue k q (osmDeferWork k s) ∧ Stays s (osmDeferWork k s) := by
  have hput : HasQueue k q (putSet k { m with queue := q } s) :=
    putSet_hasQueue (e := { m with queue := q }) (show m.valid = true from osmSetOf_valid hm) rfl s
  have hupdate := updateSet_hasQueue hput x markDeferred
  have hbench : Stays s (updateSet k x markDeferred (putSet k { m with queue := q } s)).1 := .of_bench ((updateSet_bench ..).trans rfl)
  unfold osmDeferWork
  rw [if_neg (by omega), hm]
  dsimp only
  rw [hq]
  dsimp only
  generalize updateSet k x markDeferred (putSet k { m with queue := q } s) = r at hupdate hbench ⊢
  have hkept : Kept r.1 (writeNow (pastTick x.g x.seq r.1) (osmEmit r.2 r.1) (osmDigests k r.2 r.1)) :=
    (osmDigests_kept k r.2 r.1).trans (.of_core (writeNow_core ..))
  generalize writeNow (pastTick x.g x.seq r.1) (osmEmit r.2 r.1) (osmDigests k r.2 r.1) = w at hkept ⊢
  have hsets : w.osm.sets = r.1.osm.sets := congrArg Osm.sets hkept.osm
  split
  · exact ⟨hupdate.of_sets hsets, hbench.trans hkept.stays⟩
  · exact ⟨hupdate.of_sets hsets, (hbench.trans hkept.stays).trans (.of_bench rfl)⟩

/-! A task that ends, as the Helm sees it -/

section
variable {i : Instr} {dt : Nat} {s : State} {op : State → State} {e : TEntry} {u : State}
  (hexec : exec i s = run dt (onTick op) s) (hready : (elapse dt s).sys.ready = true) (hop : op (elapse dt s) = completeTask e u)
include hexec hready hop

theorem exec_held {n : Nat} (hflow : e.flow = some n) : exec i s = .next (drainMirrored (settle (settle (ended e u)))) := by
  rw [exec_onTick hexec hready, hop, completeTask_flow (by simp [hflow])]

theorem exec_over (hflow : e.flow = none) : exec i s = .next (drainMirrored (settle (settle (effect e (ended e u))))) := by
  rw [exec_onTick hexec hready, hop, completeTask_free hflow]

end

end Sys2Proof.Machine
end

section
/-! SUPPORT. Tasks of the engines and of EMIT that end for the tick in progress: O48 (R51, R52, R60, R63, R66, R300). -/

namespace Sys2Proof.Machine

/-! What each task leaves once it has ended -/

section
variable {k : Nat} {e : TEntry} {c : Cur} {t : Tick} {s : State}

theorem endedCur_of_atWork {w : Work} (h : AtWork w e c t s) : (ended e s).tkx.cur = some c := (cur_of_steady (ended_steady e s)).trans h.cur

theorem dfcTask_ends (h : AtWork (.dfc k) e c t s) : Over e s (effect e (ended e s)) ∧
    (effect e (ended e s)).tkx.cur.map Cur.doneDfc = some (k :: c.doneDfc) ∧ (effect e (ended e s)).dfc = (dfcGroup t k (ended e s)).dfc := by
  have hbench : Stays (ended e s) (dfcGroup t k (ended e s)) := .of_bench (dfcGroup_bench ..)
  rw [effect_dfc h.ended]
  refine ⟨over_of_stays hbench _, ?_, rfl⟩
  rw [modCur_cur (c := c) ((congrArg Tkx.cur hbench.tkx :).trans (endedCur_of_atWork h))]
  rfl

theorem osmTask_ends (h : AtWork (.osm k) e c t s) : Over e s (effect e (ended e s)) ∧
    (effect e (ended e s)).tkx.cur.map Cur.doneOsm = some (k :: c.doneOsm) := by
  have hstays := osmWork_stays t k (ended e s)
  rw [effect_osm h.ended]
  refine ⟨over_of_stays hstays _, ?_⟩
  rw [modCur_cur (c := c) ((congrArg Tkx.cur hstays.tkx :).trans (endedCur_of_atWork h))]
  rfl

theorem modCur_locationTick (f : Cur → Cur) (x : LocIn) (s : State) :
    (modCur f (locationTick x s)).osm.prev = some x ∧ (modCur f (locationTick x s)).hif = s.hif := ⟨rfl, rfl⟩

theorem locationTask_ends (h : AtWork .osmLocation e c t s) : Over e s (effect e (ended e s)) ∧
    (effect e (ended e s)).tkx.cur.map Cur.doneOsm = some (8 :: c.doneOsm) ∧ (effect e (ended e s)).osm.prev = some (locRead s.osm t.g t.view) ∧
    (effect e (ended e s)).hif = (ended e s).hif := by
  have hbench : Stays (ended e s) (locationTick (locRead (ended e s).osm t.g t.view) (ended e s)) := .of_bench (locationTick_bench ..)
  rw [effect_osmLocation h.ended]
  obtain ⟨hprev, hhif⟩ := modCur_locationTick (fun c => { c with doneOsm := 8 :: c.doneOsm }) (locRead (ended e s).osm t.g t.view) (ended e s)
  refine ⟨over_of_stays hbench _, ?_, hprev.trans (by rw [osm_of_steady (ended_steady e s)]), hhif⟩
  rw [modCur_cur (c := c) ((congrArg Tkx.cur hbench.tkx :).trans (endedCur_of_atWork h))]
  rfl

theorem ringsTask_ends (h : AtWork .emitRings e c t s) : Over e s (effect e (ended e s)) ∧
    (effect e (ended e s)).tkx.cur.map Cur.doneRings = some true ∧ (effect e (ended e s)).net = s.net := by
  have haside := writeRecs_aside (ended e s)
  obtain ⟨d, hd⟩ := writeRecs_cur (endedCur_of_atWork h)
  rw [effect_emitRings h.ended]
  refine ⟨over_of_parts (congrArg (fun u : State => u.kst.slots) haside :) (congrArg (fun u : State => u.tbu.free) haside :)
    (congrArg (fun u : State => u.tkx.entries) haside :) (congrArg (fun u : State => u.aln.ticks) haside :), ?_, ?_⟩
  · rw [modCur_cur hd]
    rfl
  · have hnet : (writeRecs (ended e s)).net = (ended e s).net := (congrArg State.net haside :)
    exact hnet.trans (net_of_steady (ended_steady e s))

end

/-- The group's chains move on by the tick's values; no other chain moves. -/
theorem dfcTask_chains {k : Nat} {e : TEntry} {c : Cur} {t : Tick} {s : State} (h : AtWork (.dfc k) e c t s) (hnodup : (s.dfc.chains.map Prod.fst).Nodup) :
    (∀ j, j / 256 ≠ k → lookupK (effect e (ended e s)).dfc.chains j = lookupK s.dfc.chains j) ∧
      ∀ x ∈ s.dfc.chains, x.1 / 256 = k → lookupK (effect e (ended e s)).dfc.chains x.1 = some (tickedChain t s x) := by
  have hended := ended_steady e s
  have hchains : (ended e s).dfc.chains = s.dfc.chains := (congrArg (fun u : State => u.dfc.chains) hended :)
  have hing : (ended e s).ing = s.ing := (congrArg State.ing hended :)
  obtain ⟨hother, hmine⟩ := dfcGroup_chains (s := ended e s) (by rwa [hchains]) t k
  obtain ⟨-, -, hdfc⟩ := dfcTask_ends h
  rw [hdfc]
  rw [hchains] at hother hmine
  exact ⟨hother, fun x hx hk => (hmine x hx hk).trans (by rw [tickedChain_congr hing])⟩

/-! A SEP task past its deadline (R51) -/

theorem lateCnt_of_steady {s u : State} (h : u.steady = s.steady) : u.tkx.phaseLateCnt = s.tkx.phaseLateCnt :=
  (congrArg (fun v : State => v.tkx.phaseLateCnt) h :)

/-- The state in which a SEP task ends, once its lateness is counted. -/
def sepLate (e : TEntry) (c : Cur) (s : State) : State :=
  if sepDeadline s c < s.tbu.free then phaseLate (some e) 2 (s.tbu.free - sepDeadline s c) c.seq s else s

def lateCount (c : Cur) (s : State) : Word := if sepDeadline s c < s.tbu.free then satAdd s.tkx.phaseLateCnt 1 else s.tkx.phaseLateCnt

theorem sepComplete_runs {e : TEntry} {c : Cur} {t : Tick} {s : State} (h : runningCur (· = .sep) s = some (e, c, t)) :
    sepComplete s = completeTask e (sepLate e c s) := by
  simp only [sepComplete, h, sepLate]

theorem sepLate_steady (e : TEntry) (c : Cur) (s : State) :
    (sepLate e c s).steady = { s with tkx := { s.tkx with phaseLateCnt := lateCount c s } }.steady := by
  unfold sepLate lateCount
  split
  · exact phaseLate_steady ..
  · rfl

theorem sepLate_flows (e : TEntry) (c : Cur) (s : State) : (sepLate e c s).tkx.flows = s.tkx.flows := by
  unfold sepLate
  split
  · exact phaseLate_flows ..
  · rfl

section
variable {n : Word} {s u : State} (h : u.steady = { s with tkx := { s.tkx with phaseLateCnt := n } }.steady)
include h

/-- The lateness of a task is a count and an event of the Helm. -/
theorem parts_of_lateCount : u.kst.slots = s.kst.slots ∧ u.tbu.free = s.tbu.free ∧ u.tkx.cur = s.tkx.cur ∧ u.aln = s.aln ∧ u.tkx.phaseLateCnt = n :=
  ⟨(slots_of_steady h :), (congrArg Tbu.free (tbu_of_steady h) :), (cur_of_steady h :), (aln_of_steady h :),
    (congrArg (fun u : State => u.tkx.phaseLateCnt) h :)⟩

theorem engines_of_lateCount : u.dfc = s.dfc ∧ u.sep = s.sep ∧ u.lse = s.lse ∧ u.osm = s.osm ∧ u.net = s.net :=
  ⟨(congrArg State.dfc h :), (congrArg State.sep h :), (lse_of_steady h :), (osm_of_steady h :), (net_of_steady h :)⟩

end

theorem sepLate_held {e : TEntry} (hst : e.st = .running) {n : Nat} (hflow : e.flow = some n) (c : Cur) (s : State) :
    Held e n s (ended e (sepLate e c s)) := by
  obtain ⟨lslots, lfree, lcur, -, -⟩ := parts_of_lateCount (sepLate_steady e c s)
  obtain ⟨ldfc, lsep, llse, losm, lnet⟩ := engines_of_lateCount (sepLate_steady e c s)
  obtain ⟨hslots, hfree, hdone, hcur, hdfc, hsep, hlse, hosm, hnet⟩ := ended_held hst hflow (sepLate e c s)
  rw [flowOf_congr (sepLate_flows e c s)] at hdone
  exact ⟨hslots.trans lslots, hfree.trans lfree, hdone, hcur.trans lcur, hdfc.trans ldfc, hsep.trans lsep, hlse.trans llse, hosm.trans losm, hnet.trans lnet⟩

theorem sepTask_ends {e : TEntry} {c : Cur} {t : Tick} {s : State} (h : AtWork .sep e c t s) :
    let x := effect e (ended e (sepLate e c s))
    Over e s x ∧ x.tkx.cur.map Cur.doneSep = some true ∧ x.sep.outSample = t.outZones ∧ x.tkx.phaseLateCnt = lateCount c s := by
  obtain ⟨lslots, lfree, lcur, laln, llate⟩ := parts_of_lateCount (sepLate_steady e c s)
  generalize sepLate e c s = u at lslots lfree lcur laln llate ⊢
  have hwork : AtWork .sep e c t u := h.congr lcur laln
  have hbench : Stays (ended e u) (sepWork t (ended e u)).1 := .of_bench (sepWork_bench ..)
  have hcount : (sepWork t (ended e u)).1.tkx.phaseLateCnt = u.tkx.phaseLateCnt :=
    (congrArg Tkx.phaseLateCnt hbench.tkx).trans (lateCnt_of_steady (ended_steady e u))
  have hcur := (congrArg Tkx.cur hbench.tkx).trans (endedCur_of_atWork hwork)
  have hsample := sepWork_outSample t (ended e u)
  rw [effect_sep hwork.ended]
  generalize sepWork t (ended e u) = r at hbench hcount hcur hsample
  obtain ⟨hslots, hfree, hgone, hticks⟩ := over_of_stays hbench fun c => { c with doneSep := true, recs := c.recs ++ r.2 }
  refine ⟨⟨hslots.trans lslots, hfree.trans lfree, hgone, hticks.trans (congrArg Aln.ticks laln)⟩, ?_, hsample, hcount.trans llate⟩
  rw [modCur_cur hcur]
  rfl

/-! Queued updates -/

section
variable {k : Nat} {d : TEntry} {s : State}

/-- A running task's work, as a completion row finds it. -/
theorem work_of_runningWork {p : Work → Bool} {e : TEntry} (h : runningWork p s = some e) : e ∈ s.tkx.entries ∧ e.st = .running ∧ p e.work = true := by
  have hfound := List.find?_some h
  simp only [Bool.and_eq_true, decide_eq_true_eq] at hfound
  exact ⟨List.mem_of_find?_eq_some h, hfound⟩

theorem osmDeferComplete_runs (h : runningWork (· = .osmDeferred k) s = some d) : osmDeferComplete k s = completeTask d s := by
  rw [osmDeferComplete, h]

theorem deferredLoc_ends (hwork : d.work = .osmDeferred 8) {x : LocIn} {q : List LocIn} (h : s.osm.locQueue = x :: q) :
    let u := effect d (ended d s)
    u.kst.slots = s.kst.slots ∧ u.tbu.free = s.tbu.free ∧ u.osm.locQueue = q ∧ u.osm.prev = some x := by
  have hended := ended_steady d s
  have hqueue : (ended d s).osm.locQueue = x :: q := by rwa [osm_of_steady hended]
  obtain ⟨hloc, hprev, -, -, hslots, hfree⟩ := osmDeferWork_loc hqueue
  intro u
  have hu : u.steady = (osmDeferWork 8 (ended d s)).steady := effect_osmDeferred hwork (ended d s)
  exact ⟨(slots_of_steady hu).trans (hslots.trans (slots_of_steady hended)),
    (congrArg Tbu.free (tbu_of_steady hu)).trans (hfree.trans (congrArg Tbu.free (tbu_of_steady hended))),
    (congrArg Osm.locQueue (osm_of_steady hu)).trans hloc, (congrArg Osm.prev (osm_of_steady hu)).trans hprev⟩

theorem deferredSet_ends (hwork : d.work = .osmDeferred k) (hk : k < 8) {m : OsmSet} {x : OsmIn} {q : List OsmIn} (hm : osmSetOf s k = some m)
    (hq : m.queue = x :: q) :
    let u := effect d (ended d s)
    u.kst.slots = s.kst.slots ∧ u.tbu.free = s.tbu.free ∧ (osmSetOf u k).map OsmSet.queue = some q := by
  have hended := ended_steady d s
  have hset : osmSetOf (ended d s) k = some m := by rwa [osmSetOf, osm_of_steady hended]
  obtain ⟨hqueue, -, -, hslots, hfree⟩ := osmDeferWork_set hk hset hq
  intro u
  have hu : u.steady = _ := effect_osmDeferred hwork (ended d s)
  obtain ⟨m', hm', hq'⟩ := hqueue.of_sets (u := u) (congrArg Osm.sets (osm_of_steady hu))
  exact ⟨(slots_of_steady hu).trans (hslots.trans (slots_of_steady hended)),
    (congrArg Tbu.free (tbu_of_steady hu)).trans (hfree.trans (congrArg Tbu.free (tbu_of_steady hended))), by rw [hm', Option.map_some, hq']⟩

end

/-! A port's frames -/

theorem fedTask_ends {k : Nat} {e : TEntry} {c : Cur} {s : State} (hcur : s.tkx.cur = some c) (hg : c.g = e.g) (hwork : e.work = .emitPort k) :
    let x := effect { e with fed := true } (ended { e with fed := true } (fedPort e s))
    x.kst.slots = s.kst.slots ∧ x.tbu.free = s.tbu.free ∧ (e.reReady = false → ∀ y ∈ x.tkx.entries, sameEntry y e = false) ∧
      x.net = (feedPort e (accountEmits s)).net ∧ x.tkx.cur.map Cur.donePorts = some (k :: c.donePorts) := by
  have hended := ended_steady { e with fed := true } (fedPort e s)
  obtain ⟨hslots, hfree, -, hfed⟩ := fedPort_steady e s
  intro x
  have hx : x = _ := effect_emitPort (e := { e with fed := true }) hwork rfl _
  rw [hx]
  refine ⟨(slots_of_steady hended).trans hslots, (congrArg Tbu.free (tbu_of_steady hended)).trans hfree, fun hre => ended_gone (e := { e with fed := true }) hre _,
    (net_of_steady hended).trans rfl, ?_⟩
  rw [modCur_cur ((cur_of_steady hended).trans (hfed.trans hcur)), Option.map_some, if_pos hg]

/-- Settles O48: each task that ends leaves its result, and one of a flow waits for its release. -/
theorem engineTasksEnd : Obligations.EngineTasksEnd := by
  unfold Obligations.EngineTasksEnd
  intro dt k e c t s s0 hready hnodup runs after gone held ends idle
  have hheld : ∀ {i op d u}, exec i s = run dt (onTick op) s → op s0 = completeTask d u → (∀ n, d.flow = some n → Held d n s0 (ended d u)) → held i d := by
    intro i op d u hexec hop h n hflow
    obtain ⟨hslots, hfree, hdone, hcur, hdfc, hsep, hlse, hosm, hnet⟩ := h n hflow
    exact ⟨_, exec_held hexec hready hop hflow, hslots, hfree, hdone, hcur, hdfc, hsep, hlse, hosm, hnet⟩
  have hafter : ∀ {i op d u P}, exec i s = run dt (onTick op) s → op s0 = completeTask d u → d.flow = none →
      (effect d (ended d u)).kst.slots = s0.kst.slots ∧ (effect d (ended d u)).tbu.free = s0.tbu.free ∧ P (effect d (ended d u)) → after i P :=
    fun hexec hop hflow h => ⟨_, exec_over hexec hready hop hflow, h⟩
  have hends : ∀ {i op u P}, exec i s = run dt (onTick op) s → op s0 = completeTask e u → (∀ n, e.flow = some n → Held e n s0 (ended e u)) →
      Over e s0 (effect e (ended e u)) ∧ P (effect e (ended e u)) → ends i P := fun hexec hop h ⟨⟨hslots, hfree, hgone, hticks⟩, hP⟩ =>
    ⟨hheld hexec hop h, fun hflow => hafter hexec hop hflow ⟨hslots, hfree, hgone, hticks, hP⟩⟩
  have hidle : ∀ {i op}, exec i s = run dt (onTick op) s → op s0 = s0 → exec i s = .next (drainMirrored (settle s0)) := fun hexec hop => by
    rw [exec_onTick hexec hready, hop]
  refine ⟨fun h => ?_, fun h => ?_, fun h => ?_, fun h => ?_, fun h => ?_, ?_, fun d x q h hq => ?_, fun d m x q h hk hm hq => ?_,
    fun h => hidle (i := .dfcCommitTaskComplete dt k) rfl (completeCur_idle h), fun h => hidle (i := .sepTaskComplete dt) rfl (by rw [sepComplete, h]),
    fun h => hidle (i := .osmUpdateComplete dt k) rfl (completeCur_idle h), fun h => hidle (i := .osmLocationComplete dt) rfl (completeCur_idle h),
    fun h => hidle (i := .emitComplete dt none) rfl (completeCur_idle h)⟩
  · have hwork := atWork_of_runningCur h
    obtain ⟨hover, hdone, -⟩ := dfcTask_ends hwork
    obtain ⟨hother, hmine⟩ := dfcTask_chains hwork hnodup
    exact hends (i := .dfcCommitTaskComplete dt k) rfl (completeCur_runs h) (fun n hflow => ended_held hwork.st hflow s0)
      ⟨hover, hdone, hother, fun j x hx hj => hmine (j, x) hx hj⟩
  · have hwork := atWork_of_runningCur h
    exact hends (i := .sepTaskComplete dt) rfl (sepComplete_runs h) (fun n hflow => sepLate_held hwork.st hflow c s0) (sepTask_ends hwork)
  · have hwork := atWork_of_runningCur h
    exact hends (i := .osmUpdateComplete dt k) rfl (completeCur_runs h) (fun n hflow => ended_held hwork.st hflow s0) (osmTask_ends hwork)
  · have hwork := atWork_of_runningCur h
    exact hends (i := .osmLocationComplete dt) rfl (completeCur_runs h) (fun n hflow => ended_held hwork.st hflow s0) (locationTask_ends hwork)
  · have hwork := atWork_of_runningCur h
    exact hends (i := .emitComplete dt none) rfl (completeCur_runs h) (fun n hflow => ended_held hwork.st hflow s0) (ringsTask_ends hwork)
  · intro runsPort fed
    refine ⟨fun h => hidle (i := .emitComplete dt (some k)) rfl (by simp only [emitComplete, h]),
      fun h hpause => hidle (i := .emitComplete dt (some k)) rfl (by simp only [emitComplete, show runningWork _ s0 = some e from h, emitPortComplete, hpause, if_true]),
      fun h hpause hcur hg hwork hflow hfed => ?_⟩
    have hop := emitComplete_port h hpause hflow hfed
    obtain ⟨he, hst, -⟩ := work_of_runningWork h
    refine ⟨fun hblock => ?_, fun hfree => ?_⟩
    · rw [show fifoBlocked (feedPort e (accountEmits s0)) { e with fed := true } k = true from hblock, if_pos rfl] at hop
      exact ⟨fedPort e s0, by rw [exec_onTick (i := .emitComplete dt (some k)) rfl hready, hop], rfl, (fedPort_steady e s0).2.2.2.trans hcur,
        fedPort_entry he hst⟩
    · rw [show fifoBlocked (feedPort e (accountEmits s0)) { e with fed := true } k = false from hfree] at hop
      exact hafter (i := .emitComplete dt (some k)) rfl hop hflow (fedTask_ends hcur hg hwork)
  · obtain ⟨-, hst, hwork⟩ := work_of_runningWork h
    exact ⟨hheld (i := .osmDeferredUpdate dt 8) rfl (osmDeferComplete_runs h) fun n hflow => ended_held hst hflow s0,
      fun hflow => hafter (i := .osmDeferredUpdate dt 8) rfl (osmDeferComplete_runs h) hflow (deferredLoc_ends (of_decide_eq_true hwork) hq)⟩
  · obtain ⟨-, hst, hwork⟩ := work_of_runningWork h
    exact ⟨hheld (i := .osmDeferredUpdate dt k) rfl (osmDeferComplete_runs h) fun n hflow => ended_held hst hflow s0,
      fun hflow => hafter (i := .osmDeferredUpdate dt k) rfl (osmDeferComplete_runs h) hflow (deferredSet_ends (of_decide_eq_true hwork) hk hm hq)⟩

end Sys2Proof.Machine
end

section
/-! SUPPORT. What the Bell leaves alone as it evaluates its rules and publishes what they give (R335 to R338). -/

namespace Sys2Proof.Machine

/-- A state without the Bell, the tick in progress and what `core` leaves out. -/
def State.mute (s : State) : State := { s.aside with ala := Ala.reset }

theorem mute_of_aside {s t : State} (h : t.aside = s.aside) : t.mute = s.mute := show t.aside.mute = s.aside.mute from congrArg State.mute h

theorem mute_of_core {s t : State} (h : t.core = s.core) : t.mute = s.mute := mute_of_aside (aside_of_core h)

theorem lse_of_mute {s t : State} (h : t.mute = s.mute) : t.lse = s.lse := (congrArg State.lse h :)

theorem aln_of_mute {s t : State} (h : t.mute = s.mute) : t.aln = s.aln := (congrArg State.aln h :)

theorem foldl_mute {α : Type} (f : State → α → State) (l : List α) (s : State) (h : ∀ s a, (f s a).mute = s.mute) : (l.foldl f s).mute = s.mute := by
  induction l generalizing s with
  | nil => rfl
  | cons a l ih => exact (ih _).trans (h s a)

theorem foldl_fst_mute {α β : Type} (f : State × β → α → State × β) (l : List α) (a : State × β) (h : ∀ a x, (f a x).1.mute = a.1.mute) :
    (l.foldl f a).1.mute = a.1.mute := by
  induction l generalizing a with
  | nil => rfl
  | cons x l ih => exact (ih _).trans (h a x)

/-! Records -/

theorem alaEvent_mute (k : Nat) (s : State) : (alaEvent k s).mute = s.mute := by
  unfold alaEvent
  extract_lets up ala t
  split
  · exact (mute_of_core (raiseBlock_core 9 t)).trans rfl
  · rfl

/-- An event with its count. -/
theorem alaNote_mute (k j n : Nat) (s : State) : (alaEvent k (alaCnt j n s)).mute = s.mute := (alaEvent_mute ..).trans rfl

theorem writeAlarm_mute (s : State) (e : AEv) : (writeAlarm s e).mute = s.mute := by
  unfold writeAlarm
  extract_lets us t u set confirm
  have ht : t.mute = s.mute := by
    show (if e.inDigest then keepDigest e.typ.code (alarmUnits s e (eventMarks s e) 0) s else s).mute = _
    split
    · exact mute_of_aside (keepDigest_aside ..)
    · rfl
  have hu : u.mute = s.mute := by
    refine Eq.trans ?_ ht
    show (match ringSel t.ala.outRing with | some n => handRec n e.typ.code us none (some e.seq) (noteRing n e.seq t) | none => t).mute = _
    split
    · exact mute_of_aside (ringRec_aside ..)
    · rfl
  clear_value u
  have hset : set.mute = s.mute := (alaNote_mute ..).trans hu
  have hconfirm : confirm.mute = s.mute := (alaNote_mute ..).trans hu
  split
  · split
    · exact (alaNote_mute ..).trans hset
    · split
      · exact hset
      · exact hset
  · exact (alaNote_mute ..).trans hu
  · split
    · exact (alaNote_mute ..).trans hconfirm
    · exact hconfirm
  · exact (alaNote_mute ..).trans hu

theorem publish_mute (evs : List AEv) (s : State) : (publish evs s).mute = s.mute := (foldl_mute _ _ _ writeAlarm_mute).trans rfl

/-! Rules -/

theorem keepEnded_mute (i : Inst) (g seq : Nat) (s : State) : (keepEnded i g seq s).1.mute = s.mute := by
  unfold keepEnded
  split
  · split <;> rfl
  · rfl

theorem releaseRule_mute (k g seq ops cause rev : Nat) (s : State) : (releaseRule k g seq ops cause rev s).1.mute = s.mute := by
  unfold releaseRule
  dsimp only
  split
  · rfl
  · split
    · rfl
    · exact (keepEnded_mute ..).trans rfl

theorem retractRule_mute (k g seq ops rev : Nat) (s : State) : (retractRule k g seq ops rev s).1.mute = s.mute := by
  unfold retractRule
  dsimp only
  split <;> rfl

theorem evalRule_mute (t : Tick) (dec2 : Bool) (before : Conds) (a : State × List AEv) (x : Nat × BitVec 256) :
    (evalRule t dec2 before a x).1.mute = a.1.mute := by
  unfold evalRule
  dsimp only
  split
  · rfl
  · split
    · exact releaseRule_mute ..
    · rfl

theorem reviseRule_mute (t : Tick) (rev : Nat) (d : D2Rec) (a : State × List AEv) (x : Nat × BitVec 256) :
    (reviseRule t rev d a x).1.mute = a.1.mute := by
  unfold reviseRule
  dsimp only
  split
  · rfl
  · split
    · split
      · exact retractRule_mute ..
      · exact releaseRule_mute ..
    · rfl

theorem reviseInst_mute (t : Tick) (rev : Nat) (res : LseRes) (a : State × List AEv) (i : Inst) : (reviseInst t rev res a i).1.mute = a.1.mute := by
  unfold reviseInst
  dsimp only
  split
  · rfl
  · split
    · rfl
    · split <;> rfl

/-! Decisions and revisions -/

theorem decideD1_mute (t : Tick) (dfc : Bool) (s : State) : (decideD1 t dfc s).mute = s.mute := by
  unfold decideD1
  exact (publish_mute ..).trans ((foldl_fst_mute _ _ _ (fun _ _ => evalRule_mute ..)).trans rfl)

/-- D2 also ends the marks of deferred identifications. -/
theorem decideD2_mute (t : Tick) (res : Option LseRes) (osm : Bool) (s : State) :
    ∃ u : State, u.mute = s.mute ∧ decideD2 t res osm s = { u with osm := { u.osm with deferMark := if osm then [] else u.osm.deferMark } } := by
  refine ⟨?u, ?_, ?_⟩
  rotate_left 2
  · unfold decideD2
    rfl
  · exact (publish_mute ..).trans ((foldl_fst_mute _ _ _ (fun _ _ => evalRule_mute ..)).trans rfl)

theorem reviseAlarms_mute (t : Tick) (rev : Nat) (res : LseRes) (s : State) : (reviseAlarms t rev res s).mute = s.mute := by
  unfold reviseAlarms
  split
  · rfl
  · split
    · exact (publish_mute ..).trans ((foldl_fst_mute _ _ _ (fun _ _ => reviseRule_mute ..)).trans rfl)
    · exact (publish_mute ..).trans (foldl_fst_mute _ _ _ (fun _ _ => reviseInst_mute ..))

end Sys2Proof.Machine
end

section
/-! SUPPORT. The Estimator's tasks: SOLVE, ANALYZE, the two halves of a re-solve, and O49 (R66, R208, R209, R257 to R259, R269, R270, R276). -/

namespace Sys2Proof.Machine

/-! Counters and events of a result (R261, R264, R278) -/

/-- A tick without what its results are counted by. -/
def Tick.unseen (t : Tick) : Tick := { t with limitSeen := false, unobSeen := false }

/-- A state without what the counting of a result changes. -/
def State.tallied (s : State) : State :=
  { s.core with lse := { s.lse with cnt := [], event := 0#32 }, aln := { s.aln with ticks := s.aln.ticks.map Tick.unseen } }

theorem tallied_of_core {s t : State} (h : t.core = s.core) : t.tallied = s.tallied := show t.core.tallied = s.core.tallied from congrArg State.tallied h

theorem lseEvent_lse (k : Nat) (s : State) : (lseEvent k s).lse = { s.lse with event := setBit s.lse.event k } := by
  unfold lseEvent
  extract_lets up lse t
  split
  · exact (congrArg State.lse (raiseBlock_core 7 t) :)
  · rfl

theorem lseCnt_tallied (k n : Nat) (s : State) : (lseCnt k n s).tallied = s.tallied := rfl

theorem lseEvent_tallied (k : Nat) (s : State) : (lseEvent k s).tallied = s.tallied := by
  unfold lseEvent
  extract_lets up lse t
  split
  · exact (tallied_of_core (raiseBlock_core 7 t)).trans rfl
  · rfl

theorem modTick_tallied (g : Nat) (f : Tick → Tick) (s : State) (h : ∀ t : Tick, (f t).unseen = t.unseen) : (modTick g f s).tallied = s.tallied := by
  have hmap : (s.aln.ticks.map fun t : Tick => if t.g = g then f t else t).map Tick.unseen = s.aln.ticks.map Tick.unseen := by
    rw [List.map_map]
    refine List.map_congr_left fun t _ => ?_
    rw [Function.comp_apply, apply_ite Tick.unseen, h, ite_self]
  show { s.tallied with aln := { s.aln with ticks := (s.aln.ticks.map fun t : Tick => if t.g = g then f t else t).map Tick.unseen } } = _
  rw [hmap]
  rfl

theorem lseTally_tallied (t : Tick) (v : Solve) (r : LseRes) (s : State) : (lseTally t v r s).tallied = s.tallied := by
  unfold lseTally
  extract_lets ev trunc unob u w
  have hev : ∀ b k x, (ev b k x).tallied = x.tallied := fun b k x => by
    show (if b then lseEvent k x else x).tallied = _
    split
    · exact lseEvent_tallied ..
    · rfl
  have hw : w.tallied = u.tallied := modTick_tallied _ _ u fun _ => rfl
  rw [hev, hev, hev, hev, hev, hw]
  simp only [u, lseCnt_tallied]

/-- A result counts no revision. -/
theorem lseTally_revisions (t : Tick) (v : Solve) (r : LseRes) (s : State) : nth (lseTally t v r s).lse.cnt 1 0#32 = nth s.lse.cnt 1 0#32 := by
  unfold lseTally
  extract_lets ev trunc unob u w
  have hev : ∀ b k x, (ev b k x).lse.cnt = x.lse.cnt := fun b k x => by
    show (if b then lseEvent k x else x).lse.cnt = _
    split
    · rw [lseEvent_lse]
    · rfl
  have hcnt : ∀ k n x, k ≠ 1 → nth (lseCnt k n x).lse.cnt 1 0#32 = nth x.lse.cnt 1 0#32 := fun k n x h => nth_modAt_ne h ..
  rw [hev, hev, hev, hev, hev]
  show nth u.lse.cnt 1 0#32 = _
  simp [u, hcnt]

theorem tickOf_tallied (s : State) (g : Nat) : tickOf s.tallied g = (tickOf s g).map Tick.unseen := by
  show (s.aln.ticks.map Tick.unseen).find? _ = _
  rw [List.find?_map]
  rfl

theorem tickOf_modTick (g : Nat) (f : Tick → Tick) (s : State) (h : ∀ t : Tick, (f t).g = t.g) : tickOf (modTick g f s) g = (tickOf s g).map f := by
  show (s.aln.ticks.map fun t => if t.g = g then f t else t).find? _ = _
  rw [List.find?_map, tickOf]
  have hp : ((fun t : Tick => decide (t.g = g)) ∘ fun t => if t.g = g then f t else t) = fun t => decide (t.g = g) := by
    funext t
    rw [Function.comp_apply, apply_ite Tick.g, h, ite_self]
  rw [hp]
  cases hfind : s.aln.ticks.find? fun t => decide (t.g = g) with
  | none => rfl
  | some t =>
    have hg : t.g = g := by simpa using List.find?_some hfind
    rw [Option.map_some, Option.map_some, if_pos hg]

/-! A residual invariant that fails (R259) -/

theorem removeEngine_lse (dom : Nat) (inv : Bool) (s : State) : (removeEngine dom inv s).lse = s.lse := by
  unfold removeEngine
  split
  · rfl
  · extract_lets left t
    have ht : t.lse = s.lse := lse_of_steady (cancelWhere_steady ..)
    split <;> exact ht

theorem coldEngine_cnt (s : State) : (coldEngine 7 s).lse.cnt = s.lse.cnt := rfl

/-- A restart of the Estimator keeps its counters. -/
theorem restartDomain_lse (x : FaultIn) (s : State) : (restartDomain x 7 s).1 = true ∧ (restartDomain x 7 s).2.lse.cnt = s.lse.cnt := by
  have heq : restartDomain x 7 s = (true, rerunEngine 7 (if inProgress s then coldEngine 7 (removeEngine 7 (x.code = 8) s) else s)) := rfl
  rw [heq]
  refine ⟨rfl, ?_⟩
  show (if inProgress s then coldEngine 7 (removeEngine 7 (x.code = 8) s) else s).lse.cnt = _
  split
  · exact (coldEngine_cnt _).trans (congrArg Lse.cnt (removeEngine_lse ..))
  · rfl

theorem endFatal_lse (id : Nat) (s : State) : (endFatal id s).lse = s.lse := by
  obtain ⟨u, heq, hquiet, -⟩ := endFatal_eq id s
  rw [heq]
  exact (congrArg State.lse (enterSafe_hulk u) :).trans (congrArg State.lse hquiet :)

theorem react_lse {x : FaultIn} {r : FaultRec} (hr : r.reaction = rSafe ∨ r.reaction = rRestart ∧ r.domain = 7) (s : State) : (react x r s).lse.cnt = s.lse.cnt := by
  unfold react
  rcases hr with hr | ⟨hr, hdom⟩
  · rw [if_pos hr]
    exact congrArg Lse.cnt (endFatal_lse ..)
  · rw [if_neg (by rw [hr]; decide), if_pos hr]
    extract_lets now w flt u
    obtain ⟨hok, hcnt⟩ := restartDomain_lse x u
    rw [hdom]
    show (if (restartDomain x 7 u).1 then (restartDomain x 7 u).2 else endFatal r.id (restartDomain x 7 u).2).lse.cnt = _
    rw [if_pos hok]
    exact hcnt.trans rfl

theorem lseInvariant_cnt {s : State} (hinit : s.sys.runState ≠ .init) (hmask : maskedNow s 7 = false) :
    (lseInvariant s).lse.cnt = modAt s.lse.cnt 10 (satAdd · 1) := by
  have henters : Enters (FaultIn.plain 0x08 7) s := enters_plain rfl rfl hinit (by decide) (.inr (by decide)) (.inl hmask)
  have hreaction : (faultRecord (FaultIn.plain 0x08 7) s).reaction = rSafe ∨
      (faultRecord (FaultIn.plain 0x08 7) s).reaction = rRestart ∧ (faultRecord (FaultIn.plain 0x08 7) s).domain = 7 := by
    cases hesc : escalates (FaultIn.plain 0x08 7) s with
    | true => exact .inl (faultRecord_reaction (.inl hesc))
    | false => exact .inr ⟨by unfold faultRecord; exact if_neg (by simp [hesc]), rfl⟩
  have hentered : (entered (FaultIn.plain 0x08 7) s).lse = s.lse := (congrArg State.lse (entered_quiet ..) :)
  rw [lseInvariant, raiseFault_enters henters, react_lse hreaction]
  show (lseEvent 6 (lseCnt 10 1 (entered (FaultIn.plain 0x08 7) s))).lse.cnt = _
  rw [lseEvent_lse]
  exact congrArg (fun l : Lse => modAt l.cnt 10 (satAdd · 1)) hentered

/-! SOLVE -/

theorem solveComplete_good {e : TEntry} {c : Cur} {t : Tick} {v : Solve} {s : State} (hrun : runningCur (· = .lseSolve) s = some (e, c, t))
    (hsolve : solveTick t 0 t.view s = some (v, true)) :
    solveComplete false s = completeTask e { s with lse := { s.lse with work := some v } } := by
  simp only [solveComplete, hrun, hsolve]
  rfl

theorem effect_lseSolve {e : TEntry} {c : Cur} {t : Tick} {s : State} (h : AtWork .lseSolve e c t s) :
    effect e s = modCur (fun c => { c with doneSolve := true }) s := by
  simp only [effect, h.work]
  exact h.inCur _

/-- The invariant's failure is counted, whatever then becomes of the task. -/
theorem solveComplete_bad {e : TEntry} {c : Cur} {t : Tick} {v : Solve} {ok b : Bool} {s : State} (hrun : runningCur (· = .lseSolve) s = some (e, c, t))
    (hsolve : solveTick t 0 t.view s = some (v, ok)) (hbad : ok = false ∨ b = true) :
    ∃ u, solveComplete b s = settle u ∧ u.lse = (lseInvariant s).lse := by
  have hmod : ∀ f g h (u : State), (modCur f (modTick g h u)).lse = u.lse := fun _ _ _ _ => rfl
  have hfails : (ok && !b) = false := by rcases hbad with rfl | rfl <;> simp
  simp only [solveComplete, hrun, hsolve, hfails]
  refine ⟨_, rfl, ?_⟩
  split
  · rfl
  · exact (hmod ..).trans (lse_of_steady (cancelWhere_steady ..))

/-! ANALYZE (R257, R258, R267, R276) -/

theorem effect_lseAnalyze {e : TEntry} {c : Cur} {t : Tick} {v : Solve} {s : State} (h : AtWork .lseAnalyze e c t s) (hwork : s.lse.work = some v) :
    effect e s = modCur (fun c => { c with doneAna := true, lseRes := (analyzeTick t v s).1, recs := c.recs ++ lseRecs t false (analyzeTick t v s).1 (analyzeTick t v s).2 })
      (analyzeTick t v s).2 := by
  simp only [effect, h.work]
  rw [h.inCur]
  simp only [hwork]

/-- The result, and the state it writes: counters and events apart, that of the analysis. -/
theorem analyzeTick_some {im : LseImage} {s : State} (h : s.lse.sec = some im) (t : Tick) (v : Solve) :
    (analyzeTick t v s).1 = some (lseAnalyze im s.lse.chiK.toNat t.bind v) ∧
      (analyzeTick t v s).2.tallied = (lseWriteBack t v (lseAnalyze im s.lse.chiK.toNat t.bind v) { s with lse := { s.lse with work := none } }).tallied := by
  simp only [analyzeTick, h]
  exact ⟨trivial, (lseCnt_tallied ..).trans ((lseCnt_tallied ..).trans (lseTally_tallied ..))⟩

section
variable {t : Tick} {v : Solve} {r : LseRes} {s u : State} (h : u.tallied = (lseWriteBack t v r { s with lse := { s.lse with work := none } }).tallied)
include h

theorem written_of_tallied : u.lse.work = none ∧ u.lse.variant = t.bind.variant ∧ u.lse.chi = r.chi ∧ u.lse.unobZones = r.unobZones ∧
    u.lse.hold = r.x.zipIdx.map fun p => if nth r.obs p.2 false then p.1 else c0 :=
  ⟨(congrArg (fun u : State => u.lse.work) h :), (congrArg (fun u : State => u.lse.variant) h :), (congrArg (fun u : State => u.lse.chi) h :),
    (congrArg (fun u : State => u.lse.unobZones) h :), (congrArg (fun u : State => u.lse.hold) h :)⟩

theorem apart_of_tallied : u.tkx = s.tkx ∧ u.kst.slots = s.kst.slots ∧ u.aln.ticks.map Tick.view = s.aln.ticks.map Tick.view := by
  have hticks : u.aln.ticks.map Tick.unseen = s.aln.ticks.map Tick.unseen := (congrArg (fun u : State => u.aln.ticks) h :)
  have hview := congrArg (List.map Tick.view) hticks
  rw [List.map_map, List.map_map] at hview
  exact ⟨(congrArg State.tkx h :), (congrArg (fun u : State => u.kst.slots) h :), hview⟩

end

/-! Re-solves (R208, R209, R270) -/

/-- The results that wait for their second halves. -/
def withRework (l : List Solve) (s : State) : State := { s with lse := { s.lse with rework := l } }

theorem resolve_found {w : Work} {g : Nat} {e : TEntry} {s : State} (h : findEntry (fun y => y.st = .running && y.work = w && y.g = g) s = some e) :
    e.work = w ∧ e.g = g := by
  have hfound := List.find?_some h
  simp only [Bool.and_eq_true, decide_eq_true_eq] at hfound
  exact ⟨hfound.1.2, hfound.2⟩

theorem completeOnce_free {e : TEntry} (h : e.flow = none) (s : State) : completeOnce e s = settle (effect e (ended { e with reReady := false } s)) := by
  simp only [completeOnce, h]
  rfl

/-- The second half is made ready, again where the first was. -/
theorem effect_resolveA {e : TEntry} {t : Tick} {s : State} (hwork : e.work = .resolveA) (htick : tickOf s e.g = some t) :
    (effect e s).lse = s.lse ∧ ∀ y ∈ s.tkx.tasks, y.work = .resolveB → Listed y.num e.g (effect e s) := by
  simp only [effect, hwork, htick]
  have hlse : (readyAll (· = .resolveB) e.g t.seq s).lse = s.lse := lse_of_steady (readyAll_steady ..)
  have hlisted : ∀ y ∈ s.tkx.tasks, y.work = .resolveB → Listed y.num e.g (readyAll (· = .resolveB) e.g t.seq s) :=
    fun y hy hB => readyAll_listed hy (decide_eq_true hB) ..
  split
  · refine ⟨hlse, fun y hy hB => (hlisted y hy hB).map fun x => ?_⟩
    split <;> exact ⟨rfl, rfl⟩
  · exact ⟨hlse, hlisted⟩

theorem effect_resolveB {e : TEntry} {t : Tick} {v : Solve} {s : State} (hwork : e.work = .resolveB) (htick : tickOf s e.g = some t)
    (hfind : s.lse.rework.find? (fun v => v.g = e.g) = some v) :
    effect e s = againResolve e t (revise t v (withRework (s.lse.rework.filter fun v => v.g ≠ e.g) s)) := by
  simp only [effect, hwork, htick, hfind]
  rfl

theorem alnEvent_ticks (k : Nat) (s : State) : (alnEvent k s).aln.ticks = s.aln.ticks ∧ (alnEvent k s).lse = s.lse := by
  unfold alnEvent
  extract_lets up aln t
  split
  · exact ⟨(congrArg (fun u : State => u.aln.ticks) (raiseBlock_core 5 t) :), (congrArg State.lse (raiseBlock_core 5 t) :)⟩
  · exact ⟨rfl, rfl⟩

theorem againResolve_ticks (e : TEntry) (t : Tick) (s : State) : (againResolve e t s).aln.ticks = s.aln.ticks ∧ (againResolve e t s).lse = s.lse := by
  unfold againResolve
  split
  · exact ⟨rfl, rfl⟩
  · split
    · exact alnEvent_ticks 5 (alnCnt 8 1 s)
    · have h := readyAll_steady (· = .resolveA) e.g t.seq s
      exact ⟨congrArg Aln.ticks (aln_of_steady h), lse_of_steady h⟩

/-- The tick's next revision, its result counted as one. -/
def revisedTick (t : Tick) (v : Solve) (r : LseRes) (s : State) : State :=
  lseTally t v r (lseCnt 1 1 (modTick t.g (fun x => { x with revision := t.revision + 1 }) s))

theorem revise_some {im : LseImage} {s : State} (h : s.lse.sec = some im) (t : Tick) (v : Solve) :
    ∃ r, (revise t v s).lse = (revisedTick t v r s).lse ∧ (revise t v s).aln = (revisedTick t v r s).aln := by
  have hmute : (revise t v s).mute = (revisedTick t v (lseAnalyze im s.lse.chiK.toNat t.bind v) s).mute := by
    simp only [revise, h]
    exact (reviseAlarms_mute ..).trans (mute_of_core (writeNow_core ..))
  exact ⟨_, lse_of_mute hmute, aln_of_mute hmute⟩

theorem revisedTick_parts {t : Tick} {s : State} (htick : tickOf s t.g = some t) (hcnt : 1 < s.lse.cnt.length) (v : Solve) (r : LseRes) :
    (tickOf (revisedTick t v r s) t.g).map Tick.revision = some (t.revision + 1) ∧ (tickOf (revisedTick t v r s) t.g).map Tick.eps = some t.eps ∧
      (revisedTick t v r s).lse.rework = s.lse.rework ∧ nth (revisedTick t v r s).lse.cnt 1 0#32 = satAdd (nth s.lse.cnt 1 0#32) 1 := by
  have htally : (revisedTick t v r s).tallied = (modTick t.g (fun x => { x with revision := t.revision + 1 }) s).tallied := (lseTally_tallied ..).trans (lseCnt_tallied ..)
  have hfound : (tickOf (revisedTick t v r s) t.g).map Tick.unseen = some { t with revision := t.revision + 1 }.unseen := by
    rw [← tickOf_tallied, htally, tickOf_tallied, tickOf_modTick t.g (fun x => { x with revision := t.revision + 1 }) s fun _ => rfl, htick]
    rfl
  obtain ⟨x, hx, hseen⟩ := Option.map_eq_some_iff.mp hfound
  rw [hx]
  refine ⟨congrArg some (congrArg Tick.revision hseen :), congrArg some (congrArg Tick.eps hseen :), (congrArg (fun u : State => u.lse.rework) htally :), ?_⟩
  exact (lseTally_revisions ..).trans (nth_modAt_same hcnt _ _)

/-! What each of the Estimator's tasks leaves once it has ended -/

section
variable {e : TEntry} {c : Cur} {t : Tick} {v : Solve} {s : State}

theorem solveTask_ends (h : AtWork .lseSolve e c t s) :
    let u := effect e (ended e { s with lse := { s.lse with work := some v } })
    u.lse.work = some v ∧ u.tkx.cur.map Cur.doneSolve = some true := by
  have hwork : AtWork .lseSolve e c t { s with lse := { s.lse with work := some v } } := h.congr rfl rfl
  have hlse := lse_of_steady (ended_steady e { s with lse := { s.lse with work := some v } })
  rw [effect_lseSolve hwork.ended]
  refine ⟨congrArg Lse.work hlse, ?_⟩
  rw [modCur_cur (endedCur_of_atWork hwork)]
  rfl

theorem analyzeTask_ends {im : LseImage} (h : AtWork .lseAnalyze e c t s) (hv : s.lse.work = some v) (him : s.lse.sec = some im) :
    let r := lseAnalyze im s.lse.chiK.toNat t.bind v
    let x := effect e (ended e s)
    x.tkx.cur.map Cur.doneAna = some true ∧ x.tkx.cur.map Cur.lseRes = some (some r) ∧ x.lse.work = none ∧ x.lse.variant = t.bind.variant ∧
      x.lse.chi = r.chi ∧ x.lse.unobZones = r.unobZones ∧ x.lse.hold = (r.x.zipIdx.map fun p => if nth r.obs p.2 false then p.1 else c0) ∧
      x.aln.ticks.map Tick.view = s.aln.ticks.map Tick.view ∧ x.kst.slots = s.kst.slots := by
  have hended := ended_steady e s
  have hlse := lse_of_steady hended
  have hcur := endedCur_of_atWork h
  have heffect := effect_lseAnalyze h.ended (hlse ▸ hv)
  obtain ⟨hres, hstate⟩ := analyzeTick_some (hlse ▸ him) t v
  obtain ⟨hwork, hvar, hchi, hunob, hhold⟩ := written_of_tallied hstate
  obtain ⟨htkx, hslots, hview⟩ := apart_of_tallied hstate
  rw [hlse] at hres hchi hunob hhold
  generalize analyzeTick t v (ended e s) = a at hres hwork hvar hchi hunob hhold htkx hslots hview heffect
  intro r x
  have hx : x = _ := heffect
  clear_value x
  subst hx
  refine ⟨?_, ?_, hwork, hvar, hchi, hunob, hhold, ?_, hslots.trans (slots_of_steady hended)⟩
  · rw [modCur_cur ((congrArg Tkx.cur htkx).trans hcur)]
    rfl
  · rw [modCur_cur ((congrArg Tkx.cur htkx).trans hcur)]
    exact congrArg some hres
  · exact hview.trans (congrArg (fun a : Aln => a.ticks.map Tick.view) (aln_of_steady hended))

theorem resolveATask_ends (hwork : e.work = .resolveA) (htick : tickOf s e.g = some t) :
    let u := effect e (ended { e with reReady := false } (withRework (s.lse.rework ++ [v]) s))
    u.lse.rework = s.lse.rework ++ [v] ∧ ∀ y ∈ s.tkx.tasks, y.work = .resolveB → Listed y.num e.g u := by
  have hended := ended_steady { e with reReady := false } (withRework (s.lse.rework ++ [v]) s)
  generalize ended { e with reReady := false } (withRework (s.lse.rework ++ [v]) s) = w at hended
  have htasks : w.tkx.tasks = s.tkx.tasks := (tasks_of_steady hended :)
  have haln : w.aln = s.aln := (aln_of_steady hended :)
  obtain ⟨hkeep, hlisted⟩ := effect_resolveA (s := w) hwork (by rwa [tickOf, haln])
  rw [htasks] at hlisted
  exact ⟨congrArg Lse.rework (hkeep.trans (lse_of_steady hended)), hlisted⟩

theorem resolveBTask_ends {im : LseImage} (hwork : e.work = .resolveB) (hg : t.g = e.g) (htick : tickOf s e.g = some t)
    (hfind : s.lse.rework.find? (fun v => v.g = e.g) = some v) (him : s.lse.sec = some im) (hcnt : 1 < s.lse.cnt.length) :
    let u := effect e (ended { e with reReady := false } s)
    (tickOf u e.g).map Tick.revision = some (t.revision + 1) ∧ (tickOf u e.g).map Tick.eps = some t.eps ∧
      u.lse.rework = s.lse.rework.filter (fun v => decide (v.g ≠ e.g)) ∧ nth u.lse.cnt 1 0#32 = satAdd (nth s.lse.cnt 1 0#32) 1 := by
  have hended := ended_steady { e with reReady := false } s
  generalize ended { e with reReady := false } s = w at hended
  have hlse := lse_of_steady hended
  have haln := aln_of_steady hended
  have heffect := effect_resolveB (s := w) hwork (by rwa [tickOf, haln]) (by rwa [hlse])
  rw [hlse] at heffect
  have hw : (withRework (s.lse.rework.filter fun v => v.g ≠ e.g) w).lse = { s.lse with rework := s.lse.rework.filter fun v => v.g ≠ e.g } := by
    rw [← hlse]
    rfl
  have hwtick : tickOf (withRework (s.lse.rework.filter fun v => v.g ≠ e.g) w) t.g = some t := by
    rw [hg, ← htick, tickOf, tickOf, ← haln]
    rfl
  generalize withRework (s.lse.rework.filter fun v => v.g ≠ e.g) w = y at heffect hw hwtick
  obtain ⟨r, hrlse, hraln⟩ := revise_some (s := y) (by rw [hw]; exact him) t v
  obtain ⟨hticks, hkeep⟩ := againResolve_ticks e t (revise t v y)
  obtain ⟨hrev, heps, hrework, hcount⟩ := revisedTick_parts hwtick (by rw [hw]; exact hcnt) v r
  rw [← heffect] at hticks hkeep
  rw [hraln] at hticks
  rw [hrlse] at hkeep
  generalize effect e w = u at hticks hkeep
  have hfound : tickOf u e.g = tickOf (revisedTick t v r y) t.g := by rw [tickOf, tickOf, hticks, hg]
  rw [hw] at hrework hcount
  dsimp only
  rw [hfound, hkeep]
  exact ⟨hrev, heps, hrework, hcount⟩

end

theorem resolveAComplete_good {e : TEntry} {t : Tick} {v : Solve} {g : Nat} {s : State}
    (hrun : findEntry (fun y => y.st = .running && y.work = .resolveA && y.g = g) s = some e) (htick : tickOf s g = some t)
    (hsolve : solveTick t t.rsCover t.rsView s = some (v, true)) :
    resolveAComplete g false s = completeOnce e (withRework (s.lse.rework ++ [v]) s) := by
  simp only [resolveAComplete, runningResolve, hrun, htick, hsolve]
  rfl

theorem resolveBComplete_found {e : TEntry} {t : Tick} {v : Solve} {g : Nat} {s : State}
    (hrun : findEntry (fun y => y.st = .running && y.work = .resolveB && y.g = g) s = some e) (htick : tickOf s g = some t)
    (hfind : s.lse.rework.find? (fun v => v.g = g) = some v) : resolveBComplete g s = completeOnce e s := by
  simp only [resolveBComplete, runningResolve, hrun, htick, hfind]

/-- Settles O49: each of the Estimator's tasks that ends leaves its result, and a broken invariant its count. -/
theorem estimatorTasksEnd : Obligations.EstimatorTasksEnd := by
  unfold Obligations.EstimatorTasksEnd
  intro dt g b e c t v s s0 hready ends
  have hends : ∀ {i op u P}, exec i s = run dt (onTick op) s → op s0 = settle u → P u → ends i P := fun hexec hop h =>
    ⟨_, by rw [exec_onTick hexec hready, hop], h⟩
  refine ⟨fun hrun => ⟨fun hsolve => ?_, fun ok hsolve hbad hinit hmask hcnt => ?_⟩, fun im hrun hv him hflow => ?_,
    fun hrun htick hflow hsolve => ?_, fun im hrun htick hflow hfind him hcnt => ?_⟩
  · have hop := solveComplete_good hrun hsolve
    exact ⟨by rw [exec_onTick (i := .lseSolveComplete dt false) rfl hready, hop],
      fun hflow => hends (i := .lseSolveComplete dt false) rfl (hop.trans (completeTask_free hflow _)) (solveTask_ends (atWork_of_runningCur hrun))⟩
  · obtain ⟨u, hop, hlse⟩ := solveComplete_bad hrun hsolve hbad
    refine hends (i := .lseSolveComplete dt b) rfl hop ?_
    rw [hlse, lseInvariant_cnt hinit hmask]
    exact nth_modAt_same hcnt _ _
  · exact hends (i := .lseAnalyzeComplete dt) rfl ((completeCur_runs hrun).trans (completeTask_free hflow _))
      (analyzeTask_ends (atWork_of_runningCur hrun) hv him)
  · obtain ⟨hwork, rfl⟩ := resolve_found hrun
    exact hends (i := .resolveAComplete dt e.g false) rfl ((resolveAComplete_good hrun htick hsolve).trans (completeOnce_free hflow _))
      (resolveATask_ends hwork htick)
  · obtain ⟨hwork, rfl⟩ := resolve_found hrun
    have hg : t.g = e.g := by simpa using List.find?_some htick
    exact hends (i := .resolveBComplete dt e.g) rfl ((resolveBComplete_found hrun htick hfind).trans (completeOnce_free hflow _))
      (resolveBTask_ends hwork hg htick hfind him hcnt)

end Sys2Proof.Machine
end

section
/-! SUPPORT. The shed levels as a tick goes on: no phase, task or record changes them, their counts or their event (R51 to R53). -/

namespace Sys2Proof.Machine

/-- The shed levels, what counts them, their event, and what waits to enter MAINTENANCE. -/
structure Desk where
  levels : Nat
  counts : List Word
  event  : Word
  maint  : Option (Option Ctx × Bool)

def State.desk (s : State) : Desk := ⟨s.tkx.shedLevels, s.tkx.shedCnt, s.tkx.event &&& 2#32, s.sys.maintPend⟩

theorem desk_of_steady {s t : State} (h : t.steady = s.steady) : t.desk = s.desk :=
  (congrArg (fun u : State => Desk.mk u.tkx.shedLevels u.tkx.shedCnt u.tkx.event u.sys.maintPend) h :)

theorem desk_of_bench {s t : State} (h : t.bench = s.bench) : t.desk = s.desk :=
  (congrArg (fun b : Bench => Desk.mk b.tkx.shedLevels b.tkx.shedCnt (b.tkx.event &&& 2#32) b.maint) h :)

theorem desk_of_mute {s t : State} (h : t.mute = s.mute) : t.desk = s.desk := (congrArg State.desk h :)

theorem desk_of_aside {s t : State} (h : t.aside = s.aside) : t.desk = s.desk := desk_of_mute (mute_of_aside h)

theorem desk_of_tallied {s t : State} (h : t.tallied = s.tallied) : t.desk = s.desk := (congrArg State.desk h :)

theorem desk_of_ashore {s t : State} (h : t.ashore = s.ashore) : t.desk = s.desk := desk_of_bench (bench_of_ashore h)

theorem maint_of_desk {s t : State} (h : t.desk = s.desk) : t.sys.maintPend = s.sys.maintPend := (congrArg Desk.maint h :)

theorem Kept.desk {s t : State} (h : Kept s t) (hmaint : s.sys.maintPend = none) : t.desk = s.desk := desk_of_bench (h.bench hmaint)

theorem foldl_desk {α : Type} (f : State → α → State) (l : List α) (s : State) (h : ∀ s a, (f s a).desk = s.desk) : (l.foldl f s).desk = s.desk := by
  induction l generalizing s with
  | nil => rfl
  | cons a l ih => exact (ih _).trans (h s a)

theorem when_desk {f : State → State} (hf : ∀ s, (f s).desk = s.desk) (c : Prop) [Decidable c] (s : State) : (if c then f s else s).desk = s.desk := by
  split
  · exact hf s
  · rfl

/-! Ticks and phases -/

theorem modCur_desk (f : Cur → Cur) (s : State) : (modCur f s).desk = s.desk := rfl

theorem keepPast_desk (t : Tick) (s : State) : (keepPast t s).desk = s.desk := by
  unfold keepPast
  extract_lets ala u
  have hu : u.desk = s.desk := when_desk (f := fun s => { s with ala := { s.ala with lastMarks := t.marks } }) (fun _ => rfl) _ s
  exact hu

theorem releaseTick_desk (g : Nat) (s : State) : (releaseTick g s).desk = s.desk := by
  unfold releaseTick
  split
  · split
    · exact keepPast_desk ..
    · rfl
  · rfl

theorem dropCur_desk (s : State) : (dropCur s).desk = s.desk := by
  unfold dropCur
  split
  · rfl
  · exact (releaseTick_desk ..).trans rfl

theorem startPhase_desk (k : Nat) (s : State) : (startPhase k s).desk = s.desk := rfl

theorem readyAll_desk (p : Work → Bool) (g seq : Nat) (s : State) : (readyAll p g seq s).desk = s.desk := desk_of_steady (readyAll_steady ..)

theorem startSolve_desk (c : Cur) (s : State) : (startSolve c s).desk = s.desk := (readyAll_desk ..).trans rfl

theorem takeD1_desk (s : State) : (takeD1 s).desk = s.desk := by
  unfold takeD1
  split
  · rfl
  · split
    · rfl
    · exact (desk_of_mute (decideD1_mute ..)).trans rfl

theorem decideD2_desk (t : Tick) (res : Option LseRes) (osm : Bool) (s : State) : (decideD2 t res osm s).desk = s.desk := by
  obtain ⟨u, hmute, heq⟩ := decideD2_mute t res osm s
  rw [heq]
  exact (desk_of_mute hmute : u.desk = s.desk)

theorem takeD2_desk (s : State) : (takeD2 s).desk = s.desk := by
  unfold takeD2
  split
  · rfl
  · split
    · rfl
    · exact (decideD2_desk ..).trans rfl

theorem deferUpdate_desk (t : Tick) (k : Nat) (s : State) : (deferUpdate t k s).desk = s.desk := by
  unfold deferUpdate
  extract_lets u v
  have hv : v.desk = u.desk := by
    show (if k = 8 then deferLoc (locRead u.osm t.g t.view) u else match osmSetOf u k with
      | some e => deferSet k (osmInputs u e t.g t.seq) u
      | none => u).desk = _
    split
    · exact desk_of_bench (deferLoc_bench ..)
    · split
      · exact desk_of_bench (deferSet_bench ..)
      · rfl
  exact (desk_of_steady (readyDefer_steady ..)).trans (hv.trans rfl)

theorem startAnalyze_desk (c : Cur) (s : State) : (startAnalyze c s).desk = s.desk := by
  unfold startAnalyze
  extract_lets u due gone run lse late t v w x
  have hw : w.desk = v.desk := when_desk (f := fun v => due.foldl (fun s k => carryDue c.g k s) v)
    (fun v => foldl_desk _ _ v fun _ _ => desk_of_bench (carryDue_bench ..)) _ v
  have hx : x.desk = w.desk := foldl_desk _ _ w fun _ _ => deferUpdate_desk ..
  exact (readyAll_desk ..).trans (hx.trans (hw.trans rfl))

theorem moveToSlack_desk (c : Cur) (s : State) : (moveToSlack c s).desk = s.desk := by
  unfold moveToSlack
  extract_lets mine tkx u v
  have hv : v.desk = u.desk := foldl_desk _ mine u fun x t => by
    split
    · split
      · exact desk_of_ashore (by simp)
      · exact desk_of_bench (shedPortFrames_bench ..)
    · rfl
  exact hv.trans rfl

theorem startEmit_desk (c : Cur) (s : State) : (startEmit c s).desk = s.desk := by
  unfold startEmit
  extract_lets u v pair w
  have hu : u.desk = s.desk := (startPhase_desk ..).trans (takeD2_desk s)
  have hv : v.desk = s.desk := (readyAll_desk ..).trans hu
  have hw : w.desk = s.desk := (when_desk (f := fun v => { v with pair := { v.pair with toMark := v.pair.toMark ++ [(c.g, c.seq)] } }) (fun _ => rfl) _ v).trans hv
  split
  · exact hu
  · exact (when_desk (moveToSlack_desk c) _ w).trans hw

theorem phaseLate_desk (task : Option TEntry) (phase late seq : Nat) (s : State) : (phaseLate task phase late seq s).desk = s.desk := by
  unfold phaseLate
  refine (desk_of_steady (tkxEvent_steady (by decide) _)).trans ?_
  split
  · exact (desk_of_steady (traceTask_steady ..)).trans rfl
  · exact (desk_of_steady (traceRaw_steady ..)).trans rfl

/-! The end of EMIT -/

section
variable {s : State} (h : s.sys.maintPend = none)
include h

theorem writeHeader_desk (done : Nat) : (writeHeader done s).desk = s.desk := by
  unfold writeHeader
  split
  · rfl
  next c _ =>
    have hr : (if c.durs.length = 4 then (c.durs.map (satN 16), s) else durations c s).2.desk = s.desk := by split <;> rfl
    extract_lets t
    generalize (if c.durs.length = 4 then (c.durs.map (satN 16), s) else durations c s) = r at hr ⊢
    have hv : ∀ us : List Unit512, (c.rings.foldl (fun s n => handRec n 1 us (some c.at_) (some c.seq) s) r.2).desk = s.desk :=
      fun _ => (foldl_desk _ _ _ fun _ _ => desk_of_bench (handRec_bench ..)).trans hr
    dsimp only
    split
    · exact hv _
    · exact ((tickDigest_kept ..).desk ((maint_of_desk (hv _)).trans h)).trans (hv _)

theorem finishEmit_desk : (finishEmit s).desk = s.desk := by
  unfold finishEmit
  split
  · rfl
  · extract_lets u
    have hu : u.desk = s.desk := by
      show (if _ then s else modCur _ (writeRecs s)).desk = _
      split
      · rfl
      · exact (modCur_desk ..).trans (desk_of_aside (writeRecs_aside s))
    split
    · exact hu
    · exact (dropCur_desk _).trans ((writeHeader_desk ((maint_of_desk hu).trans h) _).trans hu)

theorem endPhase_desk (c : Cur) : (endPhase c s).desk = s.desk := by
  unfold endPhase
  extract_lets us limit u v
  have hv : v.desk = s.desk := (when_desk (phaseLate_desk none c.phase (s.tbu.free - limit) c.seq) _ s)
  split
  · exact (startSolve_desk ..).trans hv
  · exact (startAnalyze_desk ..).trans hv
  · exact (startEmit_desk ..).trans hv
  · exact (finishEmit_desk ((maint_of_desk hv).trans h)).trans hv

theorem settleStep_desk : (settleStep s).desk = s.desk := by
  unfold settleStep
  split
  · rfl
  · split
    · exact takeD1_desk s
    · split
      · rfl
      · exact endPhase_desk h _

end

theorem settleN_desk (n : Nat) {s : State} (h : s.sys.maintPend = none) : (settleN n s).desk = s.desk := by
  induction n generalizing s with
  | zero => rfl
  | succ n ih =>
    have hstep := settleStep_desk h
    exact (ih ((maint_of_desk hstep).trans h)).trans hstep

/-! Results (R56, R66) -/

theorem inCur_desk (e : TEntry) (f : Cur → Tick → State → State) (s : State) (h : ∀ c t, (f c t s).desk = s.desk) : (inCur e f s).desk = s.desk := by
  unfold inCur
  split
  · split
    · exact h ..
    · rfl
  · rfl

theorem analyzeTick_desk (t : Tick) (v : Solve) (s : State) : (analyzeTick t v s).2.desk = s.desk := by
  cases him : s.lse.sec with
  | none => simp only [analyzeTick, him]
  | some im => exact (desk_of_tallied (analyzeTick_some him t v).2).trans rfl

theorem geAggNext_desk (s : State) : (geAggNext s).desk = s.desk := by
  unfold geAggNext
  split
  · rfl
  next b r _ =>
    extract_lets ge v
    have hv : v.desk = s.desk := (desk_of_bench (geAggregate_bench ..)).trans rfl
    split
    · exact hv
    · exact (readyAll_desk ..).trans hv

theorem alnEvent_desk (k : Nat) (s : State) : (alnEvent k s).desk = s.desk := by
  unfold alnEvent
  extract_lets up aln t
  split
  · exact (desk_of_bench (raiseBlock_bench 5 t)).trans rfl
  · rfl

theorem againResolve_desk (e : TEntry) (t : Tick) (s : State) : (againResolve e t s).desk = s.desk := by
  unfold againResolve
  split
  · rfl
  · split
    · exact (alnEvent_desk ..).trans rfl
    · exact readyAll_desk ..

theorem revise_desk (t : Tick) (v : Solve) (s : State) : (revise t v s).desk = s.desk := by
  cases him : s.lse.sec with
  | none => simp only [revise, him]
  | some im =>
    simp only [revise, him]
    refine (desk_of_mute (reviseAlarms_mute ..)).trans ((desk_of_bench (writeNow_bench ..)).trans ((desk_of_tallied (lseTally_tallied ..)).trans rfl))

section
variable {s : State} (h : s.sys.maintPend = none)
include h

theorem osmWork_desk (t : Tick) (k : Nat) : (osmWork t k s).1.desk = s.desk := by
  unfold osmWork
  split
  · rfl
  next e _ =>
    have hupdate := updateSet_bench k (osmInputs s e t.g t.seq) 0 s
    exact ((osmDigests_kept k _ _).desk ((congrArg Bench.maint hupdate :).trans h)).trans (desk_of_bench hupdate)

theorem osmDeferWork_desk (k : Nat) : (osmDeferWork k s).desk = s.desk := by
  unfold osmDeferWork
  split
  · split <;> rfl
  · split
    · rfl
    next e _ =>
      split
      · rfl
      next x q _ =>
        have hupdate : (updateSet k x markDeferred (putSet k { e with queue := q } s)).1.bench = s.bench := (updateSet_bench ..).trans rfl
        generalize updateSet k x markDeferred (putSet k { e with queue := q } s) = r at hupdate ⊢
        have hdigest : (osmDigests k r.2 r.1).desk = s.desk :=
          ((osmDigests_kept k r.2 r.1).desk ((congrArg Bench.maint hupdate :).trans h)).trans (desk_of_bench hupdate)
        have hwrite := (desk_of_bench (writeNow_bench (pastTick x.g x.seq r.1) (osmEmit r.2 r.1) (osmDigests k r.2 r.1))).trans hdigest
        dsimp only
        split
        · exact hwrite
        · exact hwrite

/-- No task's result changes the shed levels. -/
theorem effect_desk (e : TEntry) : (effect e s).desk = s.desk := by
  unfold effect
  split
  · exact inCur_desk _ _ s fun _ _ => (modCur_desk ..).trans (desk_of_bench (dfcGroup_bench ..))
  · exact inCur_desk _ _ s fun _ _ => (modCur_desk ..).trans (desk_of_bench (sepWork_bench ..))
  · exact inCur_desk _ _ s fun _ _ => modCur_desk ..
  · refine inCur_desk _ _ s fun _ _ => ?_
    split
    · exact (modCur_desk ..).trans (analyzeTick_desk ..)
    · rfl
  · exact inCur_desk _ _ s fun _ _ => (modCur_desk ..).trans (osmWork_desk h ..)
  · exact inCur_desk _ _ s fun _ _ => (modCur_desk ..).trans (desk_of_bench (locationTick_bench ..))
  · exact inCur_desk _ _ s fun _ _ => (modCur_desk ..).trans (desk_of_aside (writeRecs_aside s))
  · refine (modCur_desk ..).trans ?_
    split
    · rfl
    · exact desk_of_bench (feedPort_bench ..)
  · split
    · rfl
    · exact desk_of_bench (feedPort_bench ..)
  · split
    · split
      · exact (desk_of_steady (setEntries_steady ..)).trans (readyAll_desk ..)
      · exact readyAll_desk ..
    · rfl
  · split
    · exact (againResolve_desk ..).trans ((revise_desk ..).trans rfl)
    · rfl
  next k _ =>
    have hwork := osmDeferWork_desk h k
    dsimp only
    split
    · exact (desk_of_steady (readyDefer_steady ..)).trans hwork
    · exact hwork
  · exact geAggNext_desk s
  · rfl

end

theorem releaseN_desk (n : Nat) {s : State} (h : s.sys.maintPend = none) : (releaseN n s).desk = s.desk := by
  induction n generalizing s with
  | zero => rfl
  | succ n ih =>
    unfold releaseN
    split
    · rfl
    next f e result _ =>
      have hrelease : (releaseEntry f e s).desk = s.desk := desk_of_steady (releaseEntry_steady ..)
      have hstep : (if result then effect e (releaseEntry f e s) else releaseEntry f e s).desk = s.desk := by
        split
        · exact (effect_desk ((maint_of_desk hrelease).trans h) e).trans hrelease
        · exact hrelease
      exact (ih ((maint_of_desk hstep).trans h)).trans hstep

/-- The Helm goes on without a change of the shed levels, unless MAINTENANCE waits to be entered. -/
theorem settle_desk {s : State} (h : s.sys.maintPend = none) : (settle s).desk = s.desk := by
  have hrelease : (releaseAll s).desk = s.desk := releaseN_desk _ h
  have hsettle : (settleN 8 (releaseAll s)).desk = s.desk := (settleN_desk 8 ((maint_of_desk hrelease).trans h)).trans hrelease
  unfold settle
  rw [desk_of_bench (marksDue_bench _), maintWhenIdle_of_none ((maint_of_desk hsettle).trans h)]
  exact hsettle

/-! Shedding (R53) -/

theorem shedEntry_desk (t : TEntry) (s : State) : (shedEntry t s).desk = s.desk := by
  have hcancel : (cancelOne 1 t s).desk = s.desk := desk_of_steady (cancelOne_steady ..)
  unfold shedEntry
  extract_lets u
  split
  · exact (deferUpdate_desk ..).trans hcancel
  · exact hcancel

theorem cancelSoon_desk (arg : Nat) (t : TEntry) (s : State) : (cancelSoon arg t s).desk = s.desk := by
  unfold cancelSoon
  split
  · rfl
  · exact desk_of_steady (cancelOne_steady ..)

theorem shedWhere_desk (p : TEntry → Bool) (s : State) : (shedWhere p s).desk = s.desk := foldl_desk _ _ _ fun u t => by
  split
  · exact cancelSoon_desk ..
  · exact shedEntry_desk ..

theorem shedWork_desk (k : Nat) (c : Cur) (s : State) : (shedWork k c s).desk = s.desk := by
  unfold shedWork
  split
  · exact shedWhere_desk ..
  · exact shedWhere_desk ..
  · rfl
  · split
    · rfl
    · exact (moveToSlack_desk ..).trans (desk_of_steady (accountEmits_steady s))

end Sys2Proof.Machine
end

section
/-! SUPPORT. The projection, the delay list, the seconds of the grid edge and the checkpoint, and O50 (R52 to R54, R67, R326, R330, R442). -/

namespace Sys2Proof.Machine

/-! The projection (R52 to R54) -/

theorem projection_idle {s : State} (h : s.tkx.cur = none) : projection s = s := by simp only [projection, h]

theorem projection_inTime {c : Cur} {s : State} (hcur : s.tkx.cur = some c) (h : s.tbu.free + maxLeft s c ≤ phaseDeadline s c 4) : projection s = s := by
  simp only [projection, hcur, h, decide_true, if_true]

/-- Shed level `i + 1` comes into force: its bit, its count, the mark of the tick and its event. -/
def shedInForce (i : Nat) (c : Cur) (s : State) : State :=
  let u := { s with tkx := { s.tkx with shedLevels := s.tkx.shedLevels + 2 ^ i, shedCnt := modAt s.tkx.shedCnt i (satAdd · 1) } }
  tkxEvent 1 (traceTick .shed (i + 1) c.seq c.phase (modCur (fun d => { d with shed := d.shed + 2 ^ i }) u))

theorem projection_sheds {c : Cur} {i : Nat} {s : State} (hcur : s.tkx.cur = some c) (hlate : phaseDeadline s c 4 < s.tbu.free + maxLeft s c) (hi : i < 4)
    (hbelow : ∀ j, j < i → s.tkx.shedLevels.testBit j = true) (hfree : s.tkx.shedLevels.testBit i = false) :
    projection s = settle (shedWork (i + 1) c (shedInForce i c s)) := by
  have hfind : (List.range 4).find? (fun i => !(s.tkx.shedLevels.testBit i)) = some i :=
    List.find?_range_eq_some.mpr ⟨by simp [hfree], List.mem_range.mpr hi, fun j hj => by simp [hbelow j hj]⟩
  unfold projection
  split
  next hnone =>
    rw [hnone] at hcur
    cases hcur
  next d hd =>
    obtain rfl : d = c := Option.some.inj (hd.symm.trans hcur)
    rw [if_neg (by simpa using hlate), hfind]
    rfl

theorem tkxEvent_sys (k : Nat) (s : State) : (tkxEvent k s).sys = s.sys := (congrArg State.sys (tkxEvent_core k s) :)

theorem shedInForce_desk (i : Nat) (c : Cur) (s : State) : (shedInForce i c s).tkx.shedLevels = s.tkx.shedLevels + 2 ^ i ∧
    (shedInForce i c s).tkx.shedCnt = modAt s.tkx.shedCnt i (satAdd · 1) ∧ bitOf (shedInForce i c s).tkx.event 1 = true ∧
    (shedInForce i c s).sys.maintPend = s.sys.maintPend := by
  unfold shedInForce
  extract_lets tkx u
  have htrace := traceRaw_steady .shed [(112, 7, 127), (96, 16, satN 16 (i + 1)), (64, 32, c.seq), (42, 3, c.phase)]
    (modCur (fun d => { d with shed := d.shed + 2 ^ i }) u)
  have hdesk := desk_of_steady htrace
  rw [tkxEvent_tkx, tkxEvent_sys]
  refine ⟨(congrArg Desk.levels hdesk :), (congrArg Desk.counts hdesk :), bitOf_setBit_same _ (by decide), (congrArg Desk.maint hdesk :)⟩

theorem bitOf_and_two (w : Word) : bitOf (w &&& 2#32) 1 = bitOf w 1 := by
  simp only [bitOf, BitVec.getLsbD_and]
  exact Bool.and_true _

/-- The event of a shed level stands as long as its desk does. -/
theorem shedEvent_of_desk {s t : State} (h : t.desk = s.desk) : bitOf t.tkx.event 1 = bitOf s.tkx.event 1 := by
  rw [← bitOf_and_two, ← bitOf_and_two s.tkx.event]
  exact congrArg (fun d : Desk => bitOf d.event 1) h

/-! The delay list (R67) -/

theorem fireMicro_early {s : State} (h : ∀ x ∈ s.tkx.micro, s.tbu.free < x.1) (n : Nat) : fireMicro n s = s := by
  cases n with
  | zero => rfl
  | succ n =>
    unfold fireMicro
    split
    next hmicro => exact if_pos (h _ (hmicro ▸ List.mem_cons_self))
    next => rfl

/-- The first entry fires; those behind it are not due yet. -/
theorem delayExpiry_fires {d k g : Nat} {r : List (Nat × Nat × Nat)} {c : TaskCfg} {s : State} (hmicro : s.tkx.micro = (d, k, g) :: r) (hdue : d ≤ s.tbu.free)
    (hlater : ∀ x ∈ r, s.tbu.free < x.1) (hfind : s.tkx.tasks.find? (fun c => decide (c.num = k)) = some c) :
    (delayExpiry s).tkx.micro = r ∧ Listed k g (delayExpiry s) := by
  have hnum : c.num = k := by simpa using List.find?_some hfind
  have hsteady := makeReady_steady c g (lastTickSeq s) { s with tkx := { s.tkx with micro := r } }
  have hlisted := makeReady_listed c g (lastTickSeq s) { s with tkx := { s.tkx with micro := r } }
  have hfired : delayExpiry s = fireMicro r.length (makeReady c g (lastTickSeq s) { s with tkx := { s.tkx with micro := r } }) := by
    rw [delayExpiry, hmicro, List.length_cons, fireMicro, hmicro]
    dsimp only
    rw [if_neg (Nat.not_lt.mpr hdue), hfind]
    rfl
  rw [hfired]
  generalize makeReady c g (lastTickSeq s) { s with tkx := { s.tkx with micro := r } } = u at hsteady hlisted
  have hmicro' : u.tkx.micro = r := (congrArg (fun v : State => v.tkx.micro) hsteady :)
  have hfree : u.tbu.free = s.tbu.free := (congrArg Tbu.free (tbu_of_steady hsteady) :)
  rw [fireMicro_early (by rwa [hmicro', hfree])]
  exact ⟨hmicro', hnum ▸ hlisted⟩

/-! Seconds of the grid edge (R326) -/

/-- The instant at which second `n` closes. -/
def closeAt (s : State) (n : Nat) : Int := ((n + 1 + fld s.ge.cfg.toNat 3 0 : Nat) : Int) * (secFr : Int)

/-- The oldest open second as it closes: it waits for its aggregation. -/
def secondClosed (s : State) : State :=
  { s with ge := { s.ge with
      closed := s.ge.closed + 1, buckets := s.ge.buckets.filter fun b => decide (b.sec ≠ s.ge.closed + 1)
      ready := s.ge.ready ++ [(s.ge.buckets.find? fun b => decide (b.sec = s.ge.closed + 1)).getD { sec := s.ge.closed + 1, reps := [] }] } }

theorem geClose_open {s : State} (h : discTime s < closeAt s (s.ge.closed + 1) ∨ s.ge.running = false) (n : Nat) : geClose n s = s := by
  cases n with
  | zero => rfl
  | succ n =>
    unfold geClose
    refine if_neg fun hdue => ?_
    obtain ⟨hrun, hat⟩ := Bool.and_eq_true_iff.mp hdue
    rcases h with h | h
    · exact absurd (of_decide_eq_true hat) (Int.not_le.mpr h)
    · rw [h] at hrun
      cases hrun

theorem geClose_due {s : State} (hrun : s.ge.running = true) (hat : closeAt s (s.ge.closed + 1) ≤ discTime s) (n : Nat) :
    geClose (n + 1) s = geClose n (secondClosed s) := by
  rw [geClose]
  refine if_pos (Bool.and_eq_true_iff.mpr ⟨hrun, decide_eq_true hat⟩)

/-- A second that is due is among those that may be. -/
theorem geDue_pos {s : State} (hat : closeAt s (s.ge.closed + 1) ≤ discTime s) : 0 < geDue s := by
  have hdiv : ((s.ge.closed + 1 + 1 + fld s.ge.cfg.toNat 3 0 : Nat) : Int) ≤ discTime s / secFr := (Int.le_ediv_iff_mul_le (by decide)).mpr hat
  unfold geDue
  omega

theorem geBucketClose_idle {s : State} (h : discTime s < closeAt s (s.ge.closed + 1) ∨ s.ge.running = false) (hready : s.ge.ready = []) :
    geBucketClose s = s := by
  unfold geBucketClose
  rw [geClose_open h]
  exact if_pos (by rw [hready]; rfl)

theorem geBucketClose_closes {s : State} (hrun : s.ge.running = true) (hat : closeAt s (s.ge.closed + 1) ≤ discTime s)
    (hnext : discTime s < closeAt s (s.ge.closed + 1 + 1)) :
    geBucketClose s = readyAll (fun w => w = .geAgg) 0 (lastTickSeq s) (secondClosed s) := by
  obtain ⟨n, hn⟩ := Nat.exists_eq_add_one.mpr (geDue_pos hat)
  unfold geBucketClose
  rw [hn, geClose_due hrun hat, geClose_open (s := secondClosed s) (.inl hnext)]
  exact if_neg (by simp [secondClosed])

/-! Aggregation (R330) -/

/-- The seconds of the grid edge and the count of aggregations. -/
structure Seconds where
  ready   : List Bucket
  buckets : List Bucket
  count   : Word
  length  : Nat

def State.seconds (s : State) : Seconds := ⟨s.ge.ready, s.ge.buckets, nth s.ge.cnt 4 0#32, s.ge.cnt.length⟩

theorem geCnt_seconds {k : Nat} (h : k ≠ 4) (n : Nat) (s : State) : (geCnt k n s).seconds = s.seconds := by
  show Seconds.mk _ _ (nth (modAt s.ge.cnt k _) 4 0#32) (modAt s.ge.cnt k _).length = _
  rw [nth_modAt_ne h, modAt_length]
  rfl

theorem seconds_of_core {s t : State} (h : t.core = s.core) : t.seconds = s.seconds := (congrArg State.seconds h :)

theorem geZone_seconds (b : Bucket) (z : Nat) (s : State) : (geZone b z s).seconds = s.seconds := by
  unfold geZone
  extract_lets ms conf out was now u ge v rs us scaled vmin vmax mean live u0 u1 w
  have hu : u.seconds = s.seconds := by
    show (if (now && !was) = true then geCnt 5 1 s else s).seconds = _
    split
    · exact geCnt_seconds (by decide) ..
    · rfl
  have hw : w.seconds = s.seconds := (geCnt_seconds (by decide) ..).trans (Eq.trans rfl hu)
  split
  · exact (seconds_of_core (core_of_rest (handRec_rest ..))).trans hw
  · exact hw

theorem foldl_seconds {α : Type} (f : State → α → State) (l : List α) (s : State) (h : ∀ s a, (f s a).seconds = s.seconds) :
    (l.foldl f s).seconds = s.seconds := by
  induction l generalizing s with
  | nil => rfl
  | cons a l ih => exact (ih _).trans (h s a)

/-- The aggregation of a second, but for the second's number and its count. -/
theorem geAggregate_eq (b : Bucket) (s : State) : ∃ u : State, u.seconds = s.seconds ∧ geAggregate b s = geCnt 4 1 { u with ge := { u.ge with lastSec := b.sec } } := by
  refine ⟨?u, ?_, ?_⟩
  rotate_left 2
  · unfold geAggregate
    rfl
  · refine (foldl_seconds _ _ _ fun _ _ => geZone_seconds ..).trans ?_
    exact (geCnt_seconds (by decide) ..).trans ((geCnt_seconds (by decide) ..).trans rfl)

theorem geAggregate_ge {s : State} (hcnt : 4 < s.ge.cnt.length) (b : Bucket) : (geAggregate b s).ge.ready = s.ge.ready ∧
    (geAggregate b s).ge.lastSec = b.sec ∧ (geAggregate b s).ge.buckets = s.ge.buckets ∧
    nth (geAggregate b s).ge.cnt 4 0#32 = satAdd (nth s.ge.cnt 4 0#32) 1 := by
  obtain ⟨u, hsec, heq⟩ := geAggregate_eq b s
  have hlength : u.ge.cnt.length = s.ge.cnt.length := (congrArg Seconds.length hsec :)
  rw [heq]
  refine ⟨(congrArg Seconds.ready hsec :), rfl, (congrArg Seconds.buckets hsec :), ?_⟩
  refine (nth_modAt_same (by rw [hlength]; exact hcnt) _ _).trans ?_
  exact congrArg (fun x : Seconds => satAdd x.count 1) hsec

theorem ge_of_steady {s t : State} (h : t.steady = s.steady) : t.ge = s.ge := (congrArg State.ge h :)

theorem geAggNext_ge {b : Bucket} {r : List Bucket} {s : State} (hready : s.ge.ready = b :: r) (hcnt : 4 < s.ge.cnt.length) :
    (geAggNext s).ge.ready = r ∧ (geAggNext s).ge.lastSec = b.sec ∧ (geAggNext s).ge.buckets = s.ge.buckets ∧
      nth (geAggNext s).ge.cnt 4 0#32 = satAdd (nth s.ge.cnt 4 0#32) 1 := by
  have hagg := geAggregate_ge (s := { s with ge := { s.ge with ready := r } }) hcnt b
  have hge : (geAggNext s).ge = (geAggregate b { s with ge := { s.ge with ready := r } }).ge := by
    simp only [geAggNext, hready]
    split
    · rfl
    · exact ge_of_steady (readyAll_steady ..)
  rw [hge]
  exact hagg

theorem geAggTask_ends {b : Bucket} {r : List Bucket} {e : TEntry} {s : State} (hready : s.ge.ready = b :: r) (hwork : runningWork (fun w => w = .geAgg) s = some e)
    (hflow : e.flow = none) (hcnt : 4 < s.ge.cnt.length) : ∃ u, geAggTask s = settle u ∧ u.ge.ready = r ∧ u.ge.lastSec = b.sec ∧
      u.ge.buckets = s.ge.buckets ∧ nth u.ge.cnt 4 0#32 = satAdd (nth s.ge.cnt 4 0#32) 1 := by
  have hkind : e.work = .geAgg := of_decide_eq_true (work_of_runningWork hwork).2.2
  have hge := ge_of_steady (ended_steady e s)
  have heffect : effect e (ended e s) = geAggNext (ended e s) := by simp only [effect, hkind]
  have hagg := geAggNext_ge (s := ended e s) (hge ▸ hready) (hge ▸ hcnt)
  refine ⟨geAggNext (ended e s), ?_, ?_⟩
  · rw [← heffect, ← completeTask_free hflow]
    simp only [geAggTask, hwork, hready]
    rfl
  · rw [hge] at hagg
    exact hagg

/-! The checkpoint (R442) -/

theorem ckptLate_of_hulk {s t : State} (h : t.hulk = s.hulk) : t.aln.ckptLate = s.aln.ckptLate := (congrArg (fun u : State => u.aln.ckptLate) h :)

section
variable {s : State} (hlate : s.aln.ckptLate = true)
include hlate

theorem endFatal_ckptLate (hinit : s.sys.runState ≠ .init) (id : Nat) : (endFatal id s).aln.ckptLate = true ∧ (endFatal id s).flt.low = true := by
  obtain ⟨-, -, hlow, -, hhulk⟩ := endFatal_wrecked hinit id
  exact ⟨(ckptLate_of_hulk hhulk).trans hlate, hlow⟩

theorem closeWindow_ckptLate (hlow : s.flt.low = true) (hmin : s.sys.aon < s.flt.minEnd) (id : Nat) :
    (closeWindow id s).aln.ckptLate = true ∧ (closeWindow id s).flt.low = true :=
  ⟨(ckptLate_of_hulk (hulk_of_quiet (closeWindow_quiet id s))).trans hlate, (closeWindow_flt id s).2.2 hlow hmin⟩

end

/-- A late checkpoint is marked and drives FAULT_N low, whether the fault stays contained or ends in SAFE. -/
theorem checkpointFault_late {s : State} (hinit : s.sys.runState ≠ .init) :
    (raiseFault (FaultIn.plain 0x10 10) s).aln.ckptLate = true ∧ (raiseFault (FaultIn.plain 0x10 10) s).flt.low = true := by
  have henters : Enters (FaultIn.plain 0x10 10) s := enters_plain rfl rfl hinit (by decide) (.inr (by decide)) (.inr (by decide))
  have hclass : 2 ≤ classNow (FaultIn.plain 0x10 10) s := by
    unfold classNow
    split <;> decide
  obtain ⟨hlow, hmin⟩ := entered_low hclass
  have hstate := entered_state hinit (FaultIn.plain 0x10 10)
  have hreaction : (faultRecord (FaultIn.plain 0x10 10) s).reaction = if escalates (FaultIn.plain 0x10 10) s then rSafe else rMark := rfl
  have heffect : ∀ u, faultEffect (FaultIn.plain 0x10 10) u = { u with aln := { u.aln with ckptLate := true } } := fun _ => rfl
  rw [raiseFault_enters henters, heffect]
  generalize entered (FaultIn.plain 0x10 10) s = u at hlow hmin hstate
  generalize faultRecord (FaultIn.plain 0x10 10) s = r at hreaction
  cases hesc : escalates (FaultIn.plain 0x10 10) s with
  | true =>
    rw [react, if_pos (by rw [hreaction, hesc]; rfl)]
    exact endFatal_ckptLate (s := { u with aln := { u.aln with ckptLate := true } }) rfl hstate r.id
  | false =>
    rw [hesc] at hreaction
    rw [react, hreaction]
    exact closeWindow_ckptLate (s := { u with aln := { u.aln with ckptLate := true } }) rfl hlow (by show u.sys.aon < u.flt.minEnd; omega) r.id

theorem checkpointDeadline_late {s : State} (hguar : s.sys.guarEff ≠ 0) (hdone : s.aln.ckptDone = false) (hlate : s.aln.ckptLate = false)
    (hrun : s.sys.runState = .run) (hseq : s.tkx.lastSeq ≠ none) (hspan : s.tkx.notBefore ≤ s.tbu.free) :
    checkpointDeadline s = raiseFault (FaultIn.plain 0x10 10) s := by
  have hcommitted : s.tkx.lastSeq.isSome = true := Option.isSome_iff_ne_none.mpr hseq
  exact if_pos (by simp [hguar, hdone, hlate, hrun, hcommitted, hspan])

/-- Settles O50: each of the Helm's timers has its effect when it is due, and none before. -/
theorem helmTimers : Obligations.HelmTimers := by
  unfold Obligations.HelmTimers
  intro dt s s0 hready now ends
  have hends : ∀ {i op P}, exec i s = run dt (onTick op) s → P (op s0) → ends i P := fun hexec h => ⟨_, exec_onTick hexec hready, h⟩
  have hidle : ∀ {i op}, exec i s = run dt (onTick op) s → op s0 = s0 → exec i s = .next (drainMirrored (settle s0)) := fun hexec hop => by
    rw [exec_onTick hexec hready, hop]
  have hdrain : exec (.checkpointDrainComplete dt) s = .next (checkpointDone s0) := congrArg Host.Outcome.next (if_pos hready)
  refine ⟨fun h => hidle (i := .helmProjection dt) rfl (projection_idle h), fun c hcur h => hidle (i := .helmProjection dt) rfl (projection_inTime hcur h),
    fun c i hcur hlate hi hbelow hfree hmaint => ?_, fun d k g r c hmicro => ⟨fun hearly => ?_, fun hdue hlater hfind => ?_⟩,
    ⟨fun h hnone => hidle (i := .geBucketClose dt) rfl (geBucketClose_idle h hnone), fun hrun hat hnext => ?_⟩,
    fun b r e hwaits hwork hflow hcnt => ?_, fun hguar hdone hlate hrun hseq hspan => ?_, fun hdone => ⟨?_, ?_⟩, fun hdone => ?_⟩
  · obtain ⟨hlevels, hcounts, hevent, hpend⟩ := shedInForce_desk i c s0
    have hwork := shedWork_desk (i + 1) c (shedInForce i c s0)
    have hdesk := (settle_desk ((maint_of_desk hwork).trans (hpend.trans hmaint))).trans hwork
    refine hends (i := .helmProjection dt) rfl ?_
    rw [projection_sheds hcur hlate hi hbelow hfree]
    exact ⟨(congrArg Desk.levels hdesk :).trans hlevels, (congrArg Desk.counts hdesk :).trans hcounts, (shedEvent_of_desk hdesk).trans hevent⟩
  · refine hidle (i := .delayListExpiry dt) rfl ?_
    rw [delayExpiry, hmicro, List.length_cons, fireMicro, hmicro]
    exact if_pos hearly
  · exact hends (i := .delayListExpiry dt) rfl (delayExpiry_fires hmicro hdue hlater hfind)
  · have hready := readyAll_steady (fun w => w = .geAgg) 0 (lastTickSeq s0) (secondClosed s0)
    refine hends (i := .geBucketClose dt) rfl ?_
    rw [geBucketClose_closes hrun hat hnext]
    refine ⟨congrArg Ge.closed (ge_of_steady hready), congrArg Ge.ready (ge_of_steady hready), (congrArg State.ing hready :), fun y hy hkind => ?_⟩
    obtain ⟨z, hz, htask, -⟩ := readyAll_listed (p := fun w => w = .geAgg) (s := secondClosed s0) hy (decide_eq_true hkind) 0 (lastTickSeq s0)
    exact ⟨z, hz, htask⟩
  · obtain ⟨u, hop, hu⟩ := geAggTask_ends hwaits hwork hflow hcnt
    exact ⟨u, by rw [exec_onTick (i := .geAggregation dt) rfl hready, hop], hu⟩
  · refine hends (i := .checkpointDeadline dt) rfl ?_
    rw [checkpointDeadline_late hguar hdone hlate hrun hseq hspan]
    exact checkpointFault_late (by rw [hrun]; decide)
  · exact hidle (i := .checkpointDeadline dt) rfl (if_neg (by simp [hdone]))
  · rw [hdrain, checkpointDone, if_pos hdone]
  · rw [hdrain, checkpointDone, hdone]
    rfl

end Sys2Proof.Machine
end

section
/-! SUPPORT. The Sextant: what its operations leave alone, and the times of its domains over a change of rate, of selection or of state (R75, R76,
R80 to R91). -/

namespace Sys2Proof.Machine

/-! Domains -/

theorem getDom_modDom_same (x : DomId) (f : Dom → Dom) (s : State) : getDom x (modDom x f s) = f (getDom x s) := by cases x <;> rfl

theorem getDom_modDom_ne {x y : DomId} (h : y ≠ x) (f : Dom → Dom) (s : State) : getDom y (modDom x f s) = getDom y s := by
  cases x
  · cases y
    · exact absurd rfl h
    · rfl
  · cases y
    · rfl
    · exact absurd rfl h

@[simp] theorem modDom_free (x : DomId) (f : Dom → Dom) (s : State) : (modDom x f s).tbu.free = s.tbu.free := by cases x <;> rfl

theorem modDom_selId (x : DomId) (f : Dom → Dom) (s : State) : selId (modDom x f s) = selId s := by cases x <;> rfl

theorem isSel_iff {x : DomId} {s : State} : isSel x s = true ↔ selId s = x := decide_eq_true_iff

theorem eq_of_ne_of_ne {x y z : DomId} (hx : x ≠ z) (hy : y ≠ z) : x = y := by cases x <;> cases y <;> cases z <;> simp_all

theorem otherDom_ne (x : DomId) : otherDom x ≠ x := by cases x <;> decide

theorem selDom_eq (s : State) : selDom s = getDom (selId s) s := by
  unfold selDom selId
  split <;> rfl

/-! Times of domains (R75, R76) -/

/-- A domain's time at this instant. -/
def timeOf (x : DomId) (s : State) : Int := domTimeAt (getDom x s) s.tbu.free

theorem discTime_eq (s : State) : discTime s = timeOf (selId s) s := by rw [discTime, selDom_eq, timeOf]

/-- A domain that is anchored at `free` so that its time there is `t`. -/
def Dom.anchored (t : Int) (free : Nat) (d : Dom) : Dom := { d with anchor := free, offset := t - free }

theorem rneDiv_zero (b : Nat) : rneDiv 0 b = 0 := by simp [rneDiv]

theorem domTimeAt_anchored (t : Int) (free : Nat) (d : Dom) : domTimeAt (d.anchored t free) free = t := by
  simp [domTimeAt, Dom.anchored, rneDiv_zero]

theorem domTimeAt_setRate (d : Dom) (rate : Int) (free : Nat) : domTimeAt (d.setRate rate free) free = domTimeAt d free := by
  unfold Dom.setRate
  split
  · rfl
  · exact domTimeAt_anchored (domTimeAt d free) free { d with rate := rate }

theorem domTimeAt_holdFreq (d : Dom) (free : Nat) : domTimeAt (d.holdFreq free) free = domTimeAt d free := by
  unfold Dom.holdFreq
  split
  · exact domTimeAt_setRate ..
  · exact domTimeAt_setRate ..
  · rfl

/-! TIME_SUSPECT and a change of selection (R86, R91) -/

theorem timeOf_clocked {s t : State} (h : t.clocked = s.clocked) (x : DomId) : timeOf x t = timeOf x s :=
  show timeOf x t.clocked = timeOf x s.clocked from congrArg (timeOf x) h

theorem getDom_clocked {s t : State} (h : t.clocked = s.clocked) (x : DomId) : getDom x t = getDom x s :=
  show getDom x t.clocked = getDom x s.clocked from congrArg (getDom x) h

theorem selId_clocked {s t : State} (h : t.clocked = s.clocked) : selId t = selId s :=
  show selId t.clocked = selId s.clocked from congrArg selId h

theorem discTime_clocked {s t : State} (h : t.clocked = s.clocked) : discTime t = discTime s := by
  rw [discTime_eq, discTime_eq, selId_clocked h, timeOf_clocked h]

theorem free_clocked {s t : State} (h : t.clocked = s.clocked) : t.tbu.free = s.tbu.free := (congrArg (fun u : State => u.tbu.free) h :)

theorem modDom_clocked {s t : State} (h : t.clocked = s.clocked) (x : DomId) (f : Dom → Dom) : (modDom x f t).clocked = (modDom x f s).clocked := by
  have hmod : ∀ u : State, (modDom x f u).clocked = modDom x f u.clocked := fun u => by cases x <;> rfl
  rw [hmod, hmod, h]

/-- Domain `y` takes the selection with disciplined time as it is; the other goes on by its frequency term alone. -/
def switched (y : DomId) (s : State) : State :=
  let u := modDom y (Dom.anchored (discTime s) s.tbu.free) (modDom (selId s) (Dom.holdFreq · s.tbu.free) s)
  { u with tbu := { u.tbu with ctrl := (u.tbu.ctrl &&& 2#32) ||| BitVec.ofNat 32 (domIdx y) } }

theorem selectDom_same {y : DomId} {s : State} (h : isSel y s = true) (auto : Bool) : selectDom y auto s = s := by rw [selectDom, if_pos h]

theorem selectDom_clocked {y : DomId} {s : State} (h : isSel y s = false) (auto : Bool) : (selectDom y auto s).clocked = (switched y s).clocked := by
  have hs : (evalSuspect false false s).clocked = s.clocked := evalSuspect_clocked ..
  have hmod := modDom_clocked (modDom_clocked hs (selId s) (Dom.holdFreq · s.tbu.free)) y (Dom.anchored (discTime s) s.tbu.free)
  rw [selectDom, h]
  refine (evalSuspect_clocked ..).trans ((clocked_of_core (logEv_core ..)).trans ((tbuEvent_clocked 3 _).trans ?_))
  rw [selId_clocked hs, discTime_clocked hs, free_clocked hs]
  exact congrArg (fun u : State => { u with tbu := { u.tbu with ctrl := (u.tbu.ctrl &&& 2#32) ||| BitVec.ofNat 32 (domIdx y) } }) hmod

theorem switched_free (y : DomId) (s : State) : (switched y s).tbu.free = s.tbu.free :=
  (modDom_free y _ _).trans (modDom_free ..)

theorem getDom_switched (x y : DomId) (s : State) :
    getDom x (switched y s) = getDom x (modDom y (Dom.anchored (discTime s) s.tbu.free) (modDom (selId s) (Dom.holdFreq · s.tbu.free) s)) := rfl

theorem bitOf_domIdx (w : Word) (y : DomId) : bitOf ((w &&& 2#32) ||| BitVec.ofNat 32 (domIdx y)) 0 = decide (y = .b) := by
  cases y <;> simp [bitOf, domIdx]

theorem selId_switched (y : DomId) (s : State) : selId (switched y s) = y := by
  show (if bitOf ((_ &&& 2#32) ||| BitVec.ofNat 32 (domIdx y)) 0 = true then DomId.b else DomId.a) = y
  rw [bitOf_domIdx]
  cases y <;> rfl

/-- After a change of selection both domains stand at disciplined time as it was. -/
theorem timeOf_switched {y : DomId} {s : State} (h : isSel y s = false) (x : DomId) : timeOf x (switched y s) = discTime s := by
  have hy : y ≠ selId s := fun e => Bool.false_ne_true (h.symm.trans (isSel_iff.mpr e.symm))
  rw [timeOf, switched_free, getDom_switched]
  by_cases hx : x = y
  · subst hx
    rw [getDom_modDom_same, domTimeAt_anchored]
  · obtain rfl : x = selId s := eq_of_ne_of_ne hx hy.symm
    rw [getDom_modDom_ne hx, getDom_modDom_same, domTimeAt_holdFreq, discTime_eq, timeOf]

theorem timeOf_selectDom {y : DomId} {s : State} (h : isSel y s = false) (auto : Bool) (x : DomId) : timeOf x (selectDom y auto s) = discTime s :=
  (timeOf_clocked (selectDom_clocked h auto) x).trans (timeOf_switched h x)

/-- A change of selection that finds both domains at one time leaves both there. -/
theorem selectDom_level {t : Int} {s : State} (h : ∀ x, timeOf x s = t) (y : DomId) (auto : Bool) (x : DomId) : timeOf x (selectDom y auto s) = t := by
  cases hy : isSel y s
  case true => rw [selectDom_same hy, h]
  case false => rw [timeOf_selectDom hy, discTime_eq, h]

theorem takeSel_level {t : Int} {s : State} (h : ∀ x, timeOf x s = t) (y : DomId) (x : DomId) : timeOf x (takeSel y s) = t := by
  unfold takeSel
  split
  · exact h x
  · split
    · exact (timeOf_clocked (tbuEvent_clocked 11 s) x).trans (h x)
    · exact selectDom_level h y false x

theorem discTime_selectDom (y : DomId) (auto : Bool) (s : State) : discTime (selectDom y auto s) = discTime s := by
  cases h : isSel y s
  case true => rw [selectDom_same h]
  case false => rw [discTime_eq, timeOf_selectDom h]

theorem discTime_takeSel (y : DomId) (s : State) : discTime (takeSel y s) = discTime s := by
  unfold takeSel
  split
  · rfl
  · split
    · exact discTime_clocked (tbuEvent_clocked 11 s)
    · exact discTime_selectDom y false s

/-- AUTO_SEL leaves the selected domain's time as it is, and that of one that is not LOCKED (R86, R87). -/
theorem timeOf_autoSelect {x : DomId} {s : State} (h : isSel x s = true ∨ (getDom x s).st ≠ .locked) : timeOf x (autoSelect s) = timeOf x s := by
  unfold autoSelect
  extract_lets y
  split
  next hcond =>
    have hne : isSel y s = false := decide_eq_false (otherDom_ne (selId s)).symm
    have hlocked : (getDom y s).st = .locked := by simp_all
    have hx : selId s = x := by
      rcases h with h | h
      · exact isSel_iff.mp h
      · exact eq_of_ne_of_ne (otherDom_ne (selId s)).symm fun e => h (e ▸ hlocked)
    have hlevel : ∀ z, timeOf z (selectDom y true s) = timeOf x s := fun z => by rw [timeOf_selectDom hne, discTime_eq, hx]
    split
    · split
      · exact takeSel_level hlevel _ x
      · exact hlevel x
    · exact hlevel x
  next => rfl

/-! What the Sextant's operations leave alone -/

/-- A domain but for its state, its time and what its samples are counted by. -/
def Dom.dial (d : Dom) : Dom := { d with
  st := .disabled, offset := 0, anchor := 0, rate := 0, freq := 0, thetaOk := false, lastAbs := [], dRef := [], good := 0, bad := 0, dwell := none
  requal := [], lastAt := none, leftLocked := none, syncLog := 0, lastSync := none, firstAcq := false }

/-- The Sextant but for its judgement of time, its selection and what its domains do without a message's values. -/
def Tbu.dial (t : Tbu) : Tbu := { t with
  ctrl := 0#32, event := 0#32, suspect := false, lastBad := none, cross := [], domA := t.domA.dial, domB := t.domB.dial }

def State.dial (s : State) : State := { s.core with tbu := s.tbu.dial, freeCtr := 0 }

/-- What stands outside the Sextant, the Logbook, the host interface, the free values and the output. -/
def State.untimed (s : State) : State := { s.core with tbu := Tbu.reset, freeCtr := 0 }

theorem onlyTime_of_untimed {s t : State} (h : t.untimed = s.untimed) : OnlyTime s t := by
  obtain ⟨⟩ := s
  obtain ⟨⟩ := t
  simp only [State.untimed, State.core, State.mk.injEq] at h
  simp only [OnlyTime, State.mk.injEq]
  simp [h]

theorem untimed_of_dial {s t : State} (h : t.dial = s.dial) : t.untimed = s.untimed :=
  show t.dial.untimed = s.dial.untimed from congrArg State.untimed h

theorem modDom_untimed (x : DomId) (f : Dom → Dom) (s : State) : (modDom x f s).untimed = s.untimed := by cases x <;> rfl

theorem dial_of_clocked {s t : State} (h : t.clocked = s.clocked) : t.dial = s.dial :=
  show t.clocked.dial = s.clocked.dial from congrArg State.dial h

@[simp] theorem dial_ite (c : Prop) [Decidable c] (s t : State) : (if c then s else t).dial = if c then s.dial else t.dial := apply_ite ..

@[simp] theorem tbuEvent_dial (k : Nat) (s : State) : (tbuEvent k s).dial = s.dial := dial_of_clocked (tbuEvent_clocked k s)

@[simp] theorem evalSuspect_dial (check pairBad : Bool) (s : State) : (evalSuspect check pairBad s).dial = s.dial := dial_of_clocked (evalSuspect_clocked ..)

theorem getDom_dial (x : DomId) (s : State) : getDom x s.dial = (getDom x s).dial := by cases x <;> rfl

theorem modDom_dial_eq {f g : Dom → Dom} (h : ∀ d, (f d).dial = g d.dial) (x : DomId) (s : State) : (modDom x f s).dial = modDom x g s.dial := by
  cases x <;> simp [modDom, State.dial, Tbu.dial, State.core, h]

theorem modDom_id (x : DomId) (s : State) : modDom x id s = s := by cases x <;> rfl

theorem modDom_dial {f : Dom → Dom} (h : ∀ d, (f d).dial = d.dial) (x : DomId) (s : State) : (modDom x f s).dial = s.dial :=
  (modDom_dial_eq (g := id) h x s).trans (modDom_id x s.dial)

theorem setRate_dial (rate : Int) (free : Nat) (d : Dom) : (d.setRate rate free).dial = d.dial := by
  unfold Dom.setRate
  split <;> rfl

theorem holdFreq_dial (free : Nat) (d : Dom) : (d.holdFreq free).dial = d.dial := by
  unfold Dom.holdFreq
  split
  · exact setRate_dial ..
  · exact setRate_dial ..
  · rfl

theorem switched_dial (y : DomId) (s : State) : (switched y s).dial = s.dial :=
  (modDom_dial (f := Dom.anchored _ _) (fun _ => rfl) y _).trans (modDom_dial (holdFreq_dial _) (selId s) s)

@[simp] theorem selectDom_dial (y : DomId) (auto : Bool) (s : State) : (selectDom y auto s).dial = s.dial := by
  cases h : isSel y s
  case true => rw [selectDom_same h]
  case false => exact (dial_of_clocked (selectDom_clocked h auto)).trans (switched_dial y s)

@[simp] theorem takeSel_dial (y : DomId) (s : State) : (takeSel y s).dial = s.dial := by simp [takeSel]

@[simp] theorem autoSelect_dial (s : State) : (autoSelect s).dial = s.dial := by
  unfold autoSelect
  split <;> simp

/-! States of a domain (R82) -/

theorem st_switched (x y : DomId) (s : State) : (getDom x (switched y s)).st = (getDom x s).st := by
  have hmod : ∀ (z : DomId) (f : Dom → Dom) (u : State), (∀ d, (f d).st = d.st) → (getDom x (modDom z f u)).st = (getDom x u).st := fun z f u hf => by
    cases x <;> cases z <;> simp [getDom, modDom, hf]
  have hhold : ∀ d : Dom, (d.holdFreq s.tbu.free).st = d.st := fun d => by
    unfold Dom.holdFreq Dom.setRate
    repeat' split
    all_goals rfl
  exact (hmod y (Dom.anchored _ _) _ fun _ => rfl).trans (hmod (selId s) _ s hhold)

theorem st_selectDom (x y : DomId) (auto : Bool) (s : State) : (getDom x (selectDom y auto s)).st = (getDom x s).st := by
  cases h : isSel y s
  case true => rw [selectDom_same h]
  case false => rw [getDom_clocked (selectDom_clocked h auto), st_switched]

theorem st_takeSel (x y : DomId) (s : State) : (getDom x (takeSel y s)).st = (getDom x s).st := by
  unfold takeSel
  split
  · rfl
  · split
    · rw [getDom_clocked (tbuEvent_clocked 11 s)]
    · exact st_selectDom ..

theorem st_autoSelect (x : DomId) (s : State) : (getDom x (autoSelect s)).st = (getDom x s).st := by
  unfold autoSelect
  extract_lets y
  split
  · split
    · split
      · rw [st_takeSel, st_selectDom]
      · exact st_selectDom ..
    · exact st_selectDom ..
  · rfl

/-- Entry into a state changes that domain's state, not its time at that instant, and the selection is judged. -/
theorem enterState_eq (x : DomId) (new : DomState) (s : State) :
    ∃ f : Dom → Dom, enterState x new s = autoSelect (modDom x f (evalSuspect false false s)) ∧
      ∀ d, (f d).dial = d.dial ∧ (f d).st = new ∧ domTimeAt (f d) s.tbu.free = domTimeAt d s.tbu.free := by
  refine ⟨_, rfl, fun d => ?_⟩
  have hdial := holdFreq_dial (evalSuspect false false s).tbu.free d
  have htime := domTimeAt_holdFreq d s.tbu.free
  rw [← free_clocked (evalSuspect_clocked false false s)] at htime ⊢
  cases new <;> exact ⟨hdial, rfl, htime⟩

@[simp] theorem enterState_dial (x : DomId) (new : DomState) (s : State) : (enterState x new s).dial = s.dial := by
  obtain ⟨f, heq, hf⟩ := enterState_eq x new s
  rw [heq, autoSelect_dial, modDom_dial fun d => (hf d).1, evalSuspect_dial]

theorem st_enterState (x : DomId) (new : DomState) (s : State) : (getDom x (enterState x new s)).st = new := by
  obtain ⟨f, heq, hf⟩ := enterState_eq x new s
  rw [heq, st_autoSelect, getDom_modDom_same, (hf _).2.1]

/-- A domain that leaves LOCKED, or stays outside it, keeps its time at that instant. -/
theorem timeOf_enterState {new : DomState} (h : new ≠ .locked) (x : DomId) (s : State) : timeOf x (enterState x new s) = timeOf x s := by
  obtain ⟨f, heq, hf⟩ := enterState_eq x new s
  have hclocked : (evalSuspect false false s).clocked = s.clocked := evalSuspect_clocked ..
  rw [heq, timeOf_autoSelect, timeOf, getDom_modDom_same, modDom_free, getDom_clocked hclocked, free_clocked hclocked, (hf _).2.2, timeOf]
  exact .inr (by rwa [getDom_modDom_same, (hf _).2.1])

/-! Samples in LOCKED (R80, R82, R90) -/

theorem timeOf_modDom {x : DomId} {f : Dom → Dom} {s : State} (h : ∀ d, domTimeAt (f d) s.tbu.free = domTimeAt d s.tbu.free) :
    timeOf x (modDom x f s) = timeOf x s := by rw [timeOf, getDom_modDom_same, modDom_free, h, timeOf]

theorem servo_clocked (x : DomId) (theta : Int) (tau : Nat) (s : State) :
    ∃ f : Dom → Dom, (servo x theta tau s).clocked = (modDom x f s).clocked ∧
      ∀ d, (f d).dial = d.dial ∧ domTimeAt (f d) s.tbu.free = domTimeAt d s.tbu.free := by
  unfold servo
  extract_lets d q fi lim freq phase u
  refine ⟨fun d => { (d.setRate (rateOf (freq + phase)) s.tbu.free) with freq := freq }, ?_, fun d => ⟨setRate_dial _ s.tbu.free d, domTimeAt_setRate d _ s.tbu.free⟩⟩
  split
  · exact tbuEvent_clocked 7 u
  · rfl

@[simp] theorem servo_dial (x : DomId) (theta : Int) (tau : Nat) (s : State) : (servo x theta tau s).dial = s.dial := by
  obtain ⟨f, heq, hf⟩ := servo_clocked x theta tau s
  exact (dial_of_clocked heq).trans (modDom_dial (fun d => (hf d).1) x s)

theorem timeOf_servo (x : DomId) (theta : Int) (tau : Nat) (s : State) : timeOf x (servo x theta tau s) = timeOf x s := by
  obtain ⟨f, heq, hf⟩ := servo_clocked x theta tau s
  rw [timeOf_clocked heq, timeOf_modDom fun d => (hf d).2]

@[simp] theorem crossCheck_dial (s : State) : (crossCheck s).dial = s.dial := evalSuspect_dial ..

theorem timeOf_crossCheck (x : DomId) (s : State) : timeOf x (crossCheck s) = timeOf x s := by
  unfold crossCheck
  extract_lets a b p dab th c c1 c2 c3 far bad t
  rw [timeOf_clocked (evalSuspect_clocked ..)]
  cases x <;> rfl

theorem judgeLocked_eq (x : DomId) (theta : Int) (s : State) :
    ∃ n, judgeLocked x theta s = if 16 ≤ n then enterState x .acquire (modDom x (fun d => { d with bad := n }) s) else modDom x (fun d => { d with bad := n }) s :=
  ⟨_, rfl⟩

theorem judgeLocked_dial (x : DomId) (theta : Int) (s : State) : (judgeLocked x theta s).dial = s.dial := by
  obtain ⟨n, heq⟩ := judgeLocked_eq x theta s
  rw [heq, dial_ite, enterState_dial, ite_self]
  exact modDom_dial (f := fun d => { d with bad := n }) (fun _ => rfl) x s

theorem timeOf_judgeLocked (x : DomId) (theta : Int) (s : State) : timeOf x (judgeLocked x theta s) = timeOf x s := by
  obtain ⟨n, heq⟩ := judgeLocked_eq x theta s
  rw [heq, apply_ite (timeOf x), timeOf_enterState (by decide), ite_self]
  exact timeOf_modDom fun _ => rfl

/-- A sample in LOCKED sets the domain's offset from its master, and steers it: its time at that instant stands. -/
theorem lockedSample_steers (x : DomId) (theta : Int) (at_ : Nat) (tau : Option Nat) (s : State) :
    (lockedSample x theta at_ tau s).dial = modDom x (fun d => { d with theta := theta }) s.dial ∧
      timeOf x (lockedSample x theta at_ tau s) = timeOf x s := by
  have hafter : ∀ (t : Nat) (u : State), u.dial = s.dial → timeOf x u = timeOf x s →
      let v := judgeLocked x theta (modDom x (fun d => d.sample theta at_) (servo x theta t u))
      v.dial = modDom x (fun d => { d with theta := theta }) s.dial ∧ timeOf x v = timeOf x s := fun t u hdial htime => by
    refine ⟨?_, ?_⟩
    · rw [judgeLocked_dial, modDom_dial_eq (g := fun d => { d with theta := theta }) fun _ => rfl, servo_dial, hdial]
    · have hsample : timeOf x (modDom x (fun d => d.sample theta at_) (servo x theta t u)) = timeOf x (servo x theta t u) := timeOf_modDom fun _ => rfl
      rw [timeOf_judgeLocked, hsample, timeOf_servo, htime]
  unfold lockedSample tauOf
  cases tau with
  | some t => exact hafter t s rfl rfl
  | none =>
    cases (getDom x s).lastAt with
    | some t => exact hafter (at_ - t) s rfl rfl
    | none => exact hafter _ (drawFree s).2 rfl (by cases x <;> rfl)

/-- The path delay of a sample is kept, and its Sync counts (R79, R89). -/
def Dom.heard (dd : Int) (d : Dom) : Dom := { d with dRef := (dd :: d.dRef).take 8, pathD := dd, syncCnt := satAdd d.syncCnt 1 }

/-- What a sample's message sets of its domain. -/
def Dom.informed (theta dd : Int) (d : Dom) : Dom := { d with theta := theta, pathD := dd, syncCnt := satAdd d.syncCnt 1 }

theorem domSample_eq {x : DomId} {theta dd : Int} {at_ : Nat} {s : State} (hst : (getDom x s).st = .locked)
    (hstep : isPathStep (getDom x s) dd (fld s.tbu.pathStepTh.toNat 23 0) = false) :
    domSample x theta dd at_ s = crossCheck (lockedSample x theta at_ none (modDom x (Dom.heard dd) s)) := by
  simp only [domSample, hst, hstep, Bool.false_eq_true, if_false]
  rfl

theorem domSample_steers {x : DomId} {theta dd : Int} {at_ : Nat} {s : State} (hst : (getDom x s).st = .locked)
    (hstep : isPathStep (getDom x s) dd (fld s.tbu.pathStepTh.toNat 23 0) = false) :
    (domSample x theta dd at_ s).dial = modDom x (Dom.informed theta dd) s.dial ∧ timeOf x (domSample x theta dd at_ s) = timeOf x s := by
  obtain ⟨hdial, htime⟩ := lockedSample_steers x theta at_ none (modDom x (Dom.heard dd) s)
  have hheard : (modDom x (Dom.heard dd) s).dial = modDom x (fun d => { d with pathD := dd, syncCnt := satAdd d.syncCnt 1 }) s.dial := by
    cases x <;> rfl
  rw [hheard] at hdial
  rw [domSample_eq hst hstep, crossCheck_dial, timeOf_crossCheck]
  exact ⟨hdial.trans (by cases x <;> rfl), htime.trans (timeOf_modDom fun _ => rfl)⟩

end Sys2Proof.Machine
end

section
/-! SUPPORT. Sync and Follow_Up messages (R79 to R82, R85). -/

namespace Sys2Proof.Machine

theorem accepts_congr {x : DomId} {s t : State} (h : (getDom x t).dial = (getDom x s).dial) (p n : Nat) : accepts x p n t = accepts x p n s := by
  have hcfg : (getDom x t).dcfg = (getDom x s).dcfg := (congrArg Dom.dcfg h :)
  unfold accepts Dom.enabled Dom.number Dom.onPort
  extract_lets d e
  rw [show d.dcfg = e.dcfg from hcfg]

theorem modDom_pathStepTh (x : DomId) (f : Dom → Dom) (s : State) : (modDom x f s).tbu.pathStepTh = s.tbu.pathStepTh := by cases x <;> rfl

theorem modDom_epoch (x : DomId) (f : Dom → Dom) (s : State) : (modDom x f s).tbu.epoch = s.tbu.epoch := by cases x <;> rfl

theorem meanLink_modDom (x : DomId) (f : Dom → Dom) (s : State) (p : Nat) : meanLink (modDom x f s) p = meanLink s p := by cases x <;> rfl

theorem asymFr_modDom (x : DomId) (f : Dom → Dom) (s : State) (p : Nat) : asymFr (modDom x f s) p = asymFr s p := by cases x <;> rfl

/-- A message of one domain, which the other takes no part in, is no step where it leaves the epoch alone. -/
theorem withStep_both {op : DomId → State → State} {x : DomId} {s : State}
    (hother : ∀ t, (getDom (otherDom x) t).dial = (getDom (otherDom x) s).dial → op (otherDom x) t = t)
    (hkeeps : (getDom (otherDom x) (op x s)).dial = (getDom (otherDom x) s).dial) (hepoch : (op x s).tbu.epoch = s.tbu.epoch) :
    withStep (fun s => op .b (op .a s)) s = op x s := by
  have hboth : op .b (op .a s) = op x s := by
    cases x
    · exact hother _ hkeeps
    · exact congrArg (op .b) (hother s rfl)
  unfold withStep
  extract_lets t
  rw [show t = op x s from hboth, if_pos hepoch]

/-! One message and one domain -/

/-- A sample steered its domain: its message's values stand, and the domain's time is as it was. -/
structure Steered (x : DomId) (theta dd : Int) (s u : State) : Prop where
  only  : OnlyTime s u
  theta : (getDom x u).theta = theta
  pathD : (getDom x u).pathD = dd
  count : (getDom x u).syncCnt = satAdd (getDom x s).syncCnt 1
  time  : timeOf x u = timeOf x s
  epoch : u.tbu.epoch = s.tbu.epoch
  free  : u.tbu.free = s.tbu.free
  other : (getDom (otherDom x) u).dial = (getDom (otherDom x) s).dial

/-- A sample in LOCKED steers its domain, whatever its message notes of the domain beside. -/
theorem domSample_steered {x : DomId} {theta dd : Int} {at_ : Nat} {s : State} {f : Dom → Dom}
    (hnote : ∀ d, (f d).st = d.st ∧ (f d).dRef = d.dRef ∧ (f d).syncCnt = d.syncCnt ∧ ∀ t, domTimeAt (f d) t = domTimeAt d t)
    (hst : (getDom x s).st = .locked) (hstep : isPathStep (getDom x s) dd (fld s.tbu.pathStepTh.toNat 23 0) = false) :
    Steered x theta dd s (domSample x theta dd at_ (modDom x f s)) := by
  obtain ⟨hfst, hfref, hfcnt, hftime⟩ := hnote (getDom x s)
  have hdom : getDom x (modDom x f s) = f (getDom x s) := getDom_modDom_same ..
  have hstep' : isPathStep (f (getDom x s)) dd (fld s.tbu.pathStepTh.toNat 23 0) = false := by
    unfold isPathStep
    rw [hfref]
    exact hstep
  obtain ⟨hdial, htime⟩ := domSample_steers (theta := theta) (at_ := at_) (s := modDom x f s) (by rw [hdom, hfst, hst])
    (by rw [hdom, modDom_pathStepTh, hstep'])
  generalize domSample x theta dd at_ (modDom x f s) = u at hdial htime
  have hface : (getDom x u).dial = Dom.informed theta dd (f (getDom x s)).dial := by
    rw [← getDom_dial, hdial, getDom_modDom_same, getDom_dial, hdom]
  have hcount : (getDom x u).syncCnt = satAdd (f (getDom x s)).syncCnt 1 := (congrArg Dom.syncCnt hface :)
  exact {
    only := onlyTime_of_untimed ((congrArg State.untimed hdial).trans ((modDom_untimed x _ _).trans (modDom_untimed x f s)))
    theta := (congrArg Dom.theta hface :)
    pathD := (congrArg Dom.pathD hface :)
    count := by rw [hcount, hfcnt]
    time := by rw [htime, timeOf_modDom fun d => (hnote d).2.2.2 _]
    epoch := (congrArg (fun t : State => t.tbu.epoch) hdial).trans ((modDom_epoch x _ _).trans (modDom_epoch x f s))
    free := (congrArg (fun t : State => t.tbu.free) hdial).trans ((modDom_free x _ _).trans (modDom_free x f s))
    other := by rw [← getDom_dial, hdial, getDom_modDom_ne (otherDom_ne x), getDom_dial, getDom_modDom_ne (otherDom_ne x)] }

section
variable {x : DomId} {port num seq : Nat} {src : PortId} {two : Bool} {t1 : PtpTime} {corr logInt : Int} {s : State}

theorem syncFor_refused (h : accepts x port num s = false) : syncFor x port num src seq two t1 corr logInt s = s := by simp [syncFor, h]

theorem followUpFor_idle (h : (getDom x s).twoStep = none) : followUpFor x port num src seq t1 corr s = s := by simp [followUpFor, h]

/-- The interval and the instant of a Sync are noted. -/
def Dom.synced (logInt : Int) (free : Nat) (d : Dom) : Dom := { d with syncLog := logInt, lastSync := some free }

/-- A two-step Sync waits for its Follow_Up. -/
def Dom.waiting (p : SyncPend) (d : Dom) : Dom := { d with syncLog := p.logInt, lastSync := some p.freeAt, twoStep := some p }

theorem syncFor_waits (hacc : accepts x port num s = true) (hparent : fromParent (getDom x s) src port = true) (hlo : -4 ≤ logInt)
    (hhi : logInt ≤ 1) (hst : (getDom x s).st = .locked) :
    syncFor x port num src seq true t1 corr logInt s = modDom x (Dom.waiting ⟨port, src, seq, corr, timeOf x s, s.tbu.free, logInt⟩) s := by
  simp only [syncFor, hacc, hparent, hlo, hhi, awaitsSync, hst, modDom_free]
  cases x <;> rfl

theorem syncFor_samples (hacc : accepts x port num s = true) (hparent : fromParent (getDom x s) src port = true) (hlo : -4 ≤ logInt)
    (hhi : logInt ≤ 1) (hst : (getDom x s).st = .locked) :
    syncFor x port num src seq false t1 corr logInt s =
      domSample x (ptpFr t1 + (meanLink s port + corr) + asymFr s port - timeOf x s) (meanLink s port + corr) s.tbu.free
        (modDom x (Dom.synced logInt s.tbu.free) s) := by
  simp only [syncFor, hacc, hparent, hlo, hhi, awaitsSync, hst, meanLink_modDom, asymFr_modDom, modDom_free]
  rfl

theorem syncFor_steered (hacc : accepts x port num s = true) (hparent : fromParent (getDom x s) src port = true) (hlo : -4 ≤ logInt)
    (hhi : logInt ≤ 1) (hst : (getDom x s).st = .locked)
    (hstep : isPathStep (getDom x s) (meanLink s port + corr) (fld s.tbu.pathStepTh.toNat 23 0) = false) :
    Steered x (ptpFr t1 + (meanLink s port + corr) + asymFr s port - timeOf x s) (meanLink s port + corr) s
      (syncFor x port num src seq false t1 corr logInt s) := by
  rw [syncFor_samples hacc hparent hlo hhi hst]
  exact domSample_steered (fun _ => ⟨rfl, rfl, rfl, fun _ => rfl⟩) hst hstep

theorem followUpFor_steered {p : SyncPend} (hpend : (getDom x s).twoStep = some p) (hacc : accepts x port num s = true) (hport : p.port = port)
    (hsrc : p.source = src) (hseq : p.seq = seq) (hst : (getDom x s).st = .locked)
    (hstep : isPathStep (getDom x s) (meanLink s port + corr) (fld s.tbu.pathStepTh.toNat 23 0) = false) :
    Steered x (ptpFr t1 + (meanLink s port + corr) + asymFr s port - p.t2) (meanLink s port + corr) s
      (followUpFor x port num src seq t1 corr s) := by
  have heq : followUpFor x port num src seq t1 corr s =
      domSample x (ptpFr t1 + (meanLink s port + corr) + asymFr s port - p.t2) (meanLink s port + corr) p.freeAt
        (modDom x (fun d => { d with twoStep := none }) s) := by
    simp only [followUpFor, hpend, hacc, hport, hsrc, hseq, meanLink_modDom, asymFr_modDom]
    rfl
  rw [heq]
  exact domSample_steered (fun _ => ⟨rfl, rfl, rfl, fun _ => rfl⟩) hst hstep

end

/-- Settles O37: the domain that does not take the message stands, and a sample in LOCKED steers the other without a step. -/
theorem syncSteersWithoutStep : Obligations.SyncSteersWithoutStep := by
  unfold Obligations.SyncSteersWithoutStep
  intro dt x m f s s0 hready d now th sampled
  have hsampled : ∀ {θ dd : Int} {u : State}, Steered x θ dd s0 u → sampled θ dd u := by
    rintro θ dd u ⟨honly, htheta, hpath, hcount, htime, hepoch, hfree, -⟩
    refine ⟨honly, htheta, hpath, hcount, ?_, hepoch, hfree⟩
    rw [timeOf, hfree] at htime
    exact htime
  refine ⟨fun hacc hother hparent hlo hhi hst => ?_, fun p hpend hnone hacc hport hsrc hseq hst hstep => ?_⟩
  · have hexec : ∀ u, syncFor x m.port m.num m.source m.seq m.twoStep m.t1 m.corr m.logInt s0 = u →
        (getDom (otherDom x) u).dial = (getDom (otherDom x) s0).dial → u.tbu.epoch = s0.tbu.epoch →
        exec (.ptpSyncReceive dt m) s = .next (drainMirrored (settle u)) := by
      rintro u rfl hkeeps hepoch
      rw [exec_onTick rfl hready]
      exact congrArg (fun u => Host.Outcome.next (drainMirrored (settle u)))
        (withStep_both (op := fun x => syncFor x m.port m.num m.source m.seq m.twoStep m.t1 m.corr m.logInt)
          (fun t ht => syncFor_refused ((accepts_congr ht ..).trans hother)) hkeeps hepoch)
    refine ⟨fun hone hstep => ?_, fun htwo => ?_⟩
    · have hsteered := syncFor_steered (seq := m.seq) (t1 := m.t1) hacc hparent hlo hhi hst hstep
      rw [← hone] at hsteered
      exact ⟨_, hexec _ rfl hsteered.other hsteered.epoch, hsampled hsteered⟩
    · have hwaits := syncFor_waits (seq := m.seq) (t1 := m.t1) (corr := m.corr) hacc hparent hlo hhi hst
      rw [← htwo] at hwaits
      refine ⟨_, hexec _ hwaits ?_ (modDom_epoch ..), onlyTime_of_untimed (modDom_untimed ..), ?_⟩
      · rw [getDom_modDom_ne (otherDom_ne x)]
      · rw [getDom_modDom_same]
        exact ⟨rfl, rfl, rfl, rfl⟩
  · have hsteered := followUpFor_steered (t1 := f.t1) hpend hacc hport hsrc hseq hst hstep
    refine ⟨_, ?_, hsampled hsteered⟩
    rw [exec_onTick rfl hready]
    exact congrArg (fun u => Host.Outcome.next (drainMirrored (settle u)))
      (withStep_both (op := fun x => followUpFor x f.port f.num f.source f.seq f.t1 f.corr)
        (fun t ht => followUpFor_idle ((congrArg Dom.twoStep ht :).trans hnone)) hsteered.other hsteered.epoch)

end Sys2Proof.Machine
end

section
/-! SUPPORT. Registers of the Sextant, and PPS (R78, R86, R91, R95 to R97, R113, R481, R546). -/

namespace Sys2Proof.Machine

/-! TBU_SNAP and TBU_CTRL (R78, R86, R87) -/

theorem tbuSnap_idle {v : Word} (h : bitOf v 0 = false) (s : State) : tbuSnap v s = s := by simp [tbuSnap, h]

theorem tbuEvent_tbu (k : Nat) (s : State) : (tbuEvent k s).tbu = { s.tbu with event := setBit s.tbu.event k } := by
  unfold tbuEvent
  extract_lets up tbu t
  split
  · exact (congrArg State.tbu (raiseBlock_core 2 t) :)
  · rfl

theorem selId_selectDom (y : DomId) (auto : Bool) (s : State) : selId (selectDom y auto s) = y := by
  cases h : isSel y s
  case true => rw [selectDom_same h, isSel_iff.mp h]
  case false => rw [selId_clocked (selectDom_clocked h auto), selId_switched]

theorem selId_takeSel (y : DomId) (s : State) : selId (takeSel y s) = if isSel y s || (getDom y s).st = .disabled then selId s else y := by
  unfold takeSel
  cases hsel : isSel y s
  case true => simp
  case false =>
    by_cases hst : (getDom y s).st = .disabled
    · simp [hst, selId_clocked (tbuEvent_clocked 11 s)]
    · simp [hst, selId_selectDom]

theorem takeSel_refused {y : DomId} {s : State} (hsel : isSel y s = false) (hst : (getDom y s).st = .disabled) : takeSel y s = tbuEvent 11 s := by
  simp [takeSel, hsel, hst]

/-- A write of TBU_CTRL is noted with its AUTO_SEL. -/
def ctrlNoted (y : DomId) (v : Word) (s : State) : State :=
  { s with tbu := { s.tbu with ctrl := (s.tbu.ctrl &&& 1#32) ||| (v &&& 2#32), selWrite := some (s.tbu.free, y) } }

theorem bitOf_ctrl (c v : Word) : bitOf ((c &&& 1#32) ||| (v &&& 2#32)) 0 = bitOf c 0 ∧ bitOf ((c &&& 1#32) ||| (v &&& 2#32)) 1 = bitOf v 1 := by
  simp [bitOf]

theorem selB_ctrlNoted (y : DomId) (v : Word) (s : State) : selB (ctrlNoted y v s) = selB s := (bitOf_ctrl s.tbu.ctrl v).1

theorem selId_ctrlNoted (y : DomId) (v : Word) (s : State) : selId (ctrlNoted y v s) = selId s := by rw [selId, selB_ctrlNoted, selId]

theorem getDom_ctrlNoted (x y : DomId) (v : Word) (s : State) : getDom x (ctrlNoted y v s) = getDom x s := by cases x <;> rfl

theorem discTime_ctrlNoted (y : DomId) (v : Word) (s : State) : discTime (ctrlNoted y v s) = discTime s := by
  rw [discTime_eq, discTime_eq, selId_ctrlNoted, timeOf, getDom_ctrlNoted]
  rfl

/-- With AUTO_SEL 0 a write of TBU_CTRL is one of SEL. -/
theorem writeTbuCtrl_sel {v : Word} (h : bitOf v 1 = false) (s : State) :
    writeTbuCtrl v s = takeSel (if bitOf v 0 then .b else .a) (ctrlNoted (if bitOf v 0 then .b else .a) v s) := by
  have hauto : bitOf (ctrlNoted (if bitOf v 0 then .b else .a) v s).tbu.ctrl 1 = false := (bitOf_ctrl s.tbu.ctrl v).2.trans h
  unfold writeTbuCtrl
  extract_lets y tbu u y'
  rw [show bitOf u.tbu.ctrl 1 = false from hauto]
  rfl

/-! TBU_DCFG (R113) -/

theorem bitOf_dcfgNext (old v : Word) (locked : Bool) : bitOf (dcfgNext old v locked) 16 = bitOf v 16 := by
  unfold dcfgNext
  extract_lets en prof
  have hprof : prof.getLsbD 16 = false := by
    unfold prof
    split <;> simp
  unfold bitOf
  split
  · simp [en]
  · rw [BitVec.getLsbD_or, BitVec.getLsbD_or, hprof]
    simp [en]

theorem dsCheck_ashore (s : State) : (dsCheck s).ashore = s.ashore :=
  foldl_ashore _ _ _ fun u p => by
    split
    · exact dsRevoke_ashore p u
    · rfl

/-- What a change of ENABLE leaves of a domain. -/
def Dom.toggled (v : Word) (locked : Bool) (d : Dom) : Dom := { d with
  dcfg := dcfgNext d.dcfg v locked, gm := none, foreign := [], twoStep := none, dwell := none, removed := d.enabled }

theorem writeDcfg_eq {x : DomId} {v : Word} {s : State} (h : bitOf v 16 = !(getDom x s).enabled) :
    writeDcfg x v s = enterState x (if bitOf v 16 then .freerun else .disabled) (modDom x (Dom.toggled v s.sys.locked) s) := by
  have hwas : (getDom x s).enabled = !(bitOf v 16) := by rw [h, Bool.not_not]
  have hmod : modDom x (Dom.toggled v s.sys.locked) s = modDom x (fun d => { d with
      gm := none, foreign := [], twoStep := none, dwell := none, removed := !(bitOf v 16) })
        (modDom x (fun d => { d with dcfg := dcfgNext (getDom x s).dcfg v s.sys.locked }) s) := by
    rw [← hwas]
    cases x <;> rfl
  simp only [writeDcfg, bitOf_dcfgNext, hwas, hmod]
  cases bitOf v 16 <;> rfl

/-- ENABLE changes: the domain has its new register, no grandmaster, and the state that ENABLE gives it. -/
theorem writeDcfg_toggles {x : DomId} {v : Word} {s : State} (h : bitOf v 16 = !(getDom x s).enabled) :
    let t := writeDcfg x v s
    (getDom x t).enabled = bitOf v 16 ∧ (getDom x t).st = (if bitOf v 16 then .freerun else .disabled) ∧ (getDom x t).gm = none ∧
      t.kst = s.kst ∧ t.tbu.free = s.tbu.free := by
  intro t
  have hdial : t.dial = (modDom x (Dom.toggled v s.sys.locked) s).dial := by rw [show t = _ from writeDcfg_eq h, enterState_dial]
  have hdom : (getDom x t).dial = (Dom.toggled v s.sys.locked (getDom x s)).dial := by
    rw [← getDom_dial, hdial, getDom_dial, getDom_modDom_same]
  have hcfg : (getDom x t).dcfg = dcfgNext (getDom x s).dcfg v s.sys.locked := (congrArg Dom.dcfg hdom :)
  refine ⟨?_, ?_, (congrArg Dom.gm hdom :), ?_, ?_⟩
  · rw [Dom.enabled, hcfg, bitOf_dcfgNext]
  · rw [show t = _ from writeDcfg_eq h, st_enterState]
  · exact (congrArg State.kst hdial).trans (by cases x <;> rfl)
  · exact (congrArg (fun u : State => u.tbu.free) hdial).trans (modDom_free x _ s)

theorem rtcUpdate_due {s : State} (hset : s.tbu.timeSet = true) (hgood : s.tbu.suspect = false)
    (hdue : ∀ w, s.kst.rtcWr = some w → w + 60 * secFr ≤ s.tbu.free) :
    rtcUpdate s = { s with kst := { s.kst with rtc := secOf (discTime s), rtcAt := s.sys.aon, rtcWr := some s.tbu.free } } := by
  have hdue' : (match s.kst.rtcWr with | none => true | some t => decide (t + 60 * secFr ≤ s.tbu.free)) = true := by
    cases hwr : s.kst.rtcWr with
    | none => rfl
    | some w => exact decide_eq_true (hdue w hwr)
  exact if_pos (by rw [Bool.and_eq_true, Bool.and_eq_true, hset, hgood]; exact ⟨⟨hdue', rfl⟩, rfl⟩)

/-- Settles O42: SEL changes through `takeSel`, which keeps disciplined time, and ENABLE through `enterState`. -/
theorem timeRegisters : Obligations.TimeRegisters := by
  unfold Obligations.TimeRegisters
  intro dt x v s s0
  refine ⟨fun hopen hbit => ?_, fun hopen hbit => ?_, fun hopen hauto => ?_, fun hopen hbit => ?_, fun hready hset hgood hdue => ?_⟩
  · refine ⟨_, (exec_onBar rfl hopen).trans (congrArg Host.Outcome.next (if_pos hbit)), rfl, rfl, rfl, rfl, rfl, rfl⟩
  · rw [exec_onBar (i := .tbuSnap dt v) rfl hopen, tbuSnap_idle hbit]
  · intro y
    have hexec : exec (.tbuCtrlWrite dt v) s = .next (takeSel y (ctrlNoted y v s0)) := by
      rw [exec_onBar (i := .tbuCtrlWrite dt v) rfl hopen, writeTbuCtrl_sel hauto]
    have hsel : isSel y (ctrlNoted y v s0) = isSel y s0 := by rw [isSel, selId_ctrlNoted, isSel]
    have honly : OnlyTime s0 (takeSel y (ctrlNoted y v s0)) :=
      onlyTime_of_untimed ((untimed_of_dial (takeSel_dial y (ctrlNoted y v s0))).trans rfl)
    refine ⟨_, hexec, honly, ?_, ?_, fun hother hst => ?_⟩
    · rw [discTime_takeSel, discTime_ctrlNoted]
    · rw [selId_takeSel, hsel, getDom_ctrlNoted, selId_ctrlNoted]
    · rw [takeSel_refused (hsel.trans hother) (by rw [getDom_ctrlNoted, hst]), tbuEvent_tbu]
      exact bitOf_setBit_same _ (by decide)
  · obtain ⟨hen, hst, hgm, hkst, hfree⟩ := writeDcfg_toggles hbit
    have hafter := dsCheck_ashore (writeDcfg x v s0)
    have htbu : (putDcfg x v s0).tbu = (writeDcfg x v s0).tbu := (congrArg State.tbu hafter :)
    have hdom : getDom x (putDcfg x v s0) = getDom x (writeDcfg x v s0) := by cases x <;> simp only [getDom, htbu]
    refine ⟨_, exec_onBar rfl hopen, ?_, ?_, ?_, ?_, ?_⟩
    · rw [hdom, hen]
    · rw [hdom, hst]
    · rw [hdom, hgm]
    · exact (congrArg State.kst hafter :).trans hkst
    · rw [htbu, hfree]
  · rw [exec_live (i := .rtcUpdate dt) rfl hready, rtcUpdate_due hset hgood hdue]

end Sys2Proof.Machine
end

section
/-! SUPPORT. PPS and the holdover limit (R91, R95 to R97, R546). -/

namespace Sys2Proof.Machine

/-! PPS_OUT (R97) -/

theorem ppsOutSecond_rises {s : State} (hen : bitOf s.tbu.pps.cfg 0 = true) (hset : s.tbu.timeSet = true)
    (hhold : ∀ h, s.tbu.pps.holdTo = some h → h ≤ discTime s / (secFr : Int) * (secFr : Int))
    (hnew : s.tbu.pps.lastSec ≠ some (discTime s / (secFr : Int))) :
    ppsOutSecond s = { s with tbu := { s.tbu with pps := { s.tbu.pps with
      out := true, fallAt := some (s.tbu.free + fld s.tbu.pps.cfg.toNat 31 12 * 1000 * fr), holdTo := none
      lastSec := some (discTime s / (secFr : Int)) } } } := by
  unfold ppsOutSecond
  extract_lets p sec held
  have hheld : held = false := by
    unfold held
    split
    next h heq => exact decide_eq_false (Int.not_lt.mpr (hhold h heq))
    next => rfl
  have hsec : decide (p.lastSec = some sec) = false := decide_eq_false hnew
  rw [if_neg (by rw [show bitOf p.cfg 0 = true from hen, hset, hheld, hsec]; decide)]

theorem ppsOutSecond_idle {s : State}
    (h : bitOf s.tbu.pps.cfg 0 = false ∨ s.tbu.timeSet = false ∨ s.tbu.pps.lastSec = some (discTime s / (secFr : Int))) : ppsOutSecond s = s := by
  unfold ppsOutSecond
  extract_lets p sec held
  refine if_pos ?_
  rcases h with h | h | h
  · simp [show bitOf p.cfg 0 = false from h]
  · simp [h]
  · simp [show p.lastSec = some sec from h]

theorem ppsOutFall_eq {f : Nat} {s : State} (h : s.tbu.pps.fallAt = some f) :
    ppsOutFall s = if s.tbu.free < f then s else { s with tbu := { s.tbu with pps := { s.tbu.pps with out := false, fallAt := none } } } := by
  simp only [ppsOutFall, h]

theorem ppsOutFall_none {s : State} (h : s.tbu.pps.fallAt = none) : ppsOutFall s = s := by simp only [ppsOutFall, h]

/-- Settles O41: the edges of PPS_OUT by the conditions of `ppsOutSecond` and the instant of `ppsOutFall`. -/
theorem ppsOut : Obligations.PpsOut := by
  unfold Obligations.PpsOut
  intro dt s s0 hready now p sec
  refine ⟨fun hen hset hhold hnew => ?_, fun h => ?_, fun f hf => ?_, fun hf => ?_⟩
  · rw [exec_live (i := .ppsOutSecond dt) rfl hready, ppsOutSecond_rises hen hset hhold hnew]
  · rw [exec_live (i := .ppsOutSecond dt) rfl hready, ppsOutSecond_idle h]
  · rw [exec_live (i := .ppsOutFall dt) rfl hready, ppsOutFall_eq hf]
  · rw [exec_live (i := .ppsOutFall dt) rfl hready, ppsOutFall_none hf]

/-! PPS_IN (R95, R96, R546) -/

theorem fld_low_half (n : Nat) : fld n 15 0 = n % 65536 := rfl
theorem fld_high_half (n : Nat) : fld n 31 16 = n / 65536 % 65536 := by
  rw [fld, Nat.shiftRight_eq_div_pow]
  rfl
theorem satN_half (n : Nat) : satN 16 n = min n 65535 := rfl

theorem halves_toNat {hi lo : Nat} (hhi : hi < 65536) (hlo : lo < 65536) : (BitVec.ofNat 32 (hi <<< 16 + lo)).toNat = hi * 65536 + lo := by
  rw [BitVec.toNat_ofNat, Nat.shiftLeft_eq]
  exact Nat.mod_eq_of_lt (by omega)

theorem ppsCount_accepted (w : Word) : fld (ppsCount false w).toNat 15 0 = min 65535 (fld w.toNat 15 0 + 1) := by
  have hhi : fld w.toNat 31 16 < 65536 := Nat.mod_lt _ (by decide)
  rw [ppsCount, if_neg Bool.false_ne_true, satN_half, halves_toNat hhi (by omega), fld_low_half]
  omega

theorem ppsCount_rejected (w : Word) : fld (ppsCount true w).toNat 31 16 = min 65535 (fld w.toNat 31 16 + 1) := by
  have hlo : fld w.toNat 15 0 < 65536 := Nat.mod_lt _ (by decide)
  rw [ppsCount, if_pos rfl, satN_half, halves_toNat (by omega) hlo, fld_high_half]
  omega

/-- An edge on time after the last accepted one. -/
def OnTime (s : State) : Prop := ∃ t, s.tbu.pps.lastAcc = some t ∧ t + secFr - 100000 * fr ≤ s.tbu.free ∧ s.tbu.free ≤ t + secFr + 100000 * fr

theorem onTime_iff (s : State) : (match s.tbu.pps.lastAcc with | none => false | some t => ppsOnTime t s.tbu.free) = true ↔ OnTime s := by
  unfold OnTime ppsOnTime
  cases s.tbu.pps.lastAcc <;> simp

theorem ppsEdge_off {s : State} (h : bitOf s.tbu.pps.cfg 1 = false) : ppsEdge s = s := if_pos h

theorem ppsEdge_rejected {s : State} (hen : bitOf s.tbu.pps.cfg 1 = true) (h : ¬ OnTime s) :
    ppsEdge s = { s with tbu := { s.tbu with pps := { s.tbu.pps with
      inCnt := ppsCount true s.tbu.pps.inCnt, lastAcc := s.tbu.pps.lastAcc.orElse fun _ => some s.tbu.free, run := 0 } } } := by
  rw [← onTime_iff, Bool.not_eq_true] at h
  unfold ppsEdge
  extract_lets p f ok
  rw [if_neg (by rw [show bitOf p.cfg 1 = true from hen]; decide), if_pos (by rw [show ok = false from h]; rfl)]

/-- What an accepted edge leaves of PPS_IN, whether or not it steers the selected domain. -/
theorem ppsEdge_accepted {s : State} (hen : bitOf s.tbu.pps.cfg 1 = true) (h : OnTime s) :
    ∃ q : Pps, (ppsEdge s).dial = { s with tbu := { s.tbu with pps := q } }.dial ∧ q.lastAcc = some s.tbu.free ∧ q.run = s.tbu.pps.run + 1 ∧
      q.valid = (s.tbu.pps.valid || decide (3 ≤ s.tbu.pps.run + 1)) ∧ q.inCnt = ppsCount false s.tbu.pps.inCnt := by
  rw [← onTime_iff] at h
  unfold ppsEdge
  extract_lets p f ok delay t ta tb run tbu u v
  rw [if_neg (by rw [show bitOf p.cfg 1 = true from hen]; decide), if_neg (by rw [show ok = true from h]; decide), crossCheck_dial]
  refine ⟨u.tbu.pps, ?_, rfl, rfl, rfl, rfl⟩
  have hu : u.dial = { s with tbu := { s.tbu with pps := u.tbu.pps } }.dial := rfl
  unfold v
  split
  · rw [servo_dial, hu]
  · exact hu

/-- No rising edge came within 500 ns before this instant. -/
def EdgeFar (s : State) : Prop := ∀ t, s.tbu.pps.rise = some t → t + 500 * fr ≤ s.tbu.free

theorem edgeNear_iff (s : State) :
    (match s.tbu.pps.rise with | some t => decide (s.tbu.free < t + 500 * fr) | none => false) = true ↔ ¬ EdgeFar s := by
  unfold EdgeFar
  cases hrise : s.tbu.pps.rise with
  | none => simp
  | some t => simp only [decide_eq_true_eq, Option.some.injEq, forall_eq', Nat.not_le]

theorem ppsInEdge_near {s : State} (h : ¬ EdgeFar s) : ppsInEdge s = noteRise s := if_pos ((edgeNear_iff s).mpr h)

theorem ppsInEdge_far {s : State} (h : EdgeFar s) : ppsInEdge s = ppsEdge (noteRise s) := if_neg (mt (edgeNear_iff s).mp (not_not_intro h))

/-! The loss of PPS_IN, and the holdover limit (R91, R95) -/

theorem discTime_ppsUnassist (s : State) : discTime (ppsUnassist s) = discTime s := by
  have hsel : selId (ppsUnassist s) = selId s := modDom_selId ..
  rw [discTime_eq, hsel, discTime_eq]
  exact timeOf_modDom fun d => domTimeAt_holdFreq d s.tbu.free

/-- PPS_IN without an accepted edge. -/
def ppsForgotten (s : State) : State := { s with tbu := { s.tbu with pps := { s.tbu.pps with lastAcc := none, run := 0, valid := false } } }

theorem ppsInLost_due {a : Nat} {s : State} (hacc : s.tbu.pps.lastAcc = some a) (hdue : a + 2 * secFr ≤ s.tbu.free) :
    (ppsInLost s).dial = (ppsForgotten s).dial ∧ discTime (ppsInLost s) = discTime s := by
  have heq : ppsInLost s = if s.tbu.pps.valid then tbuEvent 9 (ppsUnassist (ppsForgotten s)) else ppsForgotten s := by
    simp only [ppsInLost, hacc, Nat.not_lt.mpr hdue, if_false]
    rfl
  rw [heq]
  split
  · rw [tbuEvent_dial, discTime_clocked (tbuEvent_clocked 9 _), discTime_ppsUnassist]
    exact ⟨modDom_dial (holdFreq_dial _) _ _, rfl⟩
  · exact ⟨rfl, rfl⟩

theorem evalSuspect_held {s : State} (h : suspectHeld s = true) (check pairBad : Bool) :
    (evalSuspect check pairBad s).tbu.suspect = true ∧ (evalSuspect check pairBad s).tbu.lastBad = some s.tbu.free := by
  unfold evalSuspect
  rw [h, Bool.or_true, if_pos rfl]
  extract_lets was tbu t
  have hlog : (logSuspect 0x11 (tbuEvent 4 t)).tbu = (tbuEvent 4 t).tbu := (congrArg State.tbu (logEv_core ..) :)
  split
  · exact ⟨rfl, rfl⟩
  · rw [hlog, tbuEvent_tbu]
    exact ⟨rfl, rfl⟩

theorem suspectHeld_of_limit {l : Nat} {s : State} (hleft : (selDom s).leftLocked = some l)
    (h : l + fld s.tbu.holdLimit.toNat 15 0 * secFr < s.tbu.free) : suspectHeld s = true := by
  simp [suspectHeld, hleft, h]

theorem evalSuspect_idle {s : State} (h : suspectHeld s = false) : evalSuspect false false s = s := by simp [evalSuspect, h]

/-- Settles O40: the instant of an edge decides how PPS_IN takes it, and `evalSuspect` judges the holdover limit. -/
theorem ppsInAndHoldover : Obligations.PpsInAndHoldover := by
  unfold Obligations.PpsInAndHoldover
  intro dt s s0 hready now p ok far sees
  have hedge : exec (.ppsInEdge dt) s = .next (ppsInEdge s0) := exec_live rfl hready
  refine ⟨fun hen hfar hok => ?_, fun hen hfar hok => ?_, fun h => ?_, fun a hacc hdue => ?_, fun hheld => ?_, fun l hleft hlim => ?_, fun h => ?_⟩
  · obtain ⟨q, hdial, hacc, hrun, hvalid, hcnt⟩ := ppsEdge_accepted (s := noteRise s0) hen hok
    rw [ppsInEdge_far hfar] at hedge
    have hpps : (ppsEdge (noteRise s0)).tbu.pps = q := (congrArg (fun u : State => u.tbu.pps) hdial :)
    refine ⟨_, hedge, onlyTime_of_untimed ((untimed_of_dial hdial).trans rfl), ?_, ?_, ?_, ?_⟩
    · rw [hpps, hacc]
      rfl
    · rw [hpps, hrun]
      rfl
    · rw [hpps, hvalid, Bool.or_eq_true, decide_eq_true_eq]
      rfl
    · rw [hpps, hcnt, ppsCount_accepted]
      rfl
  · rw [hedge, ppsInEdge_far hfar, ppsEdge_rejected (s := noteRise s0) hen hok]
    exact ⟨_, rfl, ppsCount_rejected _⟩
  · by_cases hfar : far
    · have hoff : bitOf p.cfg 1 = false := h.resolve_right (not_not_intro hfar)
      rw [hedge, ppsInEdge_far hfar, ppsEdge_off (s := noteRise s0) hoff]
      rfl
    · rw [hedge, ppsInEdge_near hfar]
      rfl
  · obtain ⟨hdial, htime⟩ := ppsInLost_due hacc hdue
    have hpps : (ppsInLost s0).tbu.pps = (ppsForgotten s0).tbu.pps := (congrArg (fun u : State => u.tbu.pps) hdial :)
    refine ⟨_, exec_live rfl hready, onlyTime_of_untimed ((untimed_of_dial hdial).trans rfl), ?_, ?_, ?_, htime⟩
    all_goals
      rw [hpps]
      rfl
  · have hclocked := evalSuspect_clocked false false s0
    obtain ⟨hsuspect, hbad⟩ := evalSuspect_held hheld false false
    exact ⟨_, exec_live rfl hready, onlyTime_of_untimed (untimed_of_dial (dial_of_clocked hclocked)), hsuspect, hbad, discTime_clocked hclocked⟩
  · exact suspectHeld_of_limit hleft hlim
  · rw [exec_live (i := .holdoverLimit dt) rfl hready, evalSuspect_idle h]

end Sys2Proof.Machine
end

section
/-! SUPPORT. A write of SEL that AUTO_SEL overrides in the same cycle (R76, R87). -/

namespace Sys2Proof.Machine

/-- Outside RUN, with no tick in progress, no flow, and no mark or mirrored command that waits. -/
def Still (s : State) : Prop :=
  s.tkx.cur = none ∧ s.tkx.flows = [] ∧ s.sys.runState ≠ .run ∧ s.pair.toMark = [] ∧ s.pair.mirrored = []

theorem Still.of_onlyTime {s t : State} (h : Still s) (ht : OnlyTime s t) : Still t := by
  rw [show t = _ from ht]
  exact h

/-- The Helm of a module that stands does not go on. -/
theorem Still.goesOn {s : State} (h : Still s) : drainMirrored (settle s) = s := by
  obtain ⟨hcur, hflows, hrun, hmarks, hmirrored⟩ := h
  have hsteps : ∀ k, settleN k s = s := fun k => by
    induction k with
    | zero => rfl
    | succ k ih => rw [settleN, show settleStep s = s by rw [settleStep, hcur], ih]
  have hrelease : releaseAll s = s := by
    rw [releaseAll, hflows]
    rfl
  have hmaint : maintWhenIdle s = s := if_neg (by simp [hrun])
  have hsettle : settle s = s := by
    rw [settle, hrelease, hsteps, hmaint, marksDue, hmarks]
    rfl
  rw [hsettle, drainMirrored, hmirrored]
  rfl

/-- Domain A in DEAD_RECKONING, selected, on the rate of its frequency term of 1 ppb since TBU_FREE was 0. -/
def driftingDom : Dom := { Dom.reset with
  dcfg := 0x11000#32, st := .deadReckoning, freq := 65536, rate := 4, dwell := some .firstSync
  gm := some { port := 0, times := [], ann :=
    { source := ⟨0, 0⟩, logInt := 0, utcOffset := 37, leap61 := false, leap59 := false, utcValid := true, prio1 := 0, clsAcc := 0, prio2 := 0, gm := 0, steps := 0 } } }

/-- CONFIG with AUTO_SEL, domain B LOCKED, and in this cycle a write of SEL that names domain A. -/
def wavering : State := { State.reset with
  sys := { Sys.reset with powered := true, ready := true, runState := .config }
  tbu := { Tbu.reset with running := true, free := 2 ^ 32, selWrite := some (2 ^ 32, .a), domA := driftingDom, domB := { Dom.reset with st := .locked } } }

/-- The Sync that ends the dwell. -/
def dwellEnd : SyncIn := { port := 0, num := 0, source := ⟨0, 0⟩, seq := 0, twoStep := false, t1 := ⟨0, 0⟩, corr := 0, logInt := 0 }

/-- What the Sync makes of that state. -/
def wavered : State :=
  withStep (fun s => syncFor .b 0 0 ⟨0, 0⟩ 0 false ⟨0, 0⟩ 0 0 (syncFor .a 0 0 ⟨0, 0⟩ 0 false ⟨0, 0⟩ 0 0 s)) wavering

/-- AUTO_SEL selects domain B and the write of SEL takes the selection back, which anchors domain A anew: its OFFSET takes in what its rate has
added since its last anchor. -/
theorem wavered_offset : (getDom .a wavered).offset = 4 := by decide +kernel

theorem wavered_still : Still wavered := by
  unfold Still
  decide +kernel

theorem exec_dwellEnd : exec (.ptpSyncReceive 0 dwellEnd) wavering = .next wavered := by
  have hexec : exec (.ptpSyncReceive 0 dwellEnd) wavering = .next (drainMirrored (settle wavered)) := by
    rw [exec_onTick (i := .ptpSyncReceive 0 dwellEnd) rfl rfl, elapse_zero]
    rfl
  rw [hexec, wavered_still.goesOn]

/-- Refutes O38: it says that a Sync in DEAD_RECKONING leaves OFFSET as it is where no phase term is in force. That fails in `wavering`, where
AUTO_SEL and a write of SEL in the same cycle move the selection away and back (R87): OFFSET goes from 0 to 4. -/
theorem not_sourceStates : ¬ Obligations.SourceStates := by
  unfold Obligations.SourceStates
  intro h
  obtain ⟨hsync, -⟩ := h 0 .a dwellEnd wavering rfl
  rw [elapse_zero] at hsync
  obtain ⟨-, hdr⟩ := hsync (by decide) (by decide) (by decide) (by decide) (by decide) rfl
  obtain ⟨u, hexec, honly, -, hoffset, -⟩ := hdr rfl
  obtain ⟨hkept, -⟩ := hoffset (by decide)
  have hstill : Still wavering := by
    unfold Still
    decide
  rw [exec_dwellEnd, (hstill.of_onlyTime honly).goesOn] at hexec
  have hu : wavered = u := by injection hexec
  rw [← hu, wavered_offset] at hkept
  exact absurd hkept (by decide)

end Sys2Proof.Machine
end

section
/-! SUPPORT. Entries that leave: a flush of an ingest FIFO, a GOOSE time to live, the tables of the ports (R109, R134, R153, R160, R177, R179). -/

namespace Sys2Proof.Machine

theorem ingEvent_rest (k : Nat) (s : State) : (ingEvent k s).rest = { s with ing := { s.ing with event := setBit s.ing.event k } }.rest := by
  unfold ingEvent
  extract_lets up ing t
  split
  · exact raiseBlock_rest 4 t
  · rfl

/-! Requests to flush (R179) -/

theorem fifoOf_setAt {n : Nat} {s t : State} {f : Fifo} (h : n < s.ing.fifos.length) (ht : t.ing.fifos = setAt s.ing.fifos n f) :
    fifoOf t n = f ∧ ∀ j, j ≠ n → fifoOf t j = fifoOf s j := by
  simp only [fifoOf, ht, setAt]
  exact ⟨nth_modAt_same h .., fun j hj => nth_modAt_ne hj.symm ..⟩

/-- What the requests for some FIFOs leave of FIFO n. -/
structure Requested (m : Word) (l : List Nat) (n : Nat) (s t : State) : Prop where
  only  : t = { s with ing := { s.ing with fifos := t.ing.fifos } }
  len   : t.ing.fifos.length = s.ing.fifos.length
  pkts  : (fifoOf t n).pkts = (fifoOf s n).pkts
  flush : (fifoOf t n).flush = if n ∈ l ∧ bitOf m n = true then some (fifoOf s n).pkts.length else (fifoOf s n).flush

theorem fifoFlushReq_fifo {n k : Nat} {s : State} (h : n < s.ing.fifos.length) :
    fifoOf (fifoFlushReq k s) n = if k = n then { fifoOf s n with flush := some (fifoOf s n).pkts.length } else fifoOf s n := by
  split
  next hk =>
    subst hk
    exact nth_modAt_same h _ _
  next hk => exact nth_modAt_ne hk _ _ _

theorem flushRequests (m : Word) (l : List Nat) {n : Nat} {s : State} (h : n < s.ing.fifos.length) :
    Requested m l n s (l.foldl (fun s k => if bitOf m k then fifoFlushReq k s else s) s) := by
  induction l generalizing s with
  | nil => exact ⟨rfl, rfl, rfl, by simp⟩
  | cons k l ih =>
    rw [List.foldl_cons]
    split
    next hk =>
      have hfifo := fifoFlushReq_fifo (k := k) h
      obtain ⟨only, len, pkts, flush⟩ := ih (s := fifoFlushReq k s) (by rwa [fifoFlushReq, setAt, modAt_length])
      refine ⟨only, len.trans (modAt_length ..), ?_, ?_⟩
      · rw [pkts, hfifo]
        split <;> rfl
      · rw [flush, hfifo]
        by_cases hkn : k = n
        · subst hkn
          simp [hk]
        · simp [hkn, Ne.symm hkn]
    next hk =>
      obtain ⟨only, len, pkts, flush⟩ := ih h
      refine ⟨only, len, pkts, ?_⟩
      rw [flush]
      by_cases hkn : k = n
      · subst hkn
        simp [hk]
      · simp [Ne.symm hkn]

/-! The discard of a flush ends (R177, R179) -/

/-- The engine only adds packets at the tail, and leaves a flush as it is. -/
theorem drive_keeps (k : Nat) (f : Fifo) : (f.drive k).1.flush = f.flush ∧ f.pkts <+: (f.drive k).1.pkts := by
  induction k generalizing f with
  | zero => exact ⟨rfl, List.prefix_rfl⟩
  | succ k ih =>
    unfold Fifo.drive
    split
    · extract_lets j x g
      split
      · obtain ⟨hflush, hpkts⟩ := ih { g with pkts := g.pkts ++ [_], part := none }
        exact ⟨hflush, (List.prefix_append ..).trans hpkts⟩
      · exact ⟨rfl, List.prefix_rfl⟩
    · split
      · exact ih _
      · exact ⟨rfl, List.prefix_rfl⟩

/-- An engine that holds nothing pushes nothing. -/
theorem drive_free {f : Fifo} (hpart : f.part = none) (hwait : f.wait = []) (k : Nat) : (f.drive k).1 = f := by
  cases k with
  | zero => rfl
  | succ k => simp only [Fifo.drive, hpart, hwait]

/-- From `s` to `t` nothing but Ingest's own state and the host interface changed, no FIFO and no counter of frames in it. -/
def Marked (s t : State) : Prop := ∃ x : Ing, t.rest = { s with ing := x }.rest ∧ x.fifos = s.ing.fifos ∧ x.cnt = s.ing.cnt

theorem Marked.event {s t : State} (h : Marked s t) (k : Nat) : Marked s (ingEvent k t) := by
  obtain ⟨x, hx, hfifos, hcnt⟩ := h
  have hing : t.ing = x := (congrArg State.ing hx :)
  refine ⟨{ x with event := setBit x.event k }, ?_, hfifos, hcnt⟩
  rw [ingEvent_rest, hing]
  exact (congrArg (fun t : State => { t with ing := { x with event := setBit x.event k } }) hx :)

theorem Marked.ite {s t u : State} (ht : Marked s t) (hu : Marked s u) (c : Prop) [Decidable c] : Marked s (if c then t else u) := by
  split
  · exact ht
  · exact hu

theorem Marked.eventIf {s t : State} (h : Marked s t) (k : Nat) (c : Prop) [Decidable c] : Marked s (if c then ingEvent k t else t) :=
  (h.event k).ite h c

/-- What a FIFO takes of its engine's packets stands in the FIFO; the rest is events and the count of spilled entries. -/
theorem fifoDrive_marked (n : Nat) (f : Fifo) (s : State) :
    ∃ x : Ing, x.fifos = setAt s.ing.fifos n (f.drive (2 * f.wait.length + 2)).1 ∧ x.cnt = s.ing.cnt ∧ Marked { s with ing := x } (fifoDrive n f s) := by
  refine ⟨{ s.ing with fifos := _, spill := satAdd s.ing.spill (f.drive (2 * f.wait.length + 2)).2 }, rfl, rfl, ?_⟩
  unfold fifoDrive
  generalize f.drive (2 * f.wait.length + 2) = d
  refine Marked.eventIf ?_ 8 _
  split
  · refine Marked.event ?_ 7
    exact ⟨_, rfl, rfl, rfl⟩
  · exact ⟨_, rfl, rfl, rfl⟩

/-- A FIFO without its k oldest packets, its flush over. -/
def shortened (f : Fifo) (k : Nat) : Fifo :=
  let x := f.fill.pop (sumN ((f.pkts.take k).map Pkt.words))
  { f with pkts := f.pkts.drop k, head := x.head, mid := x.mid, flush := none }

theorem flushDone_eq {n k : Nat} {s : State} (hflush : (fifoOf s n).flush = some k) : ∃ c,
    flushDone n s = ingEvent 9 (fifoDrive n (shortened (fifoOf s n) k) { s with ing := { s.ing with spill := c } }) := by
  simp only [flushDone, hflush, fifoDrop, List.take_zero, List.nil_append, Nat.zero_add, List.drop_zero]
  exact ⟨_, rfl⟩

/-- The discard of a flush of k packets (R179). -/
theorem flushDone_discards {n k : Nat} {s : State} (h : n < s.ing.fifos.length) (hflush : (fifoOf s n).flush = some k) :
    ∃ t, flushDone n s = t ∧ t = { s with ing := t.ing, hif := t.hif, out := t.out } ∧ (∀ j, j ≠ n → fifoOf t j = fifoOf s j) ∧
      (fifoOf t n).flush = none ∧ (fifoOf s n).pkts.drop k <+: (fifoOf t n).pkts ∧
      (engineFree s n = true → (fifoOf t n).pkts = (fifoOf s n).pkts.drop k) ∧ bitOf t.ing.event 9 = true ∧ t.ing.cnt = s.ing.cnt := by
  obtain ⟨c, hdone⟩ := flushDone_eq hflush
  rw [hdone]
  obtain ⟨y, hyfifos, hycnt, z, hz, hzfifos, hzcnt⟩ := fifoDrive_marked n (shortened (fifoOf s n) k) { s with ing := { s.ing with spill := c } }
  generalize fifoDrive n _ _ = u at hz ⊢
  have hing : u.ing = z := (congrArg State.ing hz :)
  have hrest : (ingEvent 9 u).rest = { s with ing := { z with event := setBit z.event 9 } }.rest := by
    rw [ingEvent_rest, hing]
    exact (congrArg (fun t : State => { t with ing := { z with event := setBit z.event 9 } }) hz :)
  generalize ingEvent 9 u = t at hrest ⊢
  have hting : t.ing = { z with event := setBit z.event 9 } := (congrArg State.ing hrest :)
  obtain ⟨hsame, hother⟩ := fifoOf_setAt (t := t) h ((congrArg Ing.fifos hting).trans (hzfifos.trans hyfifos))
  obtain ⟨hflushed, hkept⟩ := drive_keeps (2 * (shortened (fifoOf s n) k).wait.length + 2) (shortened (fifoOf s n) k)
  refine ⟨t, rfl, ?_, hother, ?_, ?_, fun hfree => ?_, ?_, ?_⟩
  · rw [hting]
    exact rest_ext hrest
  · rw [hsame]
    exact hflushed
  · rw [hsame]
    exact hkept
  · obtain ⟨hpart, hwait⟩ : (fifoOf s n).part = none ∧ (fifoOf s n).wait = [] := by simpa [engineFree] using hfree
    rw [hsame, drive_free (f := shortened (fifoOf s n) k) hpart hwait]
    rfl
  · rw [hting]
    exact bitOf_setBit_same _ (by decide)
  · rw [hting]
    exact hzcnt.trans hycnt

/-! A time to live ends (R153, R160) -/

theorem stalePoint_points (k : Nat) (s : State) : ∃ ps, stalePoint k s = { s with sep := { s.sep with points := ps } } ∧
    ∀ j x, lookupK s.sep.points j = some x → lookupK ps j = some { x with stale := x.stale || decide (j = k) } := by
  unfold stalePoint
  split
  next hnone =>
    refine ⟨s.sep.points, rfl, fun j x hx => ?_⟩
    have hjk : j ≠ k := by
      rintro rfl
      simp [hnone] at hx
    simpa [hjk] using hx
  next p hp =>
    refine ⟨_, rfl, fun j x hx => ?_⟩
    by_cases hjk : j = k
    · subst hjk
      obtain rfl : p = x := Option.some.inj (hp.symm.trans hx)
      simp [lookupK_insertK_same]
    · simpa [lookupK_insertK_ne _ hjk, hjk] using hx

/-- The points of channels become STALE, and nothing else changes. -/
theorem stalePoints_points (l : List Dword) (s : State) : ∃ ps,
    l.foldl (fun s d => stalePoint (chPoint d) s) s = { s with sep := { s.sep with points := ps } } ∧
      ∀ j x, lookupK s.sep.points j = some x → lookupK ps j = some { x with stale := x.stale || decide (j ∈ l.map chPoint) } := by
  induction l generalizing s with
  | nil => exact ⟨_, rfl, fun j x hx => by simpa using hx⟩
  | cons d l ih =>
    obtain ⟨qs, hqs, hfirst⟩ := stalePoint_points (chPoint d) s
    obtain ⟨ps, hps, hothers⟩ := ih (stalePoint (chPoint d) s)
    rw [hqs] at hps hothers
    refine ⟨ps, ?_, fun j x hx => ?_⟩
    · rw [List.foldl_cons, hqs, hps]
    · simpa [Bool.or_assoc] using hothers j _ (hfirst j x hx)

theorem modEp_of_epOf {ep : Nat} {e : EpEntry} {s : State} (h : epOf s ep = some e) (f : EpRt → EpRt) :
    modEp ep f s = { s with ing := { s.ing with eps := insertK s.ing.eps ep { e with rt := f e.rt } } } := by
  have hlook : lookupK s.ing.eps ep = some e := by
    rw [epOf, Option.filter_eq_some_iff] at h
    exact h.1
  simp only [modEp, hlook]

/-- A change of what an endpoint last received leaves its entry valid. -/
theorem epOf_insertK {ep : Nat} {e : EpEntry} {s t : State} (h : epOf s ep = some e) (r : EpRt)
    (ht : t.ing.eps = insertK s.ing.eps ep { e with rt := r }) : epOf t ep = some { e with rt := r } := by
  rw [epOf, Option.filter_eq_some_iff] at h
  rw [epOf, ht, lookupK_insertK_same, Option.filter_eq_some_iff]
  exact ⟨rfl, h.2⟩

theorem gooseTal_pending {ep a : Nat} {e : EpEntry} {s : State} (hep : epOf s ep = some e) (hat : e.rt.talAt = some a)
    (h : s.tbu.free < a ∨ s.sys.runState ≠ .run) : gooseTal ep s = s := by
  have hstays : (decide (s.tbu.free < a) || !(intake s) || pduWaits s e a) = true := by
    simp only [intake, Bool.or_eq_true, Bool.not_eq_true', decide_eq_true_eq, decide_eq_false_iff_not]
    exact .inl h
  simp only [gooseTal, hep, hat]
  rw [if_pos hstays]

theorem onlyIngest_of_rest {x : Ing} {y : Sep} {s t : State} (h : t.rest = { s with ing := x, sep := y }.rest) : OnlyIngest s t := by
  obtain ⟨⟩ := s
  obtain ⟨⟩ := t
  simp only [OnlyIngest, State.rest, State.mk.injEq] at h ⊢
  simp [h]

/-- The time to live of an endpoint ends in RUN. -/
theorem gooseTal_expires {ep a : Nat} {e : EpEntry} {s : State} (hep : epOf s ep = some e) (hat : e.rt.talAt = some a)
    (hdue : a ≤ s.tbu.free) (hrun : s.sys.runState = .run) (hwait : pduWaits s e a = false) :
    ∃ t, gooseTal ep s = t ∧ OnlyIngest s t ∧ t.ge = s.ge ∧ t.net = s.net ∧ t.aln = s.aln ∧ t.flt = s.flt ∧ t.ing.fifos = s.ing.fifos ∧
      t.ing.cnt = modAt s.ing.cnt 18 (satAdd · 1) ∧ bitOf t.ing.event 10 = true ∧
      epOf t ep = some { e with rt := { e.rt with talAt := none, stale := true } } ∧
      ∀ d ∈ e.chans, ∀ x, lookupK s.sep.points (chPoint d) = some x → lookupK t.sep.points (chPoint d) = some { x with stale := true } := by
  have hgoes : ¬ (decide (s.tbu.free < a) || !(intake s) || pduWaits s e a) = true := by
    simp [intake, hrun, hwait, hdue]
  obtain ⟨ps, hps, hstale⟩ := stalePoints_points e.chans (modEp ep (fun r => { r with talAt := none, stale := true }) s)
  rw [modEp_of_epOf hep] at hps hstale
  have hrest : (gooseTal ep s).rest = { s with
      ing := { s.ing with
        eps := insertK s.ing.eps ep { e with rt := { e.rt with talAt := none, stale := true } }
        cnt := modAt s.ing.cnt 18 (satAdd · 1)
        event := setBit s.ing.event 10 }
      sep := { s.sep with points := ps } }.rest := by
    simp only [gooseTal, hep, hat]
    rw [if_neg hgoes, modEp_of_epOf hep, hps, ingEvent_rest]
    rfl
  generalize gooseTal ep s = t at hrest
  have hing : t.ing = _ := (congrArg State.ing hrest :)
  have hpoints : t.sep.points = ps := (congrArg (fun t => t.sep.points) hrest :)
  refine ⟨t, rfl, onlyIngest_of_rest hrest, (congrArg State.ge hrest :), (congrArg State.net hrest :), (congrArg State.aln hrest :),
    (congrArg State.flt hrest :), (congrArg Ing.fifos hing :), (congrArg Ing.cnt hing :), ?_, ?_, fun d hd x hx => ?_⟩
  · rw [hing]
    exact bitOf_setBit_same _ (by decide)
  · exact epOf_insertK hep _ (congrArg Ing.eps hing :)
  · have hmem : chPoint d ∈ e.chans.map chPoint := List.mem_map_of_mem hd
    rw [hpoints]
    simpa [hmem] using hstale _ x hx

/-- Settles O44: a flush from its request to its end, the time to live of a GOOSE endpoint, and the filters of the two tables. -/
theorem entriesExpire : Obligations.EntriesExpire := by
  intro dt n ep m s s0 hready hlen hn f
  have hn' : n < s0.ing.fifos.length := by omega
  refine ⟨fun hopen => ?_, fun hflush => ?_, fun k hflush => ?_, fun e a hep hat => ⟨fun h => ?_, fun hdue hrun hwait => ?_⟩, ?_, ?_⟩
  · obtain ⟨only, _, pkts, flush⟩ := flushRequests m (List.range 16) hn'
    refine ⟨_, exec_onBar rfl hopen, only, pkts, flush.trans ?_⟩
    simp [hn, f]
  · rw [exec_live rfl hready]
    simp only [flushDone, s0, f] at hflush ⊢
    rw [hflush]
  · obtain ⟨t, ht, hrest⟩ := flushDone_discards hn' hflush
    exact ⟨t, ht ▸ exec_live rfl hready, hrest⟩
  · exact (exec_live rfl hready).trans (congrArg _ (gooseTal_pending hep hat h))
  · obtain ⟨t, ht, hrest⟩ := gooseTal_expires hep hat hdue hrun hwait
    exact ⟨t, ht ▸ exec_live rfl hready, hrest⟩
  · exact exec_live (op := tcExpire) rfl hready
  · exact exec_live (op := prpForget ep) rfl hready

end Sys2Proof.Machine
end

section
/-! SUPPORT. Pdelay: a frame handed to a port with room for it stands at the end of its express FIFO, its copy on the other port of a pair (R84, R108, R127, R133). -/

namespace Sys2Proof.Machine

/-- A state without its ports, its host interface and what left the module. -/
def State.quay (s : State) : State := { s.rest with net := Net.reset }

theorem onlyPorts_of_quay {s t : State} (h : t.quay = s.quay) : OnlyPorts s t := by
  obtain ⟨⟩ := s
  obtain ⟨⟩ := t
  simp only [OnlyPorts, State.quay, State.rest, State.mk.injEq] at h ⊢
  simp [h]

theorem quay_of_rest {s t : State} (h : t.rest = s.rest) : t.quay = s.quay := (congrArg (fun t : State => { t with net := Net.reset }) h :)

/-- From `s` to `t` only ports changed, port p not. -/
structure Aside (p : Nat) (s t : State) : Prop where
  quay  : t.quay = s.quay
  port  : portOf t p = portOf s p
  count : t.net.ports.length = s.net.ports.length

namespace Aside

theorem refl (p : Nat) (s : State) : Aside p s s := ⟨rfl, rfl, rfl⟩

theorem modPort {p q : Nat} {s t : State} (h : Aside p s t) (hq : q ≠ p) (f : Port → Port) : Aside p s (modPort q f t) where
  quay := h.quay
  port := (nth_modAt_ne hq ..).trans h.port
  count := (modAt_length ..).trans h.count

theorem netEvent {p : Nat} {s t : State} (h : Aside p s t) (k : Nat) : Aside p s (netEvent k t) := by
  obtain ⟨x, hrest, hports⟩ : ∃ x : Net, (Machine.netEvent k t).rest = { t with net := x }.rest ∧ x.ports = t.net.ports := by
    refine ⟨{ t.net with event := setBit t.net.event k }, ?_, rfl⟩
    unfold Machine.netEvent
    extract_lets up _ u
    split
    · exact raiseBlock_rest 3 u
    · rfl
  have hnet : (Machine.netEvent k t).net = x := (congrArg State.net hrest :)
  refine ⟨(quay_of_rest hrest).trans h.quay, ?_, ?_⟩
  · rw [portOf, hnet, hports]
    exact h.port
  · rw [hnet, hports]
    exact h.count

theorem wakePort {p q : Nat} {s t : State} (h : Aside p s t) (hq : q ≠ p) : Aside p s (wakePort q t) := by
  unfold Machine.wakePort
  extract_lets x w
  split
  · exact h.modPort hq _
  · exact h

theorem queueFrame {p q : Nat} {s t : State} (h : Aside p s t) (hq : q ≠ p) (express : Bool) (f : TxFrame) : Aside p s (queueFrame q express f t) := by
  unfold Machine.queueFrame
  split
  · exact h.modPort hq _
  · split
    · split
      · exact (h.modPort hq _).netEvent 9
      · exact (h.wakePort hq).modPort hq _
    · exact (h.wakePort hq).modPort hq _

end Aside

/-- Port p can take an express frame: its link is up and awake, and there is room (R115, R140, R176). -/
structure Takes (s : State) (p : Nat) : Prop where
  within : p < s.net.ports.length
  up     : (portOf s p).linkUp = true
  room   : (portOf s p).express.length < 1088
  awake  : (portOf s p).lpiTx = false

theorem Takes.aside {p : Nat} {s t : State} (h : Takes s p) (ht : Aside p s t) : Takes t p := by
  obtain ⟨hp, hup, hroom, hawake⟩ := h
  exact ⟨by rwa [ht.count], by rwa [ht.port], by rwa [ht.port], by rwa [ht.port]⟩

theorem queueFrame_takes {p : Nat} {s : State} (h : Takes s p) (f : TxFrame) :
    queueFrame p true f s = modPort p (fun q => { q with express := q.express ++ [f] }) s := by
  obtain ⟨_, hup, hroom, hawake⟩ := h
  have hfits : ¬ 64 + 1024 ≤ (portOf s p).express.length := by omega
  simp [queueFrame, wakePort, hup, hawake, hfits]

/-- A frame waits as the last express one of port p, and only ports changed. -/
structure Queued (p : Nat) (mark : TxMark) (s t : State) : Prop where
  quay  : t.quay = s.quay
  last  : ∃ f, (portOf t p).express = (portOf s p).express ++ [f] ∧ f.mark = mark

theorem queueFrame_queued {p : Nat} {s : State} (h : Takes s p) (f : TxFrame) : Queued p f.mark s (queueFrame p true f s) := by
  rw [queueFrame_takes h]
  exact ⟨rfl, f, congrArg Port.express (nth_modAt_same h.within ..), rfl⟩

theorem Aside.queued {p : Nat} {m : TxMark} {s t u : State} (h : Aside p s t) (hu : Queued p m t u) : Queued p m s u :=
  ⟨hu.quay.trans h.quay, h.port ▸ hu.last⟩

theorem Queued.aside {p : Nat} {m : TxMark} {s t u : State} (h : Queued p m s t) (hu : Aside p t u) : Queued p m s u :=
  ⟨hu.quay.trans h.quay, hu.port ▸ h.last⟩

/-- Of the two copies on a pair, that of the port it was handed to keeps the frame's mark (R133). -/
theorem copies_paired {p : Nat} {s : State} (h : paired s p = true) (f : TxFrame) : ∃ f0 f1 s1,
    copies p f s = ([(p - p % 2, f0), (p - p % 2 + 1, f1)], s1) ∧ Aside p s s1 ∧ (p % 2 = 0 → f0.mark = f.mark) ∧ (p % 2 = 1 → f1.mark = f.mark) := by
  unfold copies
  rw [if_pos h]
  refine ⟨_, _, _, rfl, ⟨rfl, rfl, rfl⟩, fun heven => ?_, fun hodd => ?_⟩
  · have hp : p - p % 2 = p := by omega
    simp [withRct, hp]
  · have hp : p - p % 2 + 1 = p := by omega
    simp [withRct, hp]

theorem handFrame_queued {p : Nat} {s : State} (h : Takes s p) (f : TxFrame) : Queued p f.mark s (handFrame p true f s) := by
  unfold handFrame
  by_cases hpair : paired s p = true
  · obtain ⟨f0, f1, s1, hcopies, haside, heven, hodd⟩ := copies_paired hpair f
    simp only [hcopies, List.foldl_cons, List.foldl_nil]
    obtain hpar | hpar := Nat.mod_two_eq_zero_or_one p
    · have hp : p - p % 2 = p := by omega
      rw [hp, ← heven hpar]
      exact (haside.queued (queueFrame_queued (h.aside haside) f0)).aside ((Aside.refl ..).queueFrame (by omega) ..)
    · have hp : p - p % 2 + 1 = p := by omega
      have hfirst := haside.queueFrame (q := p - p % 2) (by omega) true f0
      rw [hp, ← hodd hpar]
      exact hfirst.queued (queueFrame_queued (h.aside hfirst) f1)
  · unfold copies
    rw [if_neg hpair]
    exact queueFrame_queued h f

theorem modAt_congr {α : Type} {l : List α} {k : Nat} {f g : α → α} {d : α} (h : k < l.length) (hfg : f (nth l k d) = g (nth l k d)) :
    modAt l k f = modAt l k g := by
  induction l generalizing k with
  | nil => rfl
  | cons a l ih =>
    cases k with
    | zero => exact congrArg (· :: l) hfg
    | succ k => exact congrArg (a :: ·) (ih (Nat.lt_of_succ_lt_succ h) hfg)

theorem exec_onPort {i : Instr} {dt p : Nat} {op : State → State} {s : State} (hexec : exec i s = run dt (onPort p op) s)
    (hready : (elapse dt s).sys.ready = true) (hp : p < 4) : exec i s = .next (op (elapse dt s)) := by
  rw [exec_live hexec hready, if_pos hp]

/-- Settles O39: requests and responses are express frames handed to the port, and a one-step response measures its mean delay. -/
theorem pdelayMeasured : Obligations.PdelayMeasured := by
  intro dt p s s0 hready hp hports hlen hon hup hroom hawake d
  have hgoes : (!(pdelayOn s0 p && (portOf s0 p).linkUp)) = false := by simp [hon, hup]
  have hpdelay : p < s0.tbu.pdelay.length := by omega
  have htakes : Takes s0 p := ⟨by omega, hup, hroom, hawake⟩
  refine ⟨?_, fun src seq dom => ?_, fun t1 t2 corr ht1 => ?_⟩
  · let s1 : State := { s0 with tbu := { s0.tbu with pdelay := modAt s0.tbu.pdelay p fun e => { e with seq := (d.seq + 1) % 65536, t1 := none, resp := none } } }
    obtain ⟨b, hreq⟩ : ∃ b, pdelayRequest p s0 = handFrame p true { TxFrame.plain b with mark := .pdelayReq ((d.seq + 1) % 65536) } s1 := by
      simp only [pdelayRequest, hgoes, Bool.false_eq_true, if_false]
      exact ⟨_, rfl⟩
    have htakes1 : Takes s1 p := ⟨htakes.within, hup, hroom, hawake⟩
    obtain ⟨hquay, f, hf, hmark⟩ := handFrame_queued htakes1 { TxFrame.plain b with mark := .pdelayReq ((d.seq + 1) % 65536) }
    rw [← hreq] at hquay hf
    have hpd : (pdelayRequest p s0).tbu = s1.tbu := (congrArg State.tbu hquay :)
    refine ⟨_, f, exec_onPort rfl hready hp, hf, hmark, ?_, ?_⟩
    · rw [hpd]
      exact onlyPorts_of_quay hquay
    · rw [hpd]
      exact modAt_congr (d := Pdelay.reset) hpdelay rfl
  · obtain ⟨b, hresp⟩ : ∃ b, pdelayReceive p (.req src seq dom) s0 = handFrame p true { TxFrame.plain b with mark := .pdelayResp src seq dom } s0 := by
      simp only [pdelayReceive, hgoes, Bool.false_eq_true, if_false]
      exact ⟨_, rfl⟩
    obtain ⟨hquay, f, hf, hmark⟩ := handFrame_queued htakes { TxFrame.plain b with mark := .pdelayResp src seq dom }
    rw [← hresp] at hquay hf
    exact ⟨_, f, exec_onPort rfl hready hp, hf, hmark, onlyPorts_of_quay hquay⟩
  · have hdone : pdelayReceive p (.resp d.seq t2 corr false) s0 = pdelayDone p t1 s0.tbu.free corr s0 := by
      simp [pdelayReceive, hon, hup, d, ht1]
    exact ⟨_, exec_onPort rfl hready hp, hdone ▸ rfl, hdone ▸ rfl⟩

end Sys2Proof.Machine
end

section
/-! SUPPORT. STEP: the change of epoch, what its records leave of the other rings, and the completion (R98 to R100, R378). -/

namespace Sys2Proof.Machine

/-! A record handed to a stream ring leaves every other ring as it is (R361 to R367) -/

section
variable {m n : Nat} (h : m ≠ n)
include h

theorem ringOf_ringIrq_ne (s : State) : ringOf (ringIrq n s) m = ringOf s m := by
  unfold ringIrq
  extract_lets r
  split
  · rw [ringOf_raiseVec, ringOf_modRing_ne h]
  · rfl

theorem ringOf_ringSignal_ne (urgent : Bool) (s : State) : ringOf (ringSignal n urgent s) m = ringOf s m := by
  unfold ringSignal
  extract_lets t r
  have ht : ringOf t m = ringOf s m := ringOf_modRing_ne h ..
  split
  · rw [ringOf_ringIrq_ne h, ht]
  · exact ht

theorem ringOf_placeUnits_ne (typ : Nat) (us : List Unit512) (s : State) : ringOf (placeUnits n typ us s) m = ringOf s m := by
  simp only [placeUnits, ringOf_ringSignal_ne h]
  split <;> simp [ringOf_modRing_ne h]

theorem ringOf_placeRec_ne (r : Rec) (s : State) : ringOf (placeRec n r s) m = ringOf s m := ringOf_placeUnits_ne h ..

theorem ringOf_drainQueue_ne (k : Nat) (s : State) : ringOf (drainQueue n k s) m = ringOf s m := by
  induction k generalizing s with
  | zero => rfl
  | succ k ih =>
    unfold drainQueue
    extract_lets r
    split
    · split
      · rw [ih, ringOf_placeRec_ne h, ringOf_modRing_ne h]
      · rfl
    · split
      · rw [ih, ringOf_placeRec_ne h, ringOf_placeUnits_ne h, ringOf_modRing_ne h]
      · rfl
    · rfl

theorem ringOf_loseNew_ne (r : Rec) (c : Loss) (s : State) : ringOf (loseNew n r c s) m = ringOf s m := by
  unfold loseNew
  extract_lets t
  have ht : ringOf t m = ringOf s m := by rw [ringOf_countLost_ne h, ringOf_modRing_ne h]
  split
  · rw [ringOf_hifEvent, ht]
  · exact ht

theorem ringOf_handRaw_ne (r : Rec) (s : State) : ringOf (handRaw n r s) m = ringOf s m := by
  unfold handRaw
  extract_lets g t waits gapN u
  have ht : ringOf t m = ringOf s m := by
    unfold t
    split
    · exact ringOf_modRing_ne h ..
    · rfl
  split
  · exact ringOf_loseNew_ne h ..
  · split
    · exact (ringOf_drainQueue_ne h ..).trans ((ringOf_modRing_ne h ..).trans ht)
    · split
      · have hu : ringOf u m = ringOf s m := (ringOf_modRing_ne h ..).trans ht
        split
        · exact hu
        · rw [ringOf_hifEvent, hu]
      · exact (ringOf_loseNew_ne h ..).trans ht

theorem ringOf_handRec_ne (typ : Nat) (us : List Unit512) (stamp tick : Option Nat) (s : State) :
    ringOf (handRec n typ us stamp tick s) m = ringOf s m := by
  unfold handRec
  split
  · rfl
  · extract_lets us isRef t
    refine (ringOf_handRaw_ne h ..).trans ?_
    unfold t
    split
    · exact ringOf_handRaw_ne h ..
    · rfl

end

/-- Records go to enabled STREAM rings, so a ring of another type stands. -/
theorem ringOf_streamRings {m : Nat} {u : State} (hm : (ringOf u m).type ≠ .stream) (us : List Unit512) (s : State) :
    ringOf ((streamRings u).foldl (fun s n => handRec n 2 us none none s) s) m = ringOf s m := by
  have hnot : ∀ n ∈ streamRings u, m ≠ n := by
    rintro n hn rfl
    simp [streamRings, idxWhere, hm] at hn
  generalize streamRings u = l at hnot
  induction l generalizing s with
  | nil => rfl
  | cons n l ih =>
    rw [List.foldl_cons, ih _ fun k hk => hnot k (List.mem_cons_of_mem _ hk)]
    exact ringOf_handRec_ne (hnot n List.mem_cons_self) ..

/-! The change of epoch (R98 to R100) -/

/-- The Sextant with a new epoch and a step counted. -/
def Tbu.stepped (t : Tbu) : Tbu :=
  { t with epoch := (t.epoch + 1) % 256, stepCnt := satAdd t.stepCnt 1, event := setBit t.event 8 }

/-- What a counted change of epoch does to a state. -/
structure Stepped (s t : State) : Prop where
  core  : ∃ p, t.core = { s with tbu := { s.tbu.stepped with pps := p } }.core
  sched : t.hif.sched = s.hif.sched
  ring  : ∀ m, (ringOf s m).type ≠ .stream → ringOf t m = ringOf s m

theorem tbuEvent_core (k : Nat) (s : State) : (tbuEvent k s).core = { s with tbu := { s.tbu with event := setBit s.tbu.event k } }.core := by
  unfold tbuEvent
  extract_lets up tbu t
  split
  · exact raiseBlock_core 2 t
  · rfl

theorem tbuEvent_rings (k : Nat) (s : State) : (tbuEvent k s).hif.rings = s.hif.rings := by
  unfold tbuEvent
  extract_lets up tbu t
  split
  · exact raiseBlock_rings 2 t
  · rfl

theorem tbuEvent_sched (k : Nat) (s : State) : (tbuEvent k s).hif.sched = s.hif.sched := by
  unfold tbuEvent
  extract_lets up tbu t
  split
  · exact raiseBlock_sched 2 t
  · rfl

theorem foldl_handRec_sched (l : List Nat) (us : List Unit512) (s : State) :
    (l.foldl (fun s n => handRec n 2 us none none s) s).hif.sched = s.hif.sched := by
  induction l generalizing s with
  | nil => rfl
  | cons n l ih => rw [List.foldl_cons, ih, handRec_sched]

theorem core_setPps {s t : State} (h : t.core = s.core) (p : Pps) :
    { t with tbu := { t.tbu with pps := p } }.core = { s with tbu := { s.tbu with pps := p } }.core :=
  (congrArg (fun t : State => { t with tbu := { t.tbu with pps := p } }) h :)

theorem epochStep_stepped (amount : Int) (s : State) : Stepped s (epochStep amount true s) := by
  unfold epochStep
  extract_lets old new amt _ s1 _ s2 u s3 s4
  have hcore2 : s2.core = { s with tbu := s.tbu.stepped }.core := tbuEvent_core 8 _
  have hcore3 : s3.core = s2.core := foldl_core _ _ _ fun _ _ => core_of_rest (handRec_rest ..)
  have hcore : s4.core = { s with tbu := s.tbu.stepped }.core := (logEv_core ..).trans (hcore3.trans hcore2)
  have hring2 (m : Nat) : ringOf s2 m = ringOf s m := ringOf_congr (tbuEvent_rings 8 _) m
  rw [if_neg (by decide)]
  refine ⟨⟨_, core_setPps hcore _⟩, ?_, fun m hm => ?_⟩
  · calc s4.hif.sched = s3.hif.sched := logEv_sched ..
      _ = s2.hif.sched := foldl_handRec_sched ..
      _ = s.hif.sched := tbuEvent_sched 8 _
  · calc ringOf s4 m = ringOf s3 m := ringOf_congr (logEv_rings ..) m
      _ = ringOf s2 m := ringOf_streamRings (by rwa [hring2]) ..
      _ = ringOf s m := hring2 m

theorem core_ext {s t : State} (h : t.core = s.core) : t = { s with hif := t.hif, log := t.log, out := t.out } := by
  obtain ⟨⟩ := s
  obtain ⟨⟩ := t
  simp only [State.core, State.mk.injEq] at h ⊢
  simp [h]

theorem rneDiv_mul_self (a : Int) : rneDiv (a * 65536) 65536 = a := by simp [rneDiv]

/-! STEP of MODE 0 (R378) -/

/-- The state with OFFSET of the selected domain moved by `a` ns and its new epoch, before what the step does to the window. -/
def moved (a : Int) (s : State) : State :=
  if a = 0 then s else epochStep (a * 65536) true (modDom (selId s) (fun d => { d with offset := d.offset + a * 65536 }) s)

theorem stepBy_moved (a : Int) (s : State) : stepBy (a * 65536) s = timeStepped (discTime s) (moved a s) := by
  unfold stepBy moved
  by_cases ha : a = 0
  · simp [ha, timeStepped]
  · have hne : a * 65536 ≠ 0 := by omega
    rw [if_neg ha, if_neg hne]

theorem stepAmount_offset (a : Int) (s : State) : stepAmount 0 a s = some (a * 65536) := rfl

theorem stepCmd_moved {p : BitVec 384} {a : Int} {s w t : State} (hmode : fld p.toNat 319 319 = 0) (ha : (BitVec.ofNat 64 (fld p.toNat 383 320)).toInt = a)
    (hw : mirror (.step 0 a) s = w) (ht : timeStepped (discTime w) (moved a w) = t) (c : Ctx) :
    stepCmd c p s = completeWith c .ok false none (ifld 64 a * 2 ^ 32 + t.tbu.epoch) t := by
  simp only [stepCmd, hmode, ha, stepAmount_offset, hw, stepBy_moved, ht, rneDiv_mul_self]

theorem moved_ne {a : Int} (ha : a ≠ 0) (s : State) :
    Stepped (modDom (selId s) (fun d => { d with offset := d.offset + a * 65536 }) s) (moved a s) := by
  rw [moved, if_neg ha]
  exact epochStep_stepped ..

/-- Nothing but the Sextant, the Logbook's intake, the host interface and the output changes, no ring but STREAM rings. -/
theorem moved_rest (a : Int) (s : State) : (moved a s).core = { s with tbu := (moved a s).tbu }.core ∧ (moved a s).hif.sched = s.hif.sched ∧
    ∀ m, (ringOf s m).type ≠ .stream → ringOf (moved a s) m = ringOf s m := by
  by_cases ha : a = 0
  · rw [moved, if_pos ha]
    exact ⟨rfl, rfl, fun _ _ => rfl⟩
  · obtain ⟨⟨p, hcore⟩, hsched, hring⟩ := moved_ne ha s
    generalize hm : modDom (selId s) _ s = m at hcore hsched hring
    have hmod : m = { s with tbu := m.tbu } := by
      rw [← hm]
      cases selId s <;> rfl
    rw [hmod] at hcore hsched hring
    have htbu : (moved a s).tbu = _ := (congrArg State.tbu hcore :)
    exact ⟨htbu ▸ hcore, hsched, hring⟩

theorem moved_tbu {a : Int} (ha : a ≠ 0) (s : State) : ∃ p,
    (moved a s).tbu = { (modDom (selId s) (fun d => { d with offset := d.offset + a * 65536 }) s).tbu.stepped with pps := p } := by
  obtain ⟨⟨p, hcore⟩, -, -⟩ := moved_ne ha s
  exact ⟨p, (congrArg State.tbu hcore :)⟩

/-- What a step of an amount other than 0 does to the Sextant. -/
theorem moved_sextant {a : Int} (ha : a ≠ 0) (s : State) :
    selDom (moved a s) = { selDom s with offset := (selDom s).offset + a * 65536 } ∧
      (if selB s then (moved a s).tbu.domA = s.tbu.domA else (moved a s).tbu.domB = s.tbu.domB) ∧
      (moved a s).tbu.epoch = (s.tbu.epoch + 1) % 256 ∧ (moved a s).tbu.stepCnt = satAdd s.tbu.stepCnt 1 := by
  obtain ⟨p, htbu⟩ := moved_tbu ha s
  unfold selId at htbu
  cases hsel : selB s with
  | true =>
    simp only [hsel, if_true] at htbu
    have hselv : selB (moved a s) = true := by
      rw [selB, htbu]
      exact hsel
    simp only [selDom, hselv, hsel, if_true, htbu]
    exact ⟨rfl, rfl, rfl, rfl⟩
  | false =>
    simp only [hsel, Bool.false_eq_true, if_false] at htbu
    have hselv : selB (moved a s) = false := by
      rw [selB, htbu]
      exact hsel
    simp only [selDom, hselv, hsel, Bool.false_eq_true, if_false, htbu]
    exact ⟨rfl, rfl, rfl, rfl⟩

theorem moved_free (a : Int) (s : State) : (moved a s).tbu.free = s.tbu.free := by
  by_cases ha : a = 0
  · rw [moved, if_pos ha]
  · obtain ⟨p, htbu⟩ := moved_tbu ha s
    rw [htbu]
    exact modDom_free ..

@[simp] theorem moved_fixed (a : Int) (s : State) : (moved a s).fixed = s.fixed := by simp [moved, apply_ite State.fixed]

/-- Outside RUN with nothing scheduled a step changes nothing in the window. -/
theorem timeStepped_idle {s : State} (hrun : s.sys.runState ≠ .run) (hsched : s.hif.sched = []) (was : Int) : timeStepped was s = s := by
  have hjudge : rejudgeAll s = s := by
    rw [rejudgeAll, hsched, List.foldl_nil, ← hsched]
  simp [timeStepped, hrun, hjudge]

/-- The rings of a command and of its completion hold no records. -/
theorem canRun_types {o : Opcode} {d : Desc} {s : State} (h : CanRun o d s) :
    (ringOf s d.ring).type ≠ .stream ∧ (ringOf s (ringOf s d.ring).complRing).type ≠ .stream := by
  obtain ⟨-, -, -, hcompl, -⟩ := canRun_rings h
  obtain ⟨-, hwaits, -⟩ := h
  simp only [headWaits, Ring.host, Bool.and_eq_true, Bool.or_eq_true, decide_eq_true_eq] at hwaits
  obtain ⟨⟨⟨⟨-, hhost⟩, -⟩, -⟩, -⟩ := hwaits
  refine ⟨fun hstream => ?_, fun hstream => ?_⟩
  · simp [hstream] at hhost
  · simp [hstream] at hcompl

/-- A step leaves the rings of its command as intake left them, so its completion is written (R358, R373). -/
theorem moved_completes {d : Desc} {s w : State} (h : CanRun .step d s) (hw : w.hif = (taken .step d s).hif) (a : Int) (r : Nat) :
    Completes s (completeWith (headCtx .step d s) .ok false none r (moved a w)) d Opcode.step.code .ok r := by
  have hrings (m : Nat) (hm : (ringOf s m).type ≠ .stream) : ringOf (moved a w) m = ringOf (taken .step d s) m := by
    obtain ⟨-, -, hring⟩ := moved_rest a w
    have htaken : ringOf w m = ringOf (taken .step d s) m := ringOf_congr (congrArg Hif.rings hw) m
    rw [hring m (by rwa [htaken, ring_type_congr (taken_cfg ..)]), htaken]
  have hbus : busOn (moved a w) = busOn s := by
    rw [busOn_of_fixed (moved_fixed a w), busOn, hw]
    rfl
  obtain ⟨hhost, hcompl⟩ := canRun_types h
  exact completeWith_completes h (hrings _ hhost) (hrings _ hcompl) hbus ..

/-- Settles O17: `moved` is the state before what the step does to the window, and outside RUN with nothing scheduled that is nothing. -/
theorem stepCompletes : Obligations.StepCompletes := by
  intro dt d s s0 hcan hmode a
  have hready : s0.sys.ready = true := hcan.1
  generalize hwdef : mirror (.step 0 a) (taken .step d s0) = w
  have hw : w.rest = s0.rest := hwdef ▸ (mirror_rest ..).trans (taken_rest ..)
  have hhif : w.hif = (taken .step d s0).hif := hwdef ▸ mirror_hif ..
  have htbu : w.tbu = s0.tbu := (congrArg State.tbu hw :)
  have hstep := (plainDesc_of_canRun hcan (fun c s => stepCmd c d.params s)).trans
    (congrArg noteWaits (stepCmd_moved hmode rfl hwdef rfl _))
  rw [discTime_rest hw] at hstep
  obtain ⟨hcore, hsched, -⟩ := moved_rest a w
  have hv : (moved a w).core = { s0 with tbu := (moved a w).tbu }.core :=
    hcore.trans (congrArg (fun t : State => { t.core with tbu := (moved a w).tbu }) hw :)
  refine ⟨moved a w, _, (exec_onTick rfl hready).trans (congrArg (fun u => Host.Outcome.next (drainMirrored (settle u))) hstep),
    onlyHost_of_rest ((noteWaits_rest _).trans (completeWith_rest ..)), core_ext hv, (moved_free a w).trans (congrArg Tbu.free htbu), fun ha => ?_,
    fun ha => ?_, fun hrun hnone => ?_⟩
  · rw [moved, if_pos ha, htbu]
  · have hselB : selB w = selB s0 := (congrArg (fun t : Tbu => bitOf t.ctrl 0) htbu :)
    have hselDom : selDom w = selDom s0 := by rw [selDom, selDom, hselB, htbu]
    have hsext := moved_sextant ha w
    rwa [hselB, hselDom, htbu] at hsext
  · have hsys : (moved a w).sys = s0.sys := (congrArg State.sys hv :)
    have hidle : timeStepped (discTime s0) (moved a w) = moved a w :=
      timeStepped_idle (by rwa [hsys]) (by rw [hsched, hhif]; exact hnone) _
    rw [hidle]
    exact noteWaits_completes (moved_completes hcan hhif ..)

end Sys2Proof.Machine
end

section
/-! SUPPORT. What the steps of a port change: its own entry, and what they leave of the other ports, of the pairs and of what left (R114 to R145). -/

namespace Sys2Proof.Machine

/-! A port behind one update -/

theorem portOf_modPort_same {p : Nat} {s : State} (h : p < s.net.ports.length) (f : Port → Port) : portOf (modPort p f s) p = f (portOf s p) :=
  nth_modAt_same h ..

@[simp] theorem modPort_count (p : Nat) (f : Port → Port) (s : State) : (modPort p f s).net.ports.length = s.net.ports.length := modAt_length ..

theorem netCnt_eq (p k n : Nat) (s : State) : netCnt p k n s = modPort p (fun q => { q with cnt := modAt q.cnt k (satAdd · n) }) s := rfl

/-- What an update of a port keeps of it. -/
theorem portOf_modPort_kept {β : Type} {g : Port → β} {f : Port → Port} (h : ∀ q, g (f q) = g q) (p k : Nat) (s : State) :
    g (portOf (modPort p f s) k) = g (portOf s k) := by
  by_cases hk : p = k
  · subst hk
    by_cases hp : p < s.net.ports.length
    · rw [portOf_modPort_same hp, h]
    · simp [portOf, nth, modPort, hp]
  · exact congrArg g (nth_modAt_ne hk ..)

theorem portOf_netCnt_kept {β : Type} {g : Port → β} (h : ∀ (q : Port) (l : List Word), g { q with cnt := l } = g q) (p j n k : Nat) (s : State) :
    g (portOf (netCnt p j n s) k) = g (portOf s k) :=
  portOf_modPort_kept (f := fun q => { q with cnt := modAt q.cnt j (satAdd · n) }) (fun q => h q _) ..

theorem netEvent_rest (k : Nat) (s : State) : (netEvent k s).rest = { s with net := { s.net with event := setBit s.net.event k } }.rest := by
  unfold netEvent
  extract_lets up net t
  split
  · exact raiseBlock_rest 3 t
  · rfl

@[simp] theorem netEvent_net (k : Nat) (s : State) : (netEvent k s).net = { s.net with event := setBit s.net.event k } :=
  (congrArg State.net (netEvent_rest k s) :)

@[simp] theorem netEvent_tbu (k : Nat) (s : State) : (netEvent k s).tbu = s.tbu := (congrArg State.tbu (netEvent_rest k s) :)

@[simp] theorem portOf_netEvent (k p : Nat) (s : State) : portOf (netEvent k s) p = portOf s p := by
  rw [portOf, netEvent_net]
  rfl

theorem raiseBlock_out (b : Nat) (s : State) : s.out <+: (raiseBlock b s).out := by
  unfold raiseBlock raiseVec
  split
  · exact List.prefix_rfl
  · split
    · exact List.prefix_rfl
    · exact List.prefix_append ..

theorem netEvent_out (k : Nat) (s : State) : s.out <+: (netEvent k s).out := by
  unfold netEvent
  extract_lets up net t
  split
  · exact raiseBlock_out 3 t
  · exact List.prefix_rfl

/-! Steps that stay within some ports -/

/-- From `s` to `t` only ports of which `r` holds changed; the pairs in force and what left the module stand. -/
structure Within (r : Nat → Prop) (s t : State) : Prop where
  quay  : t.quay = s.quay
  pairs : t.net.prpCfg = s.net.prpCfg
  count : t.net.ports.length = s.net.ports.length
  ports : ∀ k, ¬ r k → portOf t k = portOf s k
  out   : s.out <+: t.out

namespace Within

variable {r : Nat → Prop} {s t : State}

theorem refl (r : Nat → Prop) (s : State) : Within r s s := ⟨rfl, rfl, rfl, fun _ _ => rfl, List.prefix_rfl⟩

theorem tbu (h : Within r s t) : t.tbu = s.tbu := (congrArg State.tbu h.quay :)

theorem onlyPorts (h : Within r s t) : OnlyPorts s t := onlyPorts_of_quay h.quay

theorem paired (h : Within r s t) (p : Nat) : paired t p = paired s p := by rw [Machine.paired, h.pairs, Machine.paired]

theorem bridged (h : Within r s t) (p : Nat) : bridged t p = bridged s p := by rw [Machine.bridged, h.tbu, Machine.bridged]

theorem modPort {p : Nat} (h : Within r s t) (hp : r p) (f : Port → Port) : Within r s (modPort p f t) where
  quay := h.quay
  pairs := h.pairs
  count := (modAt_length ..).trans h.count
  ports k hk := (nth_modAt_ne (fun e : p = k => hk (e ▸ hp)) ..).trans (h.ports k hk)
  out := h.out

theorem netCnt {p : Nat} (h : Within r s t) (hp : r p) (k n : Nat) : Within r s (netCnt p k n t) := h.modPort hp _

theorem netEvent (h : Within r s t) (k : Nat) : Within r s (netEvent k t) where
  quay := (quay_of_rest (netEvent_rest k t)).trans h.quay
  pairs := by rw [netEvent_net]; exact h.pairs
  count := by rw [netEvent_net]; exact h.count
  ports j hj := (portOf_netEvent ..).trans (h.ports j hj)
  out := h.out.trans (netEvent_out k t)

theorem emitOut (h : Within r s t) (o : Out) : Within r s (emitOut o t) := ⟨h.quay, h.pairs, h.count, h.ports, h.out.trans (List.prefix_append ..)⟩

/-- An update of the duplicate tables and their counts. -/
theorem setPrp (h : Within r s t) (l : List (List (Nat × Nat × Nat))) (n : Word) :
    Within r s { t with net := { t.net with prp := l, prpEvict := n } } := ⟨h.quay, h.pairs, h.count, h.ports, h.out⟩

theorem ite {u : State} (ht : Within r s t) (hu : Within r s u) (c : Prop) [Decidable c] : Within r s (if c then t else u) := by
  split
  · exact ht
  · exact hu

theorem wakePort {p : Nat} (h : Within r s t) (hp : r p) : Within r s (wakePort p t) := by
  unfold Machine.wakePort
  extract_lets q w
  exact (h.modPort hp _).ite h _

theorem queueFrame {p : Nat} (h : Within r s t) (hp : r p) (express : Bool) (f : TxFrame) : Within r s (queueFrame p express f t) := by
  unfold Machine.queueFrame
  split
  · exact h.netCnt hp ..
  · split
    · exact ((h.netCnt hp ..).netEvent 9).ite ((h.wakePort hp).modPort hp _) _
    · exact (h.wakePort hp).modPort hp _

end Within

end Sys2Proof.Machine
end

section
/-! SUPPORT. Receive steps of a port (R116 to R136, R559). -/

namespace Sys2Proof.Machine

namespace Within

variable {r : Nat → Prop} {s t : State} {p : Nat} (h : Within r s t) (hp : r p)
include h hp

theorem settlePause (upTo : Nat) : Within r s (settlePause p upTo t) := (h.netCnt hp ..).modPort hp _

theorem rxDeliver (l : List Byte) (st : RxStat) : Within r s (rxDeliver p l st t).2 := by
  unfold Machine.rxDeliver
  split
  · exact (h.netCnt hp ..).netEvent 11
  · exact h.modPort hp _

theorem rxFlagged (k : Nat) (l : List Byte) (st : RxStat) : Within r s (rxFlagged p k l st t) := by
  unfold Machine.rxFlagged
  exact ((h.netCnt hp ..).rxDeliver hp ..).ite (h.netCnt hp ..) _

theorem rxOk (n : Nat) : Within r s (rxOk p n t) := (h.netCnt hp ..).modPort hp _

theorem rxPause (quanta : Nat) : Within r s (rxPause p quanta t) := by
  unfold Machine.rxPause
  extract_lets q u d
  refine h.ite ?_ _
  exact ((h.settlePause hp _).modPort hp _).ite ((h.settlePause hp _).modPort hp _) _

theorem rxSextant : Within r s (rxSextant p t) := h.modPort hp _

omit hp in
theorem tcForward (hm : r (mateOf p)) (l : List Byte) : Within r s (tcForward p l t) := by
  unfold Machine.tcForward
  extract_lets f o
  split
  · exact h.queueFrame hm ..
  · exact h.queueFrame hm ..
  · exact h.queueFrame hm ..
  · exact h
  · exact h
  · exact h
  · exact h.queueFrame hm ..

section
variable (hm : Machine.bridged s p = true ∨ Machine.paired s p = true → r (mateOf p))
include hm

/-- A frame without flags reaches the port's FIFO, and on the bridge the other port (R136). -/
theorem rxGood (l : List Byte) (st : RxStat) : Within r s (rxGood p l st t) := by
  unfold Machine.rxGood
  split
  · extract_lets u
    have hu : Within r s u := by
      show Within r s (if _ then _ else _)
      split
      next hb => exact h.tcForward (hm (.inl (h.bridged p ▸ hb))) _
      next => exact h
    exact (((hu.rxDeliver hp l st).rxSextant hp).rxOk hp _).ite (hu.rxDeliver hp l st) _
  · generalize hchoice : (if Machine.bridged t p then bridgeChoice t p l else (false, true)) = c
    obtain ⟨fwd, loc⟩ := c
    dsimp -zeta only
    extract_lets u
    have hu : Within r s u := by
      show Within r s (if fwd then _ else _)
      split
      next hfwd =>
        have hb : Machine.bridged t p = true := by
          subst hfwd
          by_contra hno
          simp [hno] at hchoice
        exact (h.queueFrame (hm (.inl (h.bridged p ▸ hb))) ..).netCnt hp ..
      next => exact h
    cases loc with
    | false => exact (hu.rxOk hp _).ite hu _
    | true => exact ((hu.rxDeliver hp l st).rxOk hp _).ite (hu.rxDeliver hp l st) _

theorem rxIp (l : List Byte) (st : RxStat) : Within r s (rxIp p l st t) := by
  unfold Machine.rxIp
  split
  · exact h.rxGood hp hm ..
  · exact h.netCnt hp ..
  · exact h.rxFlagged hp ..
  · exact h.rxFlagged hp ..

omit hp hm in
/-- A copy taken back is one of the odd port of the pair (R134). -/
theorem prpSwap (hm : r (mateOf p)) (mac seq : Nat) : Within r s (prpSwap p mac seq t).2 := by
  unfold Machine.prpSwap
  extract_lets q fresh
  split
  · split
    next f _ hfresh =>
      have heven : p % 2 = 0 := by
        simp only [fresh, Bool.and_eq_true, decide_eq_true_eq] at hfresh
        exact hfresh.1.1.1.1
      have hmate : r (p + 1) := by rwa [mateOf, if_pos heven] at hm
      exact (h.modPort hmate _).netCnt hmate ..
    next => exact h
  · exact h

theorem rxPrp (l : List Byte) (st : RxStat) : Within r s (rxPrp p l st t) := by
  unfold Machine.rxPrp
  split
  · exact h.rxIp hp hm ..
  next seq lan hrct =>
    extract_lets i u v mac st1 w
    have hpair : Machine.paired s p = true := by
      rw [← h.paired p]
      by_contra hno
      simp [hno] at hrct
    have hu : Within r s u := h.ite ((h.netCnt hp ..).netEvent 10) _
    have hv : Within r s v := hu.setPrp ..
    split
    · have hswap := hv.prpSwap (hm (.inr hpair)) mac seq
      exact (hswap.rxIp hp hm ..).ite (hswap.netCnt hp ..) _
    · exact (hv.ite (hv.setPrp ..) _).rxIp hp hm ..

theorem rxVlan (l : List Byte) (st : RxStat) : Within r s (rxVlan p l st t) := by
  unfold Machine.rxVlan
  extract_lets t1 t2 o dst
  split
  · exact h.netCnt hp ..
  · split
    · exact ((h.netCnt hp ..).rxPause hp _).ite (h.netCnt hp ..) _
    · exact h.rxPrp hp hm ..

theorem rxFrame (b : List Byte) (reasm : Bool) : Within r s (rxFrame p b reasm t) := by
  unfold Machine.rxFrame
  extract_lets l n good st mx u
  have hu : Within r s u := h.modPort hp _
  split
  · exact hu.netCnt hp ..
  · split
    · exact hu.rxFlagged hp ..
    · split
      · exact hu.rxFlagged hp ..
      · split
        · exact hu.rxFlagged hp ..
        · exact hu.rxVlan hp hm ..

end

end Within

end Sys2Proof.Machine
end

section
/-! SUPPORT. A frame that is received: what it counts and where it goes on a port without pair or bridge (R116 to R122, R559). -/

namespace Sys2Proof.Machine

theorem accountEmits_eq (s : State) : accountEmits s = { s with tkx := (accountEmits s).tkx } := by
  unfold accountEmits
  split <;> rfl

/-! Step 2 (R117) -/

/-- The downshift interval counts the octets of a frame (R139). -/
def heard (p n : Nat) (s : State) : State := modPort p (fun q => { q with dsRx := q.dsRx + n }) s

/-- The parts of a port that the octets of a frame leave. -/
theorem portOf_heard {β : Type} {g : Port → β} (h : ∀ (q : Port) (n : Nat), g { q with dsRx := n } = g q) (p n k : Nat) (s : State) :
    g (portOf (heard p n s) k) = g (portOf s k) := portOf_modPort_kept (fun _ => h ..) ..

theorem rxFrame_sized {p : Nat} {b : List Byte} {s : State} (hlo : 64 ≤ b.length) (hmax : b.length ≤ (portOf s p).max) (hhi : b.length ≤ 16383) :
    rxFrame p b false s =
      if (crc32 (b.take (b.length - 4))).toNat = leNat (b.drop (b.length - 4)) then rxVlan p b (statOf p b false s) (heard p b.length s)
      else rxFlagged p 5 b { statOf p b false s with fcsErr := true } (heard p b.length s) := by
  have htake : b.take 16383 = b := List.take_of_length_le hhi
  have hshort : ¬ b.length < 14 := by omega
  have hrunt : ¬ b.length < 64 := by omega
  have hfits : ¬ (portOf s p).max < b.length := by omega
  have hfcs : 4 ≤ b.length := by omega
  simp only [rxFrame, htake, hshort, hrunt, hfits, hfcs, if_false, decide_true, Bool.true_and]
  by_cases hgood : (crc32 (b.take (b.length - 4))).toNat = leNat (b.drop (b.length - 4))
  · simp [hgood, heard]
  · simp [hgood, heard]

section
variable {p : Nat} {l : List Byte} {st : RxStat} {s : State}

theorem rxFlagged_dropped (h : (portOf s p).deliverBad = false) (k : Nat) : rxFlagged p k l st s = netCnt p k 1 s := by
  have hkept : (portOf (netCnt p k 1 s) p).deliverBad = false := (portOf_netCnt_kept (g := Port.deliverBad) (fun _ _ => rfl) ..).trans h
  simp [rxFlagged, hkept]

/-! Steps 3 to 8 of an untagged frame (R119 to R122) -/

theorem etherType_untagged (h : beAt l 12 2 ≠ 0x8100) : ethOff l = 14 ∧ etherType l = beAt l 12 2 := by
  have hoff : ethOff l = 14 := if_neg h
  exact ⟨hoff, by rw [etherType, hoff]⟩

/-- A frame that is neither tagged nor MAC Control, on a port of no pair, whose IP and UDP parts pass (R119, R120, R121, R133). -/
theorem rxVlan_passes (htype : beAt l 12 2 ∉ [0x88A8, 0x8100, 0x8808, 0x88F7]) (hpair : paired s p = false) (hrct : st.rct = false)
    (hok : judgeIp (beAt l 12 2) ((l.take (l.length - 4)).drop 14) = .ok) : rxVlan p l st s = rxGood p l st s := by
  simp only [List.mem_cons, List.not_mem_nil, or_false, not_or] at htype
  obtain ⟨hstag, htag, hctrl, -⟩ := htype
  obtain ⟨hoff, hether⟩ := etherType_untagged htag
  have hverdict : ipVerdict l st = .ok := by simpa [ipVerdict, hether, hoff, hrct] using hok
  simp [rxVlan, rxPrp, rxIp, hether, hstag, htag, hctrl, hpair, hverdict]

theorem rxGood_full (hptp : etherType l ≠ 0x88F7) (hbridge : bridged s p = false) (h : 64 ≤ (portOf s p).rx.length) :
    rxGood p l st s = netEvent 11 (netCnt p 7 1 s) := by
  simp [rxGood, rxDeliver, hptp, hbridge, h]

theorem rxGood_room (hptp : etherType l ≠ 0x88F7) (hbridge : bridged s p = false) (h : (portOf s p).rx.length < 64) :
    rxGood p l st s = rxOk p l.length (modPort p (fun q => { q with rx := q.rx ++ [⟨l, st, discTime s⟩] }) s) := by
  have hroom : ¬ 64 ≤ (portOf s p).rx.length := by omega
  simp [rxGood, rxDeliver, hptp, hbridge, hroom]

end

/-! The command -/

section
variable {p : Nat} {s : State}

theorem portReceive_down (h : (portOf s p).linkUp = false) (x : RxIn) : portReceive p x s = s := by simp [portReceive, h]

theorem portReceive_frame (h : (portOf s p).linkUp = true) (b : List Byte) : portReceive p (.frame b) s = rxFrame p b false s := by
  simp [portReceive, h]

/-- The ports that a frame received on port p can change: p, and the other one of a bridge or a pair. -/
def reached (s : State) (p k : Nat) : Prop := k = p ∨ ((bridged s p = true ∨ paired s p = true) ∧ k = mateOf p)

theorem not_reached {k : Nat} (hbridge : bridged s p = false) (hpair : paired s p = false) (hk : k ≠ p) : ¬ reached s p k := by
  simp [reached, hbridge, hpair, hk]

theorem portReceive_within (b : List Byte) : Within (reached s p) s (portReceive p (.frame b) s) := by
  cases h : (portOf s p).linkUp with
  | false =>
    rw [portReceive_down h]
    exact .refl ..
  | true =>
    rw [portReceive_frame h]
    exact (Within.refl ..).rxFrame (.inl rfl) (fun hmate => .inr ⟨hmate, rfl⟩) b false

end

/-- Settles O33: the steps of R116 within port p, then the three frames of the statement one by one. -/
theorem frameReceived : Obligations.FrameReceived := by
  intro dt p b s s0 hready hp hports q n good
  have hexec : exec (.portFrameReceive dt p (.frame b)) s = .next (portReceive p (.frame b) (accountEmits s0)) :=
    exec_onPort (op := fun s => portReceive p (.frame b) (accountEmits s)) rfl hready hp
  rw [accountEmits_eq s0] at hexec ⊢
  let a := { s0 with tkx := (accountEmits s0).tkx }
  let u := heard p n a
  have hlen : p < a.net.ports.length := hports ▸ hp
  have hwithin : Within (reached a p) a (portReceive p (.frame b) a) := portReceive_within b
  refine ⟨_, hexec, hwithin.onlyPorts, fun hbridge hpair k hk => hwithin.ports k (not_reached hbridge hpair hk), fun hdown => portReceive_down (s := a) hdown _,
    fun hup hlo hmax hhi hpair hbridge => ?_⟩
  rw [portReceive_frame (s := a) hup, rxFrame_sized (s := a) hlo hmax hhi]
  have hrx : (portOf u p).rx = q.rx := portOf_heard (g := Port.rx) (fun _ _ => rfl) ..
  have hcnt : (portOf u p).cnt = q.cnt := portOf_heard (g := Port.cnt) (fun _ _ => rfl) ..
  have hulen : p < u.net.ports.length := (modPort_count ..).symm ▸ hlen
  refine ⟨fun hbad hdrop => ?_, fun hgood htype hok => ?_⟩
  · have hdropped : (portOf u p).deliverBad = false := (portOf_heard (g := Port.deliverBad) (fun _ _ => rfl) ..).trans hdrop
    rw [if_neg hbad, rxFlagged_dropped hdropped, netCnt_eq, portOf_modPort_same hulen]
    exact ⟨hrx, congrArg (modAt · 5 (satAdd · 1)) hcnt⟩
  · have htag : beAt b 12 2 ≠ 0x8100 := fun h => htype (by simp [h])
    have hptp : etherType b ≠ 0x88F7 := fun h => htype (by simp [← (etherType_untagged htag).2, h])
    rw [if_pos hgood, rxVlan_passes (s := u) htype hpair rfl hok]
    refine ⟨fun hroom => ?_, fun hfull => ?_⟩
    · rw [rxGood_room (s := u) hptp hbridge (hrx ▸ hroom), rxOk, netCnt_eq, portOf_modPort_same (by simpa using hulen),
        portOf_modPort_same (by simpa using hulen), portOf_modPort_same hulen]
      exact ⟨congrArg (modAt · 0 (satAdd · 1)) hcnt, _, congrArg (· ++ [_]) hrx, rfl, rfl, rfl, rfl, rfl, rfl, rfl, rfl, rfl⟩
    · rw [rxGood_full (s := u) hptp hbridge (hrx ▸ hfull), portOf_netEvent, netCnt_eq, portOf_modPort_same hulen, netEvent_net]
      exact ⟨hrx, congrArg (modAt · 7 (satAdd · 1)) hcnt, bitOf_setBit_same _ (by decide)⟩

end Sys2Proof.Machine
end

section
/-! SUPPORT. Marks that wait for port frames, and a link that goes down (R115, R124, R126, R139, R505). -/

namespace Sys2Proof.Machine

/-! EMIT_MARKs (R505) -/

theorem emitMark_eq (seq : Nat) (s : State) : ∃ l, emitMark seq s = { s with out := s.out ++ l } := by
  unfold emitMark
  split
  · rw [yokeSend_eq]
    split
    · exact ⟨_, rfl⟩
    · exact ⟨[], by simp⟩
  · exact ⟨[], by simp⟩

theorem sendMarks_eq (k : Nat) (s : State) : ∃ m l, sendMarks k s = { s with pair := { s.pair with toMark := m }, out := s.out ++ l } := by
  induction k generalizing s with
  | zero => exact ⟨s.pair.toMark, [], by simp [sendMarks]⟩
  | succ k ih =>
    unfold sendMarks
    split
    · exact ⟨s.pair.toMark, [], by simp⟩
    next g seq marks _ =>
      split
      · exact ⟨s.pair.toMark, [], by simp⟩
      · obtain ⟨l, hl⟩ := emitMark_eq seq { s with pair := { s.pair with toMark := marks } }
        obtain ⟨m, l', hm⟩ := ih { s with pair := { s.pair with toMark := marks }, out := s.out ++ l }
        exact ⟨m, l ++ l', by rw [hl, hm, List.append_assoc]⟩

section
variable (s : State)

theorem marksDue_eq : ∃ m l, marksDue s = { s with pair := { s.pair with toMark := m }, out := s.out ++ l } := sendMarks_eq ..

@[simp] theorem marksDue_net : (marksDue s).net = s.net := by
  obtain ⟨m, l, h⟩ := marksDue_eq s
  rw [h]

@[simp] theorem portOf_marksDue (p : Nat) : portOf (marksDue s) p = portOf s p := by rw [portOf, marksDue_net, portOf]

theorem marksDue_out : s.out <+: (marksDue s).out := by
  obtain ⟨m, l, h⟩ := marksDue_eq s
  rw [h]
  exact List.prefix_append ..

theorem marksDue_quay : (marksDue s).quay = { s with pair := { s.pair with toMark := (marksDue s).pair.toMark } }.quay := by
  obtain ⟨m, l, h⟩ := marksDue_eq s
  rw [h]
  rfl

end

/-- Of a step within some ports and the marks it makes due, what else stands. -/
theorem Within.onlyMarks {r : Nat → Prop} {s t : State} (h : Within r s t) :
    OnlyPorts { s with pair := { s.pair with toMark := (marksDue t).pair.toMark } } (marksDue t) :=
  onlyPorts_of_quay ((marksDue_quay t).trans
    (congrArg (fun u : State => { u with pair := { u.pair with toMark := (marksDue t).pair.toMark } }) h.quay :))

/-! A link that goes down (R115) -/

namespace Within

variable {r : Nat → Prop} {s t : State} {p : Nat} (h : Within r s t) (hp : r p)
include h hp

theorem dropHeld (g : Nat) : Within r s (dropHeld p g t) := (((h.modPort hp _).netCnt hp ..).netCnt hp ..).netEvent 8

theorem dropTicks (l : List Nat) : Within r s (l.foldl (fun s g => Machine.dropHeld p g s) t) := by
  induction l generalizing t with
  | nil => exact h
  | cons g l ih => exact ih (h.dropHeld hp g)

theorem flushDown : Within r s (flushDown p t) := (h.netCnt hp ..).modPort hp _

theorem linkDown : Within r s (linkDown p t) := by
  unfold Machine.linkDown
  extract_lets q u v w
  exact h.ite (((((h.settlePause hp _).dropTicks hp _).modPort hp _).flushDown hp).netEvent p) _

theorem renegotiate (down : Bool) : Within r s (renegotiate p down t) := (((h.linkDown hp).modPort hp _).netCnt hp ..).netEvent 6

theorem dsShift (down : Bool) : Within r s (dsShift p down t) := (h.modPort hp _).ite (h.renegotiate hp down) _

end Within

/-- What a link held is gone (R115, R124, R140). -/
structure Cleared (q : Port) : Prop where
  down    : q.linkUp = false
  express : q.express = []
  pre     : q.pre = []
  line    : q.line = none
  pause   : q.pause = none
  lpi     : q.lpiTx = false

section
variable {p : Nat} {s : State} (hp : p < s.net.ports.length)
include hp

theorem portOf_flushDown : ∃ c, portOf (flushDown p s) p =
    { portOf s p with cnt := c, express := [], pre := [], todo := [], dsPend := none, suspended := none, line := none } := by
  unfold flushDown
  extract_lets q t
  rw [portOf_modPort_same ((modPort_count ..).symm ▸ hp)]
  exact ⟨_, congrArg (fun q : Port => { q with express := [], pre := [], todo := [], dsPend := none, suspended := none, line := none })
    (portOf_modPort_same hp _)⟩

theorem linkDown_cleared (hup : (portOf s p).linkUp = true) : Cleared (portOf (linkDown p s) p) := by
  unfold linkDown
  extract_lets q t u v
  have hu : Within (· = p) s u := ((Within.refl (· = p) s).settlePause rfl _).dropTicks rfl _
  obtain ⟨c, hflush⟩ := portOf_flushDown (p := p) (s := v) ((hu.modPort rfl _).count.symm ▸ hp)
  have hv : portOf v p = _ := portOf_modPort_same (hu.count.symm ▸ hp) _
  have hgoes : (!q.linkUp) ≠ true := by simp [q, hup]
  rw [if_neg hgoes, portOf_netEvent, hflush, hv]
  exact ⟨rfl, rfl, rfl, rfl, rfl, rfl⟩

theorem linkDown_linkUp : (portOf (linkDown p s) p).linkUp = false := by
  cases hup : (portOf s p).linkUp with
  | false =>
    have hstays : linkDown p s = s := by simp [linkDown, hup]
    rw [hstays, hup]
  | true => exact (linkDown_cleared hp hup).down

/-- The link renegotiates at the rate it shifts to (R139). -/
theorem renegotiate_port (down : Bool) : let q := portOf (renegotiate p down s) p
    q.linkUp = false ∧ q.dsActive = down ∧ q.dsPend = none := by
  have hdown : Within (· = p) s (linkDown p s) := (Within.refl (· = p) s).linkDown rfl
  have hlen : p < (linkDown p s).net.ports.length := hdown.count.symm ▸ hp
  rw [renegotiate, portOf_netEvent, netCnt_eq, portOf_modPort_same ((modPort_count ..).symm ▸ hlen), portOf_modPort_same hlen]
  exact ⟨linkDown_linkUp hp, rfl, rfl⟩

end

/-! What a link that goes down leaves of the downshift (R139) -/

/-- NET_DS_CFG of a port, the start of its interval and the octets of the interval. -/
def Port.tally (q : Port) : Word × Nat × Nat × Nat := (q.ds, q.dsAt, q.dsRx, q.dsTx)

section
variable (p : Nat) (s : State)

theorem modPort_tally (f : Port → Port) (h : ∀ q, (f q).tally = q.tally := by exact fun _ => rfl) : (portOf (modPort p f s) p).tally = (portOf s p).tally :=
  portOf_modPort_kept h ..

theorem netCnt_tally (k n : Nat) : (portOf (netCnt p k n s) p).tally = (portOf s p).tally := modPort_tally ..

theorem settlePause_tally (upTo : Nat) : (portOf (settlePause p upTo s) p).tally = (portOf s p).tally :=
  (modPort_tally ..).trans (netCnt_tally ..)

theorem dropHeld_tally (g : Nat) : (portOf (dropHeld p g s) p).tally = (portOf s p).tally := by
  unfold dropHeld
  extract_lets old n t
  rw [portOf_netEvent, netCnt_tally, netCnt_tally]
  exact modPort_tally ..

theorem dropTicks_tally (l : List Nat) : (portOf (l.foldl (fun s g => dropHeld p g s) s) p).tally = (portOf s p).tally := by
  induction l generalizing s with
  | nil => rfl
  | cons g l ih => exact (ih _).trans (dropHeld_tally ..)

theorem flushDown_tally : (portOf (flushDown p s) p).tally = (portOf s p).tally := (modPort_tally ..).trans (netCnt_tally ..)

theorem linkDown_tally : (portOf (linkDown p s) p).tally = (portOf s p).tally := by
  unfold linkDown
  extract_lets q t u v
  have hv : (portOf v p).tally = (portOf s p).tally :=
    (modPort_tally ..).trans ((dropTicks_tally ..).trans (settlePause_tally ..))
  split
  · rfl
  · rw [portOf_netEvent, flushDown_tally, hv]

theorem dsShift_tally (down : Bool) : (portOf (dsShift p down s) p).tally = (portOf s p).tally := by
  unfold dsShift renegotiate
  split
  · exact modPort_tally ..
  · rw [portOf_netEvent, netCnt_tally, modPort_tally .., linkDown_tally]

end

end Sys2Proof.Machine
end

section
/-! SUPPORT. The line of a port: which frame it takes next (R115, R128, R130, R139). -/

namespace Sys2Proof.Machine

section
variable {p : Nat} {s : State}

theorem portTransmit_down (h : (portOf s p).linkUp = false) : portTransmit p s = flushDown p s := by simp [portTransmit, h]

theorem portTransmit_free (hup : (portOf s p).linkUp = true) (hpause : pausedNow s p = false) (hawake : (portOf s p).wakeAt ≤ s.tbu.free)
    (hfree : ∀ l, (portOf s p).line = some l → lineEnd (portOf s p) l ≤ s.tbu.free) : portTransmit p s = lineFree p s := by
  have hgoes : ¬ (pausedNow s p || decide (s.tbu.free < (portOf s p).wakeAt)) = true := by simp [hpause, hawake]
  simp only [portTransmit, hup, hgoes, Bool.not_true, Bool.false_eq_true, if_false]
  split
  next l hline => rw [if_pos (hfree l hline)]
  next => rfl

theorem lineFree_shifts {d : Bool} (hpend : (portOf s p).dsPend = some d) (hsusp : (portOf s p).suspended = none) : lineFree p s = renegotiate p d s := by
  simp only [lineFree, endForShift, hpend, hsusp]

theorem lineFree_next (hpend : (portOf s p).dsPend = none) : lineFree p s = nextFrame p s := by simp only [lineFree, hpend]

/-! A frame without a PTP mark leaves as it is (R79, R109) -/

theorem egress_unmarked {f : TxFrame} (h : f.mark = .none) : egress p f s = (f.body, s) := by
  unfold egress
  rw [h]
  cases f.body <;> rfl

/-- A port that a frame takes from an instant on. -/
def Port.carries (f : TxFrame) (express : Bool) (now : Nat) (q : Port) : Port :=
  { q with line := some ⟨f, express, now, 0, false⟩, txOct := satN 64 (q.txOct + f.len), dsTx := q.dsTx + f.len }

theorem startFrame_unmarked {f : TxFrame} (h : f.mark = .none) (express : Bool) : startFrame p express f s =
    emitOut (.frame p f.body f.rct)
      (if express then netCnt p 20 1 (netCnt p 17 1 (modPort p (·.carries f express s.tbu.free) s))
        else netCnt p 17 1 (modPort p (·.carries f express s.tbu.free) s)) := by
  rw [startFrame, egress_unmarked h]
  rfl

/-- The port of a frame that starts, but for its counts. -/
theorem startFrame_port {f : TxFrame} (h : f.mark = .none) (hp : p < s.net.ports.length) (express : Bool) :
    ∃ c, portOf (startFrame p express f s) p = { (portOf s p).carries f express s.tbu.free with cnt := c } := by
  let u := modPort p (·.carries f express s.tbu.free) s
  have hu : portOf u p = (portOf s p).carries f express s.tbu.free := portOf_modPort_same hp _
  have hlen : p < u.net.ports.length := (modPort_count ..).symm ▸ hp
  have hfirst : portOf (netCnt p 17 1 u) p = { portOf u p with cnt := modAt (portOf u p).cnt 17 (satAdd · 1) } := portOf_modPort_same hlen _
  rw [startFrame_unmarked h, ← hu]
  cases express with
  | false => exact ⟨_, hfirst⟩
  | true =>
    have hsecond := portOf_modPort_same (s := netCnt p 17 1 u) ((modPort_count ..).symm ▸ hlen) fun q => { q with cnt := modAt q.cnt 20 (satAdd · 1) }
    rw [hfirst] at hsecond
    exact ⟨_, hsecond⟩

theorem startFrame_out {f : TxFrame} (h : f.mark = .none) (express : Bool) : Out.frame p f.body f.rct ∈ (startFrame p express f s).out := by
  rw [startFrame_unmarked h]
  exact List.mem_append_right _ (List.mem_singleton_self _)

/-! The next frame on a free line (R128, R130) -/

section
variable (p s)

/-- The line of a port without a frame. -/
def idleLine : State := modPort p (fun q => { q with line := none }) s

def dropExpress (r : List TxFrame) : State := modPort p (fun q => { q with express := r }) (idleLine p s)

def dropPre (r : List TxFrame) : State := modPort p (fun q => { q with pre := r }.refill) (idleLine p s)

end

theorem nextFrame_express {f : TxFrame} {r : List TxFrame} (h : (portOf s p).express = f :: r) :
    nextFrame p s = startFrame p true f (dropExpress p s r) := by
  simp only [nextFrame, h]
  rfl

theorem nextFrame_resumes {l : TxLine} (hexp : (portOf s p).express = []) (h : (portOf s p).suspended = some l) :
    nextFrame p s = modPort p (fun q => { q with line := some { l with at_ := s.tbu.free }, suspended := none }) (idleLine p s) := by
  simp only [nextFrame, hexp, h]
  rfl

theorem nextFrame_pre {f : TxFrame} {r : List TxFrame} (hexp : (portOf s p).express = []) (hsusp : (portOf s p).suspended = none)
    (h : (portOf s p).pre = f :: r) : nextFrame p s = startFrame p false f (dropPre p s r) := by
  simp only [nextFrame, hexp, hsusp, h]
  rfl

end

/-- Settles O34. -/
theorem frameTransmitted : Obligations.FrameTransmitted := by
  intro dt p f r s s0 hready hp hports now q
  have hexec : exec (.portFrameTransmit dt p) s = .next (marksDue (portTransmit p (accountEmits s0))) :=
    exec_onPort (op := transmitPort p) rfl hready hp
  rw [accountEmits_eq s0] at hexec
  let a := { s0 with tkx := (accountEmits s0).tkx }
  have hlen : p < a.net.ports.length := hports ▸ hp
  have hline : portOf (idleLine p a) p = { q with line := none } := portOf_modPort_same hlen _
  have hidle : p < (idleLine p a).net.ports.length := (modPort_count ..).symm ▸ hlen
  refine ⟨fun hdown => ?_, fun d hup hpause hawake hfree hpend hsusp => ?_, fun hup hpause hawake hfree hpend hmark => ?_⟩
  · obtain ⟨c, hflush⟩ := portOf_flushDown hlen
    have hwithin : Within (· = p) a (flushDown p a) := (Within.refl (· = p) a).flushDown rfl
    rw [portTransmit_down (s := a) hdown] at hexec
    refine ⟨_, hexec, ?_, ?_, ?_, fun k hk => ?_⟩
    · rw [portOf_marksDue, hflush]
    · rw [portOf_marksDue, hflush]
    · rw [portOf_marksDue, hflush]
    · rw [portOf_marksDue]
      exact hwithin.ports k hk
  · rw [portTransmit_free (s := a) hup hpause hawake hfree, lineFree_shifts (s := a) hpend hsusp] at hexec
    refine ⟨_, hexec, ?_⟩
    rw [portOf_marksDue]
    exact renegotiate_port hlen d
  · rw [portTransmit_free (s := a) hup hpause hawake hfree, lineFree_next (s := a) hpend] at hexec
    refine ⟨fun hexp => ?_, fun hexp hsusp hpre => ?_, fun l hexp hsusp => ?_⟩
    · rw [nextFrame_express (s := a) hexp] at hexec
      have hdrop : portOf (dropExpress p a r) p = { q with line := none, express := r } :=
        (portOf_modPort_same hidle _).trans (congrArg (fun q : Port => { q with express := r }) hline)
      obtain ⟨c, hport⟩ := startFrame_port (s := dropExpress p a r) hmark ((modPort_count ..).symm ▸ hidle) true
      rw [hdrop] at hport
      refine ⟨_, hexec, ?_⟩
      rw [portOf_marksDue, hport]
      exact ⟨rfl, rfl, rfl, rfl, (marksDue_out _).subset (startFrame_out hmark true)⟩
    · rw [nextFrame_pre (s := a) hexp hsusp hpre] at hexec
      have hdrop : portOf (dropPre p a r) p = { q with line := none, pre := r }.refill :=
        (portOf_modPort_same hidle _).trans (congrArg (fun q : Port => { q with pre := r }.refill) hline)
      obtain ⟨c, hport⟩ := startFrame_port (s := dropPre p a r) hmark ((modPort_count ..).symm ▸ hidle) false
      rw [hdrop] at hport
      refine ⟨_, hexec, ?_⟩
      rw [portOf_marksDue, hport]
      exact ⟨hexp, rfl, rfl, rfl, (marksDue_out _).subset (startFrame_out hmark false)⟩
    · rw [nextFrame_resumes (s := a) hexp hsusp] at hexec
      refine ⟨_, hexec, ?_⟩
      rw [portOf_marksDue, portOf_modPort_same hidle, hline]
      exact ⟨rfl, rfl, rfl⟩

end Sys2Proof.Machine
end

section
/-! SUPPORT. A link that comes up, a pause that ends, and the timers of a port (R114, R124, R129, R137 to R140). -/

namespace Sys2Proof.Machine

/-! LINK_UP (R114) -/

/-- The mode a link of the port comes up in (R114, R139). -/
def Port.upMode (q : Port) : Nat := if q.dsActive then 3 else q.mode

theorem startVerify_port {β : Type} {g : Port → β} (h : ∀ (q : Port) (v : VerifySt) (n at_ : Nat), g { q with verify := v, attempts := n, verifyAt := at_ } = g q)
    (p k : Nat) (s : State) : g (portOf (startVerify p s) k) = g (portOf s k) := by
  unfold startVerify
  extract_lets q
  split
  · exact portOf_modPort_kept (f := fun x => { x with verify := .verifying, attempts := 1, verifyAt := _ }) (fun q => h q ..) p k s
  · exact portOf_modPort_kept (f := fun x => { x with verify := .disabled, attempts := 0, verifyAt := x.verifyAt }) (fun q => h q ..) p k s

/-- The base page that a port sends under Clause 73 (R114). -/
def Port.page (q : Port) : Option BasePage := if q.anEn && clause73 q.upMode then some (basePage q.upMode q.mode q.fec) else none

def sendPage (p : Nat) (s : State) : State :=
  match (portOf s p).page with
  | some b => emitOut (.basePage p b) s
  | none => s

theorem sendPage_within (p : Nat) (s : State) : Within (· = p) s (sendPage p s) := by
  unfold sendPage
  split
  · exact (Within.refl ..).emitOut _
  · exact .refl ..

theorem portOf_sendPage (p k : Nat) (s : State) : portOf (sendPage p s) k = portOf s k := by
  unfold sendPage
  split <;> rfl

theorem sendPage_out {p : Nat} {s : State} (han : (portOf s p).anEn = true) (hclause : clause73 (portOf s p).upMode = true) :
    Out.basePage p (basePage (portOf s p).upMode (portOf s p).mode (portOf s p).fec) ∈ (sendPage p s).out := by
  have hpage : (portOf s p).page = some (basePage (portOf s p).upMode (portOf s p).mode (portOf s p).fec) := by simp [Port.page, han, hclause]
  simp [sendPage, hpage]

/-- A port that came up, its express frames as they were. -/
structure Risen (q r : Port) : Prop where
  up      : r.linkUp = true
  speed   : r.speed = q.upMode
  express : r.express = q.express

theorem Within.startVerify {r : Nat → Prop} {s t : State} {p : Nat} (h : Within r s t) (hp : r p) : Within r s (startVerify p t) :=
  ((h.modPort hp _).emitOut _).ite (h.modPort hp _) _

section
variable {p : Nat} {s : State}

theorem linkUp_stays (h : (portOf s p).linkUp = true ∨ (portOf s p).mode = 0) (l : LinkIn) : linkUp p l s = s := by
  simp [linkUp, h]

theorem linkUp_rises (hup : (portOf s p).linkUp = false) (hmode : (portOf s p).mode ≠ 0) (l : LinkIn) :
    ∃ f, Risen (portOf s p) (f (portOf s p)) ∧ linkUp p l s = startVerify p (netEvent p (modPort p f (sendPage p s))) := by
  unfold linkUp
  extract_lets q mode
  have hgoes : ¬ (q.linkUp || decide (q.mode = 0)) = true := by simp [q, hup, hmode]
  rw [if_neg hgoes]
  exact ⟨_, ⟨rfl, rfl, rfl⟩, rfl⟩

theorem linkUp_risen (hp : p < s.net.ports.length) (hup : (portOf s p).linkUp = false) (hmode : (portOf s p).mode ≠ 0) (l : LinkIn) :
    Risen (portOf s p) (portOf (linkUp p l s) p) ∧ Within (· = p) s (linkUp p l s) ∧ (sendPage p s).out <+: (linkUp p l s).out := by
  obtain ⟨f, ⟨up, speed, express⟩, heq⟩ := linkUp_rises hup hmode l
  have hpage := sendPage_within p s
  have hport : portOf (netEvent p (modPort p f (sendPage p s))) p = f (portOf s p) := by
    rw [portOf_netEvent, portOf_modPort_same (hpage.count.symm ▸ hp), portOf_sendPage]
  rw [heq]
  refine ⟨⟨?_, ?_, ?_⟩, ((hpage.modPort rfl f).netEvent p).startVerify rfl,
    ((((Within.refl (· = p) _).modPort rfl f).netEvent p).startVerify rfl).out⟩
  · rw [startVerify_port (g := Port.linkUp) (fun _ _ _ _ => rfl), hport, up]
  · rw [startVerify_port (g := Port.speed) (fun _ _ _ _ => rfl), hport, speed]
  · rw [startVerify_port (g := Port.express) (fun _ _ _ _ => rfl), hport, express]

end

/-! PAUSE_TIMER_EXPIRY (R124) -/

section
variable {p : Nat} {s : State} {b e : Nat} (h : (portOf s p).pause = some (b, e))
include h

theorem pauseExpiry_early (hnow : s.tbu.free < e) : pauseExpiry p s = s := by simp [pauseExpiry, h, hnow]

theorem pauseExpiry_due (hnow : e ≤ s.tbu.free) : pauseExpiry p s = modPort p (fun q => { q with pause := none }) (settlePause p e s) := by
  have hdue : ¬ s.tbu.free < e := by omega
  simp [pauseExpiry, h, hdue]

end

/-- What a pause that is accounted leaves of a port. -/
theorem settlePause_port {β : Type} {g : Port → β}
    (h : ∀ (q : Port) (l : List Word) (n : Nat) (x : Option (Nat × Nat)), g { q with cnt := l, pauseRem := n, pause := x } = g q)
    (p upTo k : Nat) (s : State) : g (portOf (settlePause p upTo s) k) = g (portOf s k) :=
  (portOf_modPort_kept (f := fun q => { q with pauseRem := _, pause := _ }) (fun q => h q q.cnt ..) ..).trans
    (portOf_netCnt_kept (fun q l => h q l q.pauseRem q.pause) ..)

/-- Settles O35. -/
theorem linkChanges : Obligations.LinkChanges := by
  intro dt p l s s0 hready hp hports a q others marked
  have hacc : accountEmits s0 = a := accountEmits_eq s0
  have hlen : p < a.net.ports.length := hports ▸ hp
  have hup : exec (.linkUp dt p l) s = .next (if s0.sys.laneBad.testBit p then s0 else linkUp p l s0) :=
    exec_onPort (op := fun s => if s.sys.laneBad.testBit p then s else linkUp p l s) rfl hready hp
  have hdown : exec (.linkDown dt p) s = .next (marksDue (linkDown p (accountEmits s0))) :=
    exec_onPort (op := fun s => marksDue (linkDown p (accountEmits s))) rfl hready hp
  have hexpiry : exec (.pauseTimerExpiry dt p) s = .next (pauseExpiry p (accountEmits s0)) :=
    exec_onPort (op := fun s => pauseExpiry p (accountEmits s)) rfl hready hp
  rw [hacc] at hdown hexpiry
  refine ⟨fun hlane hlink hmode => ?_, fun hstays => ?_, fun hlink => ?_, fun b e hpause => ?_⟩
  · obtain ⟨⟨up, speed, express⟩, hwithin, hout⟩ := linkUp_risen (s := s0) hlen hlink hmode l
    rw [if_neg (ne_true_of_eq_false hlane)] at hup
    refine ⟨_, hup, hwithin.onlyPorts, hwithin.ports, up, speed, express, fun han hclause => ?_⟩
    rw [speed] at hclause ⊢
    exact hout.subset (sendPage_out han hclause)
  · by_cases hlane : s0.sys.laneBad.testBit p = true
    · rw [hup, if_pos hlane]
    · rw [hup, if_neg hlane, linkUp_stays (hstays.resolve_left hlane)]
  · have hwithin : Within (· = p) a (linkDown p a) := (Within.refl (· = p) a).linkDown rfl
    obtain ⟨down, express, pre, line, pause, lpi⟩ := linkDown_cleared hlen hlink
    refine ⟨_, hdown, hwithin.onlyMarks, fun k hk => ?_, ?_⟩
    · rw [portOf_marksDue]
      exact hwithin.ports k hk
    · rw [portOf_marksDue]
      exact ⟨down, express, pre, line, pause, lpi⟩
  · rcases Nat.lt_or_ge s0.tbu.free e with hnow | hnow
    · rw [pauseExpiry_early (s := a) hpause hnow] at hexpiry
      refine ⟨_, hexpiry, (Within.refl (· = p) a).onlyPorts, fun _ _ => rfl, ?_, rfl, rfl⟩
      rw [if_pos hnow]
      exact hpause
    · have hsettled : Within (· = p) a (settlePause p e a) := (Within.refl (· = p) a).settlePause rfl e
      have hwithin := hsettled.modPort rfl fun q => { q with pause := none }
      have hport := portOf_modPort_same (hsettled.count.symm ▸ hlen) fun q => { q with pause := none }
      rw [pauseExpiry_due (s := a) hpause hnow] at hexpiry
      refine ⟨_, hexpiry, hwithin.onlyPorts, hwithin.ports, ?_, ?_, ?_⟩
      · rw [hport, if_neg (Nat.not_lt.mpr hnow)]
      · rw [hport]
        exact settlePause_port (g := Port.express) (fun _ _ _ _ => rfl) ..
      · rw [hport]
        exact settlePause_port (g := Port.pre) (fun _ _ _ _ => rfl) ..

end Sys2Proof.Machine
end

section
/-! SUPPORT. Verification, low-power idle and downshift of a port (R129, R137 to R140). -/

namespace Sys2Proof.Machine

section
variable {p : Nat} {s : State}

/-! PREEMPT_VERIFY_TIMER (R129) -/

/-- A port that sends one more verify mPacket. -/
def Port.retries (now : Nat) (q : Port) : Port :=
  { q with attempts := q.attempts + 1, verifyAt := now + fld q.preempt.toNat 15 8 * 1000000 * fr }

theorem verifyTimer_repeats (h : (portOf s p).verify = .verifying) (hdue : (portOf s p).verifyAt ≤ s.tbu.free) (hleft : (portOf s p).attempts < 3) :
    verifyTimer p s = emitOut (.mpacket p false) (modPort p (·.retries s.tbu.free) s) := by
  have hruns : ¬ ((portOf s p).verify ≠ .verifying ∨ s.tbu.free < (portOf s p).verifyAt) := by simp [h, hdue]
  simp only [verifyTimer, if_neg hruns, if_pos hleft]
  rfl

theorem verifyTimer_fails (h : (portOf s p).verify = .verifying) (hdue : (portOf s p).verifyAt ≤ s.tbu.free) (hleft : 3 ≤ (portOf s p).attempts) :
    verifyTimer p s = netEvent 7 (modPort p (fun q => { q with verify := .failed }) s) := by
  have hruns : ¬ ((portOf s p).verify ≠ .verifying ∨ s.tbu.free < (portOf s p).verifyAt) := by simp [h, hdue]
  simp only [verifyTimer, if_neg hruns, if_neg (Nat.not_lt.mpr hleft)]

theorem verifyTimer_spec (hp : p < s.net.ports.length) (h : (portOf s p).verify = .verifying) (hdue : (portOf s p).verifyAt ≤ s.tbu.free) :
    let t := verifyTimer p s
    Within (· = p) s t ∧
      ((portOf s p).attempts < 3 → (portOf t p).verify = .verifying ∧ (portOf t p).attempts = (portOf s p).attempts + 1 ∧ t.out = s.out ++ [.mpacket p false]) ∧
      (3 ≤ (portOf s p).attempts → (portOf t p).verify = .failed ∧ bitOf t.net.event 7 = true) := by
  rcases Nat.lt_or_ge (portOf s p).attempts 3 with hleft | hleft
  · have hport : portOf (emitOut (.mpacket p false) (modPort p (·.retries s.tbu.free) s)) p = (portOf s p).retries s.tbu.free := portOf_modPort_same hp _
    rw [verifyTimer_repeats h hdue hleft]
    refine ⟨((Within.refl (· = p) s).modPort rfl _).emitOut _, fun _ => ?_, fun hmore => absurd hmore (by omega)⟩
    rw [hport]
    exact ⟨h, rfl, rfl⟩
  · rw [verifyTimer_fails h hdue hleft]
    refine ⟨((Within.refl (· = p) s).modPort rfl _).netEvent 7, fun hmore => absurd hmore (by omega), fun _ => ?_⟩
    rw [portOf_netEvent, portOf_modPort_same hp, netEvent_net]
    exact ⟨rfl, bitOf_setBit_same _ (by decide)⟩

/-! LPI_IDLE_TIMER (R140) -/

/-- A port with nothing to send that may enter low-power idle. -/
structure Resting (q : Port) (now : Nat) : Prop where
  up      : q.linkUp = true
  enabled : bitOf q.lpi 0 = true
  eee     : q.eee = true
  awake   : q.lpiTx = false
  line    : q.line = none
  susp    : q.suspended = none
  express : q.express = []
  pre     : q.pre = []
  todo    : q.todo = []
  rate    : 10000 ≤ mbpsOf q.speed
  since   : q.idleAt + fld q.lpi.toNat 15 4 * 1000 * fr ≤ now

theorem lpiIdle_enters (h : Resting (portOf s p) s.tbu.free) : lpiIdle p s = netCnt p 27 1 (modPort p (fun q => { q with lpiTx := true }) s) := by
  obtain ⟨hup, hen, heee, hawake, hline, hsusp, hexp, hpre, htodo, hrate, hsince⟩ := h
  simp [lpiIdle, hup, hen, heee, hawake, hline, hsusp, hexp, hpre, htodo, hrate, hsince]

/-! DS_INTERVAL (R139) -/

/-- A port whose interval starts anew. -/
def Port.restarts (now : Nat) (q : Port) : Port := { q with dsAt := now, dsRx := 0, dsTx := 0 }

/-- Traffic of the interval was below LOW_TH. -/
def Port.quiet (q : Port) : Prop := q.dsRx * 800 < fld q.ds.toNat 15 8 * 10000000000 ∧ q.dsTx * 800 < fld q.ds.toNat 15 8 * 10000000000

section
variable (hdue : (portOf s p).dsAt + secFr ≤ s.tbu.free)
include hdue

/-- What comes of an interval that ended: nothing, a shift, or another count of quiet intervals. -/
theorem dsInterval_cases : let u := modPort p (·.restarts s.tbu.free) s
    dsInterval p s = u ∨ (∃ d, dsInterval p s = dsShift p d u) ∨ ∃ n, dsInterval p s = modPort p (fun q => { q with dsLow := n }) u := by
  intro u
  unfold dsInterval
  extract_lets q w low high n
  have hruns : ¬ s.tbu.free < q.dsAt + secFr := Nat.not_lt.mpr hdue
  rw [if_neg hruns]
  split
  · exact .inl rfl
  · split
    · split
      · exact .inr (.inl ⟨_, rfl⟩)
      · exact .inl rfl
    · split
      · exact .inr (.inl ⟨_, rfl⟩)
      · exact .inr (.inr ⟨_, rfl⟩)

theorem dsInterval_off (h : (portOf s p).dsEn = false) : dsInterval p s = modPort p (·.restarts s.tbu.free) s := by
  have hruns : ¬ s.tbu.free < (portOf s p).dsAt + secFr := Nat.not_lt.mpr hdue
  simp only [dsInterval, if_neg hruns, h, Bool.false_and, Bool.not_false, Bool.true_or, if_true]
  rfl

theorem dsInterval_shifts (hen : (portOf s p).dsEn = true) (han : (portOf s p).anEn = true) (hmode : (portOf s p).mode = 5 ∨ (portOf s p).mode = 6)
    (hpend : (portOf s p).dsPend = none) (hact : (portOf s p).dsActive = false) (hquiet : (portOf s p).quiet)
    (hhold : fld (portOf s p).ds.toNat 31 24 ≤ (portOf s p).dsLow + 1) : dsInterval p s = dsShift p true (modPort p (·.restarts s.tbu.free) s) := by
  obtain ⟨hrx, htx⟩ := hquiet
  have hruns : ¬ s.tbu.free < (portOf s p).dsAt + secFr := Nat.not_lt.mpr hdue
  have hkr : (decide ((portOf s p).mode = 5) || decide ((portOf s p).mode = 6)) = true := by simpa using hmode
  simp only [dsInterval, if_neg hruns, hen, han, hkr, hpend, hact, hrx, htx, decide_true, Bool.and_true, Bool.not_true, Option.isSome_none, Bool.or_false,
    Bool.false_eq_true, if_false, if_true, if_pos hhold]
  rfl

theorem dsInterval_tally (hp : p < s.net.ports.length) : (portOf (dsInterval p s) p).tally = ((portOf s p).ds, s.tbu.free, 0, 0) := by
  have hu : (portOf (modPort p (·.restarts s.tbu.free) s) p).tally = ((portOf s p).ds, s.tbu.free, 0, 0) := by
    rw [portOf_modPort_same hp]
    rfl
  obtain h | ⟨d, h⟩ | ⟨n, h⟩ := dsInterval_cases hdue
  · rw [h, hu]
  · rw [h, dsShift_tally, hu]
  · rw [h, modPort_tally p _ fun q => { q with dsLow := n }, hu]

theorem dsInterval_within : Within (· = p) s (dsInterval p s) := by
  have hu := (Within.refl (· = p) s).modPort rfl (·.restarts s.tbu.free)
  obtain h | ⟨d, h⟩ | ⟨n, h⟩ := dsInterval_cases hdue
  · rw [h]
    exact hu
  · rw [h]
    exact hu.dsShift rfl d
  · rw [h]
    exact hu.modPort rfl _

end

/-- A port that shifts down at once, or at the end of the frame in transmission. -/
theorem dsShift_port (hp : p < s.net.ports.length) (down : Bool) (h : (portOf s p).dsActive = false) : let q := portOf (dsShift p down s) p
    if sending (portOf s p) s.tbu.free then q.dsPend = some down ∧ q.dsActive = false else q.dsActive = down ∧ q.linkUp = false := by
  intro q
  split
  next hsend =>
    have hq : q = { portOf s p with dsPend := some down } := by
      simp only [q, dsShift, if_pos hsend]
      exact portOf_modPort_same hp _
    rw [hq]
    exact ⟨rfl, h⟩
  next hsend =>
    obtain ⟨hdown, hact, -⟩ := renegotiate_port hp down
    simp only [q, dsShift, if_neg hsend]
    exact ⟨hact, hdown⟩

/-! DS_ENABLE_WRITE (R137, R138) -/

theorem bitOf_dsFields (v : Word) : bitOf (dsFields v) 0 = bitOf v 0 := by
  simp only [bitOf, dsFields, wordOf, packFields, place, Nat.testBit_zero, Nat.shiftLeft_eq, BitVec.getLsbD, decide_eq_decide, fld,
    Nat.shiftRight_zero, BitVec.toNat_ofNat]
  generalize max 1 _ = a, min 100 _ = b, min 99 _ = c
  omega

theorem and_clear_or_one (w : Word) : w &&& 0xFFFFFFFE#32 ||| 1#32 = w ||| 1#32 := by
  have hmask : ∀ i < 32, ((0xFFFFFFFE#32).getLsbD i || (1#32).getLsbD i) = true := by decide
  refine BitVec.eq_of_getLsbD_eq fun i hi => ?_
  simp only [BitVec.getLsbD_or, BitVec.getLsbD_and, Bool.or_and_distrib_right, hmask i hi, Bool.and_true]

theorem bitOf_and_clear (w : Word) : bitOf (w &&& 0xFFFFFFFE#32) 0 = false := by
  simp [bitOf]

/-- The port may not be downshifted (R138). -/
def dsBarred (p : Nat) (s : State) : Bool :=
  !(((portOf s p).mode = 5 || (portOf s p).mode = 6) && (portOf s p).anEn) || (portOf s p).alarmEgress || ptpPort s p

/-- NET_DS_CFG as a write with ordered limits stores it. -/
def dsStored (p : Nat) (v : Word) (s : State) : Word := if bitOf v 0 && dsBarred p s then dsFields v &&& 0xFFFFFFFE#32 else dsFields v

theorem dsStored_or_one (v : Word) : dsStored p v s ||| 1#32 = dsFields v ||| 1#32 := by
  unfold dsStored
  split
  · exact and_clear_or_one _
  · rfl

theorem bitOf_dsStored {v : Word} (h : bitOf (dsStored p v s) 0 = true) : bitOf v 0 = true ∧ dsBarred p s = false := by
  unfold dsStored at h
  split at h
  next => exact absurd h (by simp [bitOf_and_clear])
  next hfree =>
    rw [bitOf_dsFields] at h
    exact ⟨h, by simpa [h] using hfree⟩

theorem dsBarred_eq_false (h : dsBarred p s = false) :
    ((portOf s p).mode = 5 ∨ (portOf s p).mode = 6) ∧ (portOf s p).anEn = true ∧ (portOf s p).alarmEgress = false ∧ ptpPort s p = false := by
  simp only [dsBarred, Bool.or_eq_false_iff, Bool.not_eq_false', Bool.and_eq_true, Bool.or_eq_true, decide_eq_true_eq] at h
  obtain ⟨⟨⟨hmode, han⟩, halarm⟩, hptp⟩ := h
  exact ⟨hmode, han, halarm, hptp⟩

/-- The port behind such a write. -/
def dsWritten (p : Nat) (v : Word) (s : State) : State :=
  modPort p (fun q => { q with ds := dsStored p v s, dsLow := if bitOf (dsStored p v s) 0 then q.dsLow else 0 }) s

section
variable {v : Word}

theorem dsWrite_refused (hen : bitOf v 0 = true) (hlim : fld v.toNat 23 16 ≤ fld v.toNat 15 8) : dsWrite p v s = netEvent 4 s := by
  simp [dsWrite, hen, hlim]

variable (h : bitOf v 0 = false ∨ fld v.toNat 15 8 < fld v.toNat 23 16)
include h

/-- The write is stored; an active downshift that it ends shifts back, and an ENABLE that it clears is an event. -/
theorem dsWrite_stores : ∃ t, (t = dsWritten p v s ∨ t = dsShift p false (dsWritten p v s)) ∧ (dsWrite p v s = t ∨ dsWrite p v s = netEvent 4 t) := by
  have hgoes : ¬ (bitOf v 0 && decide (fld v.toNat 23 16 ≤ fld v.toNat 15 8)) = true := by
    simpa [Decidable.imp_iff_not_or] using h
  unfold dsWrite
  extract_lets q no w w' u t
  rw [if_neg hgoes]
  refine ⟨t, ?_, ?_⟩
  · show (if _ then _ else _) = _ ∨ (if _ then _ else _) = _
    split
    · exact .inr rfl
    · exact .inl rfl
  · split
    · exact .inr rfl
    · exact .inl rfl

theorem dsWrite_ds (hp : p < s.net.ports.length) : (portOf (dsWrite p v s) p).ds = dsStored p v s := by
  have hu : (portOf (dsWritten p v s) p).ds = dsStored p v s := congrArg Port.ds (portOf_modPort_same hp _)
  obtain ⟨t, ht, hw⟩ := dsWrite_stores h
  have hkept : (portOf t p).ds = dsStored p v s := by
    obtain rfl | rfl := ht
    · exact hu
    · exact (congrArg Prod.fst (dsShift_tally ..)).trans hu
  obtain hw | hw := hw
  · rw [hw, hkept]
  · rw [hw, portOf_netEvent, hkept]

theorem dsWrite_within : Within (· = p) s (dsWrite p v s) := by
  have hu : Within (· = p) s (dsWritten p v s) := (Within.refl (· = p) s).modPort rfl _
  obtain ⟨t, ht, hw⟩ := dsWrite_stores h
  have hkept : Within (· = p) s t := by
    obtain rfl | rfl := ht
    · exact hu
    · exact hu.dsShift rfl false
  obtain hw | hw := hw
  · rw [hw]
    exact hkept
  · rw [hw]
    exact hkept.netEvent 4

end

theorem dsWrite_spec (hp : p < s.net.ports.length) (v : Word) : let t := dsWrite p v s
    Within (· = p) s t ∧ (bitOf v 0 = true → fld v.toNat 23 16 ≤ fld v.toNat 15 8 → portOf t p = portOf s p ∧ bitOf t.net.event 4 = true) ∧
      (bitOf v 0 = false ∨ fld v.toNat 15 8 < fld v.toNat 23 16 → (portOf t p).ds = dsStored p v s) := by
  by_cases hrefused : bitOf v 0 = true ∧ fld v.toNat 23 16 ≤ fld v.toNat 15 8
  · obtain ⟨hen, hlim⟩ := hrefused
    rw [dsWrite_refused hen hlim]
    refine ⟨(Within.refl (· = p) s).netEvent 4, fun _ _ => ⟨portOf_netEvent .., ?_⟩, fun hstored => ?_⟩
    · rw [netEvent_net]
      exact bitOf_setBit_same _ (by decide)
    rcases hstored with hoff | hlt
    · exact absurd (hoff.symm.trans hen) Bool.false_ne_true
    · omega
  · have hstored : bitOf v 0 = false ∨ fld v.toNat 15 8 < fld v.toNat 23 16 := by simpa [Decidable.imp_iff_not_or] using hrefused
    exact ⟨dsWrite_within hstored, fun hen hlim => absurd ⟨hen, hlim⟩ hrefused, fun _ => dsWrite_ds hstored hp⟩

end

/-- Settles O36: the three timers and the write of NET_DS_CFG one by one. -/
theorem portTimers : Obligations.PortTimers := by
  intro dt p v s s0 hready hp hports now q others marked
  have hlen : p < s0.net.ports.length := hports ▸ hp
  have hacc := accountEmits_eq s0
  let a := { s0 with tkx := (accountEmits s0).tkx }
  refine ⟨fun hver hdue => ?_, fun hup hen heee hawake hline hsusp hexp hpre htodo hrate hsince => ?_, fun hdue => ?_, fun hopen => ?_⟩
  · obtain ⟨hwithin, hrepeats, hfails⟩ := verifyTimer_spec hlen hver hdue
    exact ⟨_, exec_onPort rfl hready hp, hwithin.onlyPorts, hwithin.ports, hrepeats, hfails⟩
  · have hlpi : exec (.lpiIdleTimer dt p) s = .next (lpiIdle p s0) := exec_onPort rfl hready hp
    rw [lpiIdle_enters ⟨hup, hen, heee, hawake, hline, hsusp, hexp, hpre, htodo, hrate, hsince⟩] at hlpi
    have hwithin := ((Within.refl (· = p) s0).modPort rfl (fun q => { q with lpiTx := true })).netCnt rfl 27 1
    refine ⟨_, hlpi, rfl, hwithin.ports, ?_⟩
    rw [netCnt_eq, portOf_modPort_same ((modPort_count ..).symm ▸ hlen), portOf_modPort_same hlen]
  · have hinterval : exec (.dsInterval dt p) s = .next (marksDue (dsInterval p (accountEmits s0))) :=
      exec_onPort (op := fun s => marksDue (dsInterval p (accountEmits s))) rfl hready hp
    rw [hacc] at hinterval
    have hwithin : Within (· = p) a (dsInterval p a) := dsInterval_within hdue
    have htally := dsInterval_tally (s := a) hdue hlen
    simp only [Port.tally, Prod.mk.injEq] at htally
    obtain ⟨-, hat, hrx, htx⟩ := htally
    have hstart : portOf (modPort p (·.restarts a.tbu.free) a) p = q.restarts now := portOf_modPort_same hlen _
    refine ⟨_, hinterval, hwithin.onlyMarks, fun k hk => ?_, ?_, ?_, ?_, fun hoff => ?_, fun hen han hmode hpend hact hrxLow htxLow hhold => ?_⟩
    all_goals rw [portOf_marksDue]
    · exact hwithin.ports k hk
    · exact hat
    · exact hrx
    · exact htx
    · rw [dsInterval_off (s := a) hdue hoff, hstart]
      rfl
    · rw [dsInterval_shifts (s := a) hdue hen han hmode hpend hact ⟨hrxLow, htxLow⟩ hhold]
      have hshift := dsShift_port (s := modPort p (·.restarts a.tbu.free) a) ((modPort_count ..).symm ▸ hlen) true (hstart ▸ hact)
      rw [hstart] at hshift
      exact hshift
  · have hwrite : exec (.dsEnableWrite dt p v) s = .next (marksDue (dsWrite p v (accountEmits s0))) := by
      rw [exec_onBar rfl hopen]
      simp only [onPort, live, s0, hready, if_true, if_pos hp]
    rw [hacc] at hwrite
    obtain ⟨hwithin, hrefused, hstored⟩ := dsWrite_spec (s := a) hlen v
    refine ⟨_, hwrite, hwithin.onlyMarks, fun k hk => ?_, fun hen hlim => ?_, fun hlim => ?_⟩
    all_goals rw [portOf_marksDue]
    · exact hwithin.ports k hk
    · rw [marksDue_net]
      exact hrefused hen hlim
    · rw [Port.dsEn, hstored hlim]
      refine ⟨dsStored_or_one v, fun hen => ?_⟩
      obtain ⟨hbit, hfree⟩ := bitOf_dsStored hen
      exact ⟨hbit, dsBarred_eq_false (s := a) hfree⟩

end Sys2Proof.Machine
end

section
/-! SUPPORT. What the judgement of a frame leaves alone: everything but Ingest, status points, grid-edge reports, the journal, fault counters and
what the ports send (R147 to R182). -/

namespace Sys2Proof.Machine

/-- What stands of the ports while Ingest answers: what they received. -/
def Net.received (n : Net) : Net := { Net.reset with ports := n.ports.map fun q => { Port.reset with rx := q.rx } }

/-- A state without what the judgement of a frame changes. -/
def State.hold (s : State) : State :=
  { s.rest with ing := Ing.reset, sep := Sep.reset, ge := Ge.reset, net := s.net.received, aln := { s.aln with journal := [], overflow := false }
                flt := { s.flt with cnt := [] } }

/-- A state without that and without its ports. -/
def State.dock (s : State) : State := { s.hold with net := Net.reset }

theorem hold_of_rest {s t : State} (h : t.rest = s.rest) : t.hold = s.hold := show t.rest.hold = s.rest.hold from congrArg State.hold h

theorem dock_of_hold {s t : State} (h : t.hold = s.hold) : t.dock = s.dock := (congrArg (fun u : State => { u with net := Net.reset }) h :)

theorem aln_of_hold {s t : State} (h : t.dock = s.dock) : t.aln = { s.aln with journal := t.aln.journal, overflow := t.aln.overflow } := by
  have haln : { t.aln with journal := [], overflow := false } = { s.aln with journal := [], overflow := false } := congrArg State.aln h
  generalize t.aln = y, s.aln = x at haln
  obtain ⟨⟩ := x
  obtain ⟨⟩ := y
  simp only [Aln.mk.injEq] at haln ⊢
  simp [haln]

theorem flt_of_hold {s t : State} (h : t.dock = s.dock) : t.flt = { s.flt with cnt := t.flt.cnt } := by
  have hflt : { t.flt with cnt := [] } = { s.flt with cnt := [] } := congrArg State.flt h
  generalize t.flt = y, s.flt = x at hflt
  obtain ⟨⟩ := x
  obtain ⟨⟩ := y
  simp only [Flt.mk.injEq] at hflt ⊢
  simp [hflt]

theorem onlyIngest_of_dock {s t : State} (h : t.dock = s.dock) : OnlyIngest s t := by
  rw [OnlyIngest, ← aln_of_hold h, ← flt_of_hold h]
  obtain ⟨⟩ := s
  obtain ⟨⟩ := t
  simp only [State.dock, State.hold, State.rest, State.mk.injEq] at h ⊢
  simp [h]

theorem rx_of_hold {s t : State} (h : t.hold = s.hold) (p : Nat) : (portOf t p).rx = (portOf s p).rx := by
  have hnet : t.net.received = s.net.received := congrArg State.net h
  have hrx : ∀ u : State, (portOf u p).rx = (nth u.net.received.ports p Port.reset).rx := fun u => by
    simp only [portOf, nth, Net.received, List.getElem?_map]
    cases u.net.ports[p]? <;> rfl
  rw [hrx, hrx, hnet]

theorem foldl_hold {α : Type} (f : State → α → State) (l : List α) (s : State) (h : ∀ s a, (f s a).hold = s.hold) : (l.foldl f s).hold = s.hold := by
  induction l generalizing s with
  | nil => rfl
  | cons a l ih => exact (ih _).trans (h s a)

@[simp] theorem hold_ite (c : Prop) [Decidable c] (s t : State) : (if c then s else t).hold = if c then s.hold else t.hold := apply_ite ..

@[simp] theorem hold_ing (s : State) (x : Ing) : State.hold { s with ing := x } = s.hold := rfl

section
variable (s : State)

/-! Counters, events and captures (R150, R152) -/

@[simp] theorem ingEvent_hold (k : Nat) : (ingEvent k s).hold = s.hold := (hold_of_rest (ingEvent_rest k s)).trans rfl

@[simp] theorem ingCnt_hold (k n : Nat) : (ingCnt k n s).hold = s.hold := rfl

@[simp] theorem engFrames_hold (e n : Nat) : (engFrames e n s).hold = s.hold := rfl

@[simp] theorem modEp_hold (e : Nat) (f : EpRt → EpRt) : (modEp e f s).hold = s.hold := by
  unfold modEp
  split <;> rfl

@[simp] theorem captureIf_rest (bit reason : Nat) (f : RxFrame) : (captureIf bit reason f s).rest = s.rest := by
  unfold captureIf
  split
  · exact handRec_rest ..
  · rfl

@[simp] theorem captureIf_hold (bit reason : Nat) (f : RxFrame) : (captureIf bit reason f s).hold = s.hold := hold_of_rest (captureIf_rest ..)

@[simp] theorem ingReject_hold (k : Nat) (ev : Option Nat) : (ingReject k ev s).hold = s.hold := by cases ev <;> simp [ingReject]

@[simp] theorem rejectMisfit_hold : (rejectMisfit s).hold = s.hold := rfl

/-! FIFOs and the journal (R176 to R182, R443) -/

@[simp] theorem fifoPush_hold (n : Nat) (p : Pkt) : (fifoPush n p s).hold = s.hold := by
  obtain ⟨x, -, -, y, hy, -, -⟩ := fifoDrive_marked n { fifoOf s n with wait := (fifoOf s n).wait ++ [p] } s
  exact (hold_of_rest hy).trans rfl

@[simp] theorem acceptPkt_hold (k : Nat) (a : Arrive) (ep : Nat) (tm : Int) (vals : List Dword) (flags : Nat) :
    (acceptPkt k a ep tm vals flags s).hold = s.hold := by simp [acceptPkt]

theorem journalFit_hold : (journalFit s).hold = s.hold := by
  unfold journalFit
  split
  · rfl
  · extract_lets t
    split <;> rfl

@[simp] theorem journalAdd_hold (i : JItem) : (journalAdd i s).hold = s.hold := by
  unfold journalAdd
  split
  · rfl
  · exact (journalFit_hold _).trans rfl

@[simp] theorem writePoint_hold (k pos sec ns : Nat) : (writePoint k pos sec ns s).hold = s.hold := by
  unfold writePoint
  split <;> rfl

/-! C37.118.2 (R155 to R157) -/

@[simp] theorem c37Block_hold (a : Arrive) (l : List Byte) (ep : Nat) : (c37Block a l s ep).hold = s.hold := by
  unfold c37Block
  split <;> simp

@[simp] theorem cfgFrame_hold (a : Arrive) (l : List Byte) (f : RxFrame) (e0 : Nat) : (cfgFrame a l f e0 s).hold = s.hold := by
  unfold cfgFrame
  split
  · rfl
  · extract_lets sig t
    have ht : t.hold = s.hold := foldl_hold _ _ (ingCnt 19 1 s) fun u k => by
      split <;> simp
    simp [ht]

@[simp] theorem judgeC37_hold (a : Arrive) (u : Udp) (f : RxFrame) : (judgeC37 a u f s).hold = s.hold := by
  have hblocks : ∀ e0, ((streamBlocks s e0).foldl (c37Block a u.data) s).hold = s.hold := fun e0 => foldl_hold _ _ s fun t => c37Block_hold t a u.data
  unfold judgeC37
  extract_lets l t
  split
  · simp
  · split <;> simp [t]
  · simp
  · split
    · simp
    · simp [l, hblocks]

/-! IEC 61850-90-5 (R158 to R160, R163 to R165) -/

@[simp] theorem applyAuth_hold (ep : Nat) (o : AuthOut) : (applyAuth ep o s).2.hold = s.hold := by
  cases o <;> simp [applyAuth]

@[simp] theorem judgeAsdu_hold (a : Arrive) (u : Udp) (p : Spdu) (q : SvAsdu) : (judgeAsdu a u p s q).hold = s.hold := by
  unfold judgeAsdu
  split
  · simp
  · split
    · simp
    · split <;> simp

@[simp] theorem judgeGoose_hold (a : Arrive) (u : Udp) (p : Spdu) (q : GoosePdu) : (judgeGoose a u p q s).hold = s.hold := by
  have hwrites : ∀ (l : List Dword) (sec ns : Nat) (t : State), (l.foldl (fun s d =>
      writePoint (chPoint d) (statusPos d q.data) sec ns (journalAdd (.status (chPoint d) (statusPos d q.data) sec ns) s)) t).hold = t.hold :=
    fun l sec ns t => foldl_hold _ l t fun _ _ => by simp
  unfold judgeGoose
  split
  · simp
  · split <;> simp [hwrites]

@[simp] theorem judge905_hold (a : Arrive) (u : Udp) (p : Option Spdu) : (judge905 a u p s).hold = s.hold := by
  cases p with
  | none => simp [judge905]
  | some p =>
    have hasdus : ∀ l : List SvAsdu, (l.foldl (judgeAsdu a u p) s).hold = s.hold := fun l => foldl_hold _ l s fun t => judgeAsdu_hold t a u p
    cases hbody : p.body with
    | sv l => simp [judge905, hbody, hasdus]
    | goose l =>
      rcases l with _ | ⟨q, _ | ⟨q', l⟩⟩ <;> simp [judge905, hbody]

/-! HXG reports (R166 to R168, R326) -/

theorem sepEvent_hold (k : Nat) : (sepEvent k s).hold = s.hold := by
  unfold sepEvent
  extract_lets up t
  split
  · exact (hold_of_rest (raiseBlock_rest 9 _)).trans rfl
  · rfl

@[simp] theorem geReport_hold (sec : Nat) (r : GeRep) : (geReport sec r s).hold = s.hold := by
  unfold geReport
  split
  · rfl
  · split
    · exact (sepEvent_hold _ 7).trans rfl
    · extract_lets add
      split
      · rfl
      · split
        · exact (sepEvent_hold _ 8).trans rfl
        · rfl

@[simp] theorem slowReject_hold (i k : Nat) (ev : Option Nat) : (slowReject i k ev s).hold = s.hold := by
  unfold slowReject
  extract_lets t
  have ht : t.hold = s.hold := ingReject_hold ..
  split
  · exact ht
  · split
    · exact ht
    · exact ht

@[simp] theorem hxgUpdate_hold (i : Nat) (l : List Byte) (arr : Int) (u : Unit512) : (hxgUpdate i l arr u s).hold = s.hold := by
  have hset : ∀ (t : State) (v : Unit512), (setSlow i v t).hold = t.hold := fun _ _ => rfl
  simp [hxgUpdate, hset]

@[simp] theorem hxgReport_hold (eng : Nat) (arr : Int) (l : List Byte) : (hxgReport eng arr s l).hold = s.hold := by
  unfold hxgReport
  extract_lets t typ i
  have ht : t.hold = s.hold := rfl
  split
  · simp [ht]
  · split
    · simp [ht]
    · split
      · simp [ht]
      · extract_lets auth
        split
        · simp [ht]
        · split <;> simp [ht]

@[simp] theorem judgeHxg_hold (a : Arrive) (u : Udp) : (judgeHxg a u s).hold = s.hold := by
  have hreports : ∀ (l : List (List Byte)) (t : State), (l.foldl (hxgReport a.eng a.arr) t).hold = t.hold := fun l t =>
    foldl_hold _ l t fun t => hxgReport_hold t a.eng a.arr
  simp [judgeHxg, hreports]

/-! Answers (R151) -/

theorem modPort_hold (p : Nat) (f : Port → Port) (h : ∀ q, (f q).rx = q.rx := by exact fun _ => rfl) : (modPort p f s).hold = s.hold := by
  have hports : (modAt s.net.ports p f).map (fun q => { Port.reset with rx := q.rx }) = s.net.ports.map fun q => { Port.reset with rx := q.rx } := by
    refine List.ext_getElem? fun k => ?_
    rw [List.getElem?_map, List.getElem?_map, modAt_get]
    split
    · cases s.net.ports[k]? <;> simp [h]
    · rfl
  exact congrArg (fun l => { s.hold with net := { Net.reset with ports := l } }) hports

theorem queueFrame_hold (p : Nat) (express : Bool) (f : TxFrame) : (queueFrame p express f s).hold = s.hold := by
  have hcnt : ∀ k n, (netCnt p k n s).hold = s.hold := fun k n => modPort_hold ..
  have hwake : (wakePort p s).hold = s.hold := by
    unfold wakePort
    extract_lets q w
    split
    · exact modPort_hold ..
    · rfl
  have hfull : (netEvent 9 (netCnt p 25 1 s)).hold = s.hold := (hold_of_rest (netEvent_rest ..)).trans (hcnt 25 1)
  unfold queueFrame
  split
  · exact hcnt ..
  · split
    · split
      · exact hfull
      · exact (modPort_hold ..).trans hwake
    · exact (modPort_hold ..).trans hwake

@[simp] theorem handFrame_hold (p : Nat) (express : Bool) (f : TxFrame) : (handFrame p express f s).hold = s.hold := by
  have hcopies : (copies p f s).2.hold = s.hold := by
    unfold copies
    split <;> rfl
  exact (foldl_hold _ _ _ fun _ _ => queueFrame_hold ..).trans hcopies

theorem judgeFrame_hold (e : Nat) (f : RxFrame) (p : Option Spdu) : (judgeFrame e f p s).hold = s.hold := by
  unfold judgeFrame
  extract_lets arrive
  split
  · simp
  · split
    · simp
    · split <;> simp

end

end Sys2Proof.Machine
end

section
/-! SUPPORT. A frame that is judged: its engine, and a C37.118.2 data frame that becomes a packet (R147, R150, R154 to R163, R176 to R181). -/

namespace Sys2Proof.Machine

/-! The engine of a frame (R147) -/

section
variable (s : State)

/-- Only the leap second that is near is set anew. -/
theorem leapUpdate_eq : ∃ x, leapUpdate s = { s with ing := { s.ing with leap := x } } := by
  unfold leapUpdate
  obtain ⟨_, _, l61, l59⟩ := utcInfo s
  dsimp only
  repeat' split
  all_goals exact ⟨_, rfl⟩

variable {s} {f : RxFrame}

theorem engineFor_leap (x : Option (Int × Int × Int)) (f : RxFrame) : engineFor { s with ing := { s.ing with leap := x } } f = engineFor s f := by
  have hfree : ∀ k n, freeEngine { s with ing := { s.ing with leap := x } } k n = freeEngine s k n := fun k => by
    induction k with
    | zero => exact fun _ => rfl
    | succ k ih =>
      intro n
      rw [freeEngine, freeEngine, ih]
      rfl
  unfold engineFor
  rw [hfree]
  rfl

/-- An IPv4 frame asks for no answer (R151). -/
theorem answerOf_ipv4 (h : etherType f.bytes = 0x0800) : answerOf s f = none := by
  simp [answerOf, arpAnswer, h]

/-- A C37.118.2 frame goes to the engine of its stream, once that is free. -/
theorem engineFor_c37 {u : Udp} {n : Nat} (hflag : f.st.flagged = false) (htype : etherType f.bytes = 0x0800) (hudp : udpOf f.bytes f.st.rct = some u)
    (hport : u.dport = fld s.ing.portC37.toNat 15 0) (h : engineFor s f = some n) : n = hashEngine u ∧ engineFree s n = true := by
  simp only [engineFor, hflag, answerOf_ipv4 htype, hudp, hport, Option.isSome_none, Bool.or_self, Bool.false_eq_true, if_false, true_or, if_true] at h
  split at h
  next hfree => exact ⟨(Option.some.inj h).symm, Option.some.inj h ▸ hfree⟩
  next => cases h

end

/-! A packet and its FIFO (R176, R180, R181) -/

/-- What an engine that was free leaves of a FIFO and a packet it pushes. -/
structure Pushed (f g : Fifo) (p : Pkt) : Prop where
  fits  : f.level + p.words ≤ fifoCap → g.pkts = f.pkts ++ [p] ∧ g.part = none
  stays : fifoCap < f.level + p.words → g.pkts = f.pkts ∧ g.part.map Prod.fst = some p

theorem drive_push {f : Fifo} (hpart : f.part = none) (p : Pkt) : Pushed f ({ f with wait := [p] }.drive 4).1 p := by
  have hlevel : ({ f with part := some (p, 0), wait := [] } : Fifo).level = f.level := by simp [Fifo.level, hpart]
  have hwords : 1 ≤ p.words := Nat.le_add_right ..
  constructor
  · intro h
    have hall : p.words ≤ 0 + min (p.words - 0) (fifoCap - f.level) := by omega
    simp only [Fifo.drive, hpart, hlevel, if_pos hall]
    exact ⟨trivial, trivial⟩
  · intro h
    have hsome : ¬ p.words ≤ 0 + min (p.words - 0) (fifoCap - f.level) := by omega
    simp only [Fifo.drive, hpart, hlevel, if_neg hsome]
    exact ⟨trivial, rfl⟩

/-- Engine n pushed a packet into its FIFO; every other FIFO stands. -/
structure Enqueued (l m : List Fifo) (n : Nat) (p : Pkt) : Prop where
  pushed : Pushed (nth l n Fifo.reset) (nth m n Fifo.reset) p
  others : ∀ k, k ≠ n → nth m k Fifo.reset = nth l k Fifo.reset

/-- A free engine's push: its FIFO takes the packet as far as it goes, and no counter of frames changes. -/
theorem fifoPush_free {n : Nat} {s : State} (hn : n < s.ing.fifos.length) (hfree : engineFree s n = true) (p : Pkt) :
    Enqueued s.ing.fifos (fifoPush n p s).ing.fifos n p ∧ (fifoPush n p s).ing.cnt = s.ing.cnt := by
  obtain ⟨hpart, hwait⟩ : (fifoOf s n).part = none ∧ (fifoOf s n).wait = [] := by simpa [engineFree] using hfree
  obtain ⟨x, hfifos, hcnt, y, hy, hyfifos, hycnt⟩ := fifoDrive_marked n { fifoOf s n with wait := (fifoOf s n).wait ++ [p] } s
  have hing : (fifoPush n p s).ing = y := (congrArg State.ing hy :)
  rw [hwait] at hfifos
  obtain ⟨hsame, hothers⟩ := fifoOf_setAt (t := fifoPush n p s) hn ((congrArg Ing.fifos hing).trans (hyfifos.trans hfifos))
  refine ⟨⟨?_, hothers⟩, ?_⟩
  · change Pushed _ (fifoOf (fifoPush n p s) n) p
    rw [hsame]
    exact drive_push hpart p
  · rw [hing, hycnt, hcnt]

/-! One block of a data frame (R150, R157) -/

theorem acceptPkt_push (k : Nat) (a : Arrive) (ep : Nat) (tm : Int) (vals : List Dword) (flags : Nat) (s : State) :
    ∃ p f, acceptPkt k a ep tm vals flags s = fifoPush a.eng p (modEp ep f (ingCnt k 1 s)) ∧
      p.ep = ep ∧ p.arrTs = a.st.ts32 ∧ p.injected = a.inject ∧ p.vals = vals := ⟨_, _, rfl, rfl, rfl, rfl, rfl⟩

section
variable {a : Arrive} {l : List Byte} {s : State} {ep : Nat} {e : EpEntry}

theorem c37Block_accepts (hep : epOf s ep = some e) (hport : portOk a e = true) (hrun : s.sys.runState = .run) (hmis : e.rt.mismatch = false)
    (hfits : Machine.fits e.chans (l.length - 2) false = true) (hstat : e.statOff + 4 ≤ l.length) : ∃ t tm flags, (t = s ∨ t = ingEvent 5 s) ∧
    c37Block a l s ep =
      acceptPkt (if a.inject then 2 else 0) a ep tm (e.chans.map fun d => convert true (fnomOf s e.system) d (l.take (l.length - 2))) flags t := by
  have hbody : (l.take (l.length - 2)).length = l.length - 2 := by simp
  have hgoes : ¬ (e.rt.mismatch || !(Machine.fits e.chans (l.take (l.length - 2)).length false) || decide ((l.take (l.length - 2)).length < e.statOff + 2)) = true := by
    rw [hbody]
    simp [hmis, hfits]
    omega
  simp only [c37Block, hep, hport, intake, hrun, decide_true, Bool.not_true, Bool.false_eq_true, if_false, if_neg hgoes]
  refine ⟨_, _, _, ?_, rfl⟩
  split
  · exact .inr rfl
  · exact .inl rfl

theorem modEp_eps (ep : Nat) (f : EpRt → EpRt) (s : State) : ∃ x, modEp ep f s = { s with ing := { s.ing with eps := x } } := by
  unfold modEp
  split <;> exact ⟨_, rfl⟩

theorem ingEvent_ing (k : Nat) (s : State) : (ingEvent k s).ing = { s.ing with event := setBit s.ing.event k } :=
  (congrArg State.ing (ingEvent_rest k s) :)

/-- The packet of a data frame: converted values, pushed by the engine of its frame, counted as accepted. -/
structure Delivered (x y : Ing) (n : Nat) (p : Pkt) : Prop where
  queued  : Enqueued x.fifos y.fifos n p
  counted : y.cnt = modAt x.cnt 0 (satAdd · 1)

/-- A data frame's block that is accepted becomes the one packet of its converted values. -/
theorem c37Block_delivers (hep : epOf s ep = some e) (hport : portOk a e = true) (hrun : s.sys.runState = .run) (hmis : e.rt.mismatch = false)
    (hfits : Machine.fits e.chans (l.length - 2) false = true) (hstat : e.statOff + 4 ≤ l.length) (hinj : a.inject = false)
    (hn : a.eng < s.ing.fifos.length) (hfree : engineFree s a.eng = true) :
    ∃ k, Delivered s.ing (c37Block a l s ep).ing a.eng k ∧ k.ep = ep ∧ k.arrTs = a.st.ts32 ∧ k.injected = false ∧
      k.vals = e.chans.map fun d => convert true (fnomOf s e.system) d (l.take (l.length - 2)) := by
  obtain ⟨t, tm, flags, ht, hblock⟩ := c37Block_accepts hep hport hrun hmis hfits hstat
  obtain ⟨k, f, hpush, hkep, hkts, hkinj, hkvals⟩ := acceptPkt_push (if a.inject then 2 else 0) a ep tm
    (e.chans.map fun d => convert true (fnomOf s e.system) d (l.take (l.length - 2))) flags t
  have hting : t.ing.fifos = s.ing.fifos ∧ t.ing.cnt = s.ing.cnt := by
    rcases ht with rfl | rfl
    · exact ⟨rfl, rfl⟩
    · simp [ingEvent_ing]
  obtain ⟨x, hx⟩ := modEp_eps ep f (ingCnt 0 1 t)
  simp only [hinj, Bool.false_eq_true, if_false] at hblock hpush
  rw [hx] at hpush
  rw [hblock, hpush]
  have hzfifos : (ingCnt 0 1 t).ing.fifos = s.ing.fifos := hting.1
  obtain ⟨hqueued, hcnt⟩ := fifoPush_free (s := { ingCnt 0 1 t with ing := { (ingCnt 0 1 t).ing with eps := x } }) (n := a.eng) (hzfifos ▸ hn)
    (by simpa only [engineFree, fifoOf, hzfifos] using hfree) k
  refine ⟨k, ⟨hzfifos ▸ hqueued, hcnt.trans ?_⟩, hkep, hkts, hkinj.trans hinj, hkvals⟩
  exact congrArg (modAt · 0 (satAdd · 1)) hting.2

end

/-! The whole judgement -/

theorem judgeFrame_flagged {f : RxFrame} (h : f.st.flagged = true) (n : Nat) (w : Option Spdu) (s : State) :
    (judgeFrame n f w s).rest = (ingCnt 4 1 (engFrames n 1 s)).rest := by
  simp only [judgeFrame, h, if_true]
  exact captureIf_rest ..

section
variable {f : RxFrame} {u : Udp} {s : State} {e0 : Nat}

/-- A frame to the C37.118.2 port is judged as one (R155). -/
theorem judgeFrame_c37 (hflag : f.st.flagged = false) (htype : etherType f.bytes = 0x0800) (hudp : udpOf f.bytes f.st.rct = some u)
    (hport : u.dport = fld s.ing.portC37.toNat 15 0) (n : Nat) (w : Option Spdu) : judgeFrame n f w s =
      judgeC37 { port := f.st.port, sport := u.sport, st := f.st, arr := f.arr, inject := false, eng := n } u f (engFrames n 1 s) := by
  simp only [judgeFrame, hflag, answerOf_ipv4 htype, hudp, if_pos hport, Bool.false_eq_true, if_false]

/-- A data frame of a stream of one block is judged by that block (R157). -/
theorem judgeC37_oneBlock (hkind : c37Kind u.data = .data) (hfind : findC37 s u.src (beAt u.data 4 2) = some e0) (hblocks : streamBlocks s e0 = [e0])
    (a : Arrive) : (judgeC37 a u f s).rest = (c37Block a u.data s e0).rest := by
  simp only [judgeC37, hkind, hfind, hblocks, List.foldl_cons, List.foldl_nil, reduceCtorEq, if_false]
  split
  · exact captureIf_rest ..
  · rfl

end

section
variable {f : RxFrame} {u : Udp} {s : State} {e0 : Nat} {e : EpEntry}

/-- A data frame whose engine is free and whose one block accepts it becomes the packet of its values (R150, R155 to R157). -/
theorem judgeFrame_delivers {n : Nat} (hflag : f.st.flagged = false) (htype : etherType f.bytes = 0x0800) (hudp : udpOf f.bytes f.st.rct = some u)
    (hdport : u.dport = fld s.ing.portC37.toNat 15 0) (hkind : c37Kind u.data = .data) (hfind : findC37 s u.src (beAt u.data 4 2) = some e0)
    (hblocks : streamBlocks s e0 = [e0]) (hep : epOf s e0 = some e)
    (hport : portOk { port := f.st.port, sport := u.sport, st := f.st, arr := f.arr, inject := false, eng := n } e = true)
    (hrun : s.sys.runState = .run) (hmis : e.rt.mismatch = false) (hfits : Machine.fits e.chans (u.data.length - 2) false = true)
    (hstat : e.statOff + 4 ≤ u.data.length) (hn : n < s.ing.fifos.length) (hfree : engineFree s n = true) (w : Option Spdu) :
    ∃ k, Delivered s.ing (judgeFrame n f w s).ing n k ∧ k.ep = e0 ∧ k.arrTs = f.st.ts32 ∧ k.injected = false ∧
      k.vals = e.chans.map fun d => convert true (fnomOf s e.system) d (u.data.take (u.data.length - 2)) := by
  rw [judgeFrame_c37 hflag htype hudp hdport n w]
  have hrest := judgeC37_oneBlock (s := engFrames n 1 s) (f := f) hkind hfind hblocks
    { port := f.st.port, sport := u.sport, st := f.st, arr := f.arr, inject := false, eng := n }
  rw [show (judgeC37 _ u f (engFrames n 1 s)).ing = _ from (congrArg State.ing hrest :)]
  obtain ⟨k, ⟨hqueued, hcounted⟩, hvals⟩ := c37Block_delivers (s := engFrames n 1 s) hep hport hrun hmis hfits hstat rfl hn hfree
  exact ⟨k, ⟨hqueued, hcounted⟩, hvals⟩

end

/-- What the end of a FIFO and its engine hold after a delivery. -/
theorem Delivered.ending {s t : State} {n : Nat} {k : Pkt} (h : Delivered s.ing t.ing n k) :
    if (fifoOf s n).level + k.words ≤ fifoCap then (fifoOf t n).pkts = (fifoOf s n).pkts ++ [k] ∧ (fifoOf t n).part = none
    else (fifoOf t n).pkts = (fifoOf s n).pkts ∧ (fifoOf t n).part.map Prod.fst = some k ∧ engineFree t n = false := by
  obtain ⟨hfits, hstays⟩ := h.queued.pushed
  split
  next hroom => exact hfits hroom
  next hfull =>
    obtain ⟨hpkts, hpart⟩ := hstays (Nat.lt_of_not_le hfull)
    have hheld : (fifoOf t n).part ≠ none := fun hnone => by simp [show (nth t.ing.fifos n Fifo.reset).part = none from hnone] at hpart
    exact ⟨hpkts, hpart, by simp [engineFree, hheld]⟩

/-! A frame leaves its receive FIFO (R147) -/

/-- A state whose port p goes on with frames r, with leap seconds x. -/
def State.taken (s : State) (p : Nat) (r : List RxFrame) (x : Option (Int × Int × Int)) : State :=
  modPort p (fun q => { q with rx := r }) { s with ing := { s.ing with leap := x } }

section
variable {p : Nat} {s : State} {f : RxFrame} {r : List RxFrame} {w : Option Spdu} (hrx : (portOf s p).rx = f :: r)
include hrx

theorem ingestFrame_waits (h : engineFor s f = none) : ∃ x, ingestFrame p w s = { s with ing := { s.ing with leap := x } } := by
  obtain ⟨x, hleap⟩ := leapUpdate_eq s
  exact ⟨x, by rw [ingestFrame, hrx]; simp only [hleap, engineFor_leap, h]⟩

theorem ingestFrame_judges {n : Nat} (h : engineFor s f = some n) :
    ∃ x, ingestFrame p w s = rxSextant p (judgeFrame n f w (s.taken p r x)) := by
  obtain ⟨x, hleap⟩ := leapUpdate_eq s
  exact ⟨x, by rw [ingestFrame, hrx]; simp only [hleap, engineFor_leap, h]; rfl⟩

end

theorem rxSextant_rx {p : Nat} {s t : State} (h : t.hold = s.hold) (hp : p < s.net.ports.length) : (portOf (rxSextant p t) p).rx =
    (portOf s p).rx.dropWhile fun f => etherType f.bytes = 0x88F7 && !(f.st.fcsErr || f.st.runt || f.st.oversize) := by
  have hlen : t.net.ports.length = s.net.ports.length := by
    simpa [State.hold, Net.received] using congrArg (fun u : State => u.net.ports.length) h
  rw [← rx_of_hold h p]
  exact congrArg Port.rx (portOf_modPort_same (hlen ▸ hp) _)

/-- Settles O43: the judgement of a frame touches Ingest and what it answers, and a data frame's block is the packet that its engine pushes. -/
theorem framesJudged : Obligations.FramesJudged := by
  intro dt p w s s0 hready hp hports hfifos q c
  rw [exec_onPort rfl hready hp]
  refine ⟨fun hrx => ?_, fun f r hrx => ⟨fun hwait => ?_, fun n hn => ?_⟩⟩
  · rw [ingestFrame, show (portOf s0 p).rx = [] from hrx]
  · obtain ⟨x, hx⟩ := ingestFrame_waits (w := w) hrx hwait
    rw [hx]
    exact ⟨_, rfl, rfl⟩
  obtain ⟨x, hx⟩ := ingestFrame_judges (w := w) hrx hn
  rw [hx]
  have hlen : p < s0.net.ports.length := hports ▸ hp
  have hcount : p < (s0.taken p r x).net.ports.length := (modPort_count ..).symm ▸ hlen
  have hleft : (portOf (s0.taken p r x) p).rx = r := congrArg Port.rx (portOf_modPort_same hlen _)
  have hhold : (judgeFrame n f w (s0.taken p r x)).hold = (s0.taken p r x).hold := judgeFrame_hold ..
  have hdock : (rxSextant p (judgeFrame n f w (s0.taken p r x))).dock = s0.dock := (dock_of_hold hhold :)
  refine ⟨_, rfl, onlyIngest_of_dock hdock, (rxSextant_rx hhold hcount).trans (by rw [hleft]), fun hflag => ?_, ?_⟩
  · have hrest := judgeFrame_flagged hflag n w (s0.taken p r x)
    exact ⟨(congrArg (fun t => t.ing.cnt) hrest :), (congrArg (fun t => t.ing.fifos) hrest :), (congrArg State.sep hrest :), (congrArg State.ge hrest :)⟩
  · intro u e0 e hflag htype hudp hdport hkind hfind hblocks hep hrun hmask hsrc hvid hmis hfits hstat
    obtain ⟨rfl, hfree⟩ := engineFor_c37 hflag htype hudp hdport hn
    have hport : portOk { port := f.st.port, sport := u.sport, st := f.st, arr := f.arr, inject := false, eng := hashEngine u } e = true := by
      simpa [portOk, hmask] using ⟨hsrc, hvid⟩
    have hengine : hashEngine u < s0.ing.fifos.length := hfifos ▸ Nat.mod_lt _ (by omega)
    obtain ⟨k, hdelivered, hpkt⟩ := judgeFrame_delivers (s := s0.taken p r x) hflag htype hudp hdport hkind hfind hblocks hep hport hrun hmis hfits hstat
      hengine hfree w
    have hsame : (rxSextant p (judgeFrame (hashEngine u) f w (s0.taken p r x))).ing = (judgeFrame (hashEngine u) f w (s0.taken p r x)).ing := rfl
    rw [← hsame] at hdelivered
    generalize rxSextant p (judgeFrame (hashEngine u) f w (s0.taken p r x)) = t at hdelivered ⊢
    exact ⟨hdelivered.counted, rfl, hdelivered.queued.others, k, hdelivered.ending (s := s0.taken p r x), hpkt⟩

end Sys2Proof.Machine
end
